-- ==== Sys2Proof/Word.lean ====
section
/-!
DEFINITION. The word types of the machine and the plainest arithmetic over them (spec/00_scope.md conventions,
spec/20_memory.md R120, R121). Nothing here depends on an instruction.
-/

namespace Sys2Proof

/-- A register, an address or an ARM instruction: 32 bits (10_state.md R20). -/
abbrev Word := BitVec 32

/-- A halfword: a Thumb instruction or a 16-bit datum. -/
abbrev Half := BitVec 16

/-- The smallest addressable unit of memory (20_memory.md R120). -/
abbrev Byte := BitVec 8

/-- The number of a register in an ARM encoding. -/
abbrev RegNum := BitVec 4

/-- A Bool as a number, 1 for true. -/
def bit (b : Bool) : Nat := if b then 1 else 0

end Sys2Proof
end

