-- ==== Sys2Proof/Config.lean ====
section
/-!
DEFINITION. What an implementation fixes, and the free values (spec/92_eei_decisions.md, parameter table;
spec/93_implementation_defined.md part 1, treatment "any value").

A free value is an opaque constant without a body, applied to a counter that every draw advances: nothing in Lean can
evaluate it, so what is proved holds for every value (log 11).
-/

namespace Sys2Proof

/-- The n-th free value of a run: an arbitrary word (93_implementation_defined.md, treatment "any value"; log 11). -/
opaque Config.freeWord : Nat → BitVec 32

/-- The JTAG identification code, which the extracted manual lost (92_eei_decisions.md, JtagIdCode; log 31). -/
opaque Config.jtagIdCode : BitVec 32

/-- Whether DBG.FLUSH is DBG_SR[1] and DBG.D is DBG_SR[2], or the other way round: the manual's figure is lost
(48_debug_jtag.md R836; log 30). -/
opaque Config.flushIsBit1 : Bool

/-- Whether a scan of DBGTX clears TR at Update_DR, or already at Capture_DR (48_debug_jtag.md R824; log 30). -/
opaque Config.clearsTrAtUpdate : Bool

/-- Whether the event "instruction executed" counts an instruction whose condition fails, which the manual does not say
(60_exceptions.md R904; log 23). -/
opaque Config.countsSkipped : Bool

/-- The Cache Type register (10_state.md R51). -/
def Config.cacheType : Word := 0x0B1AA1AA#32

/-- What a byte of memory that nothing has written reads as (log 8). -/
def Config.unwrittenByte : Byte := 0#8

/-- How many trace-buffer bytes lie between two checkpoints (92_eei_decisions.md, CheckpointPolicy; log 24). -/
def Config.checkpointSpacing : Nat := 128

/-- How many bytes are still free when a fill-once trace buffer counts as full (48_debug_jtag.md R809; log 24). -/
def Config.traceReserve : Nat := 6

end Sys2Proof
end

