-- ==== Sys2Proof/OperandForms.lean ====
section
/-!
DEFINITION. The operand forms that rows of one mnemonic in spec/opcode_table.json differ in: addressing mode 1 (the
shifter operand), addressing mode 2 and addressing mode 3 (spec/30_encoding.md R285 to R289, R295 to R297). The
arguments are the fields of the rows.
-/

namespace Sys2Proof

/-- The shifter operand of a data-processing instruction (30_encoding.md R285). -/
inductive Op2 where
  /-- An 8-bit immediate rotated right by twice rot (R287). -/
  | imm (rot : BitVec 4) (imm8 : BitVec 8)
  /-- Register rm shifted by the amount amt; sh is the kind of shift (R288). -/
  | shift (amt : BitVec 5) (sh : BitVec 2) (rm : BitVec 4)
  /-- Register rm shifted by register rs (R289). -/
  | reg (rs : BitVec 4) (sh : BitVec 2) (rm : BitVec 4)
deriving DecidableEq, Repr

/-- Addressing mode 2 of LDR, STR, LDRB, STRB (R295, R296): offset or pre-indexed by w, or post-indexed. -/
inductive Mode2 where
  /-- P = 1, immediate offset. -/
  | imm (u w : Bool) (off12 : BitVec 12)
  /-- P = 1, scaled register offset. -/
  | reg (u w : Bool) (amt : BitVec 5) (sh : BitVec 2) (rm : BitVec 4)
  /-- P = 0, W = 0, immediate offset. -/
  | immPost (u : Bool) (off12 : BitVec 12)
  /-- P = 0, W = 0, scaled register offset. -/
  | regPost (u : Bool) (amt : BitVec 5) (sh : BitVec 2) (rm : BitVec 4)
deriving DecidableEq, Repr

/-- The offset of LDRT, LDRBT, STRT, STRBT (R295, R296; P = 0, W = 1). -/
inductive Offset2 where
  | imm (u : Bool) (off12 : BitVec 12)
  | reg (u : Bool) (amt : BitVec 5) (sh : BitVec 2) (rm : BitVec 4)
deriving DecidableEq, Repr

/-- The offset of addressing mode 3 (R297): an 8-bit immediate in two halves, or a register. -/
inductive Offset3 where
  | imm (immH immL : BitVec 4)
  | reg (rm : BitVec 4)
deriving DecidableEq, Repr

end Sys2Proof
end

