-- ==== Sys2Proof/Syntax.lean ====
section
/-!
DEFINITION. The instructions: the rows of spec/opcode_table.json, in the table's order, each mnemonic of a family at its
first row. A constructor's arguments are the fields the table gives the row, under the table's names (shortened), as the
bits of the encoding; a field of one bit is a Bool (true = 1). Rows of one mnemonic that differ only in the form of
addressing mode 1, 2 or 3 (AND with an immediate, AND with a shifted register, ...) are one constructor with that form
as its last argument: Lean's compiler takes at most 245 constructors with data, and the table has 294 rows. Thumb rows
begin with t.
-/

namespace Sys2Proof

/-- The rows of the opcode table (219 ARM, 75 Thumb), the forms of addressing modes 1, 2 and 3 as arguments. -/
inductive Instr where
  /-- ARM `AND`, data-processing (R360). -/
  | and (cond : BitVec 4) (sf : Bool) (rn : BitVec 4) (rd : BitVec 4) (op2 : Op2)
  /-- ARM `EOR`, data-processing (R361). -/
  | eor (cond : BitVec 4) (sf : Bool) (rn : BitVec 4) (rd : BitVec 4) (op2 : Op2)
  /-- ARM `SUB`, data-processing (R362). -/
  | sub (cond : BitVec 4) (sf : Bool) (rn : BitVec 4) (rd : BitVec 4) (op2 : Op2)
  /-- ARM `RSB`, data-processing (R363). -/
  | rsb (cond : BitVec 4) (sf : Bool) (rn : BitVec 4) (rd : BitVec 4) (op2 : Op2)
  /-- ARM `ADD`, data-processing (R364). -/
  | add (cond : BitVec 4) (sf : Bool) (rn : BitVec 4) (rd : BitVec 4) (op2 : Op2)
  /-- ARM `ADC`, data-processing (R365). -/
  | adc (cond : BitVec 4) (sf : Bool) (rn : BitVec 4) (rd : BitVec 4) (op2 : Op2)
  /-- ARM `SBC`, data-processing (R366). -/
  | sbc (cond : BitVec 4) (sf : Bool) (rn : BitVec 4) (rd : BitVec 4) (op2 : Op2)
  /-- ARM `RSC`, data-processing (R367). -/
  | rsc (cond : BitVec 4) (sf : Bool) (rn : BitVec 4) (rd : BitVec 4) (op2 : Op2)
  /-- ARM `TST`, data-processing (R368). -/
  | tst (cond : BitVec 4) (rn : BitVec 4) (op2 : Op2)
  /-- ARM `TEQ`, data-processing (R369). -/
  | teq (cond : BitVec 4) (rn : BitVec 4) (op2 : Op2)
  /-- ARM `CMP`, data-processing (R370). -/
  | cmp (cond : BitVec 4) (rn : BitVec 4) (op2 : Op2)
  /-- ARM `CMN`, data-processing (R371). -/
  | cmn (cond : BitVec 4) (rn : BitVec 4) (op2 : Op2)
  /-- ARM `ORR`, data-processing (R372). -/
  | orr (cond : BitVec 4) (sf : Bool) (rn : BitVec 4) (rd : BitVec 4) (op2 : Op2)
  /-- ARM `MOV`, data-processing (R373). -/
  | mov (cond : BitVec 4) (sf : Bool) (rd : BitVec 4) (op2 : Op2)
  /-- ARM `BIC`, data-processing (R374). -/
  | bic (cond : BitVec 4) (sf : Bool) (rn : BitVec 4) (rd : BitVec 4) (op2 : Op2)
  /-- ARM `MVN`, data-processing (R375). -/
  | mvn (cond : BitVec 4) (sf : Bool) (rd : BitVec 4) (op2 : Op2)
  /-- ARM `CLZ`, miscellaneous (R380). -/
  | clz (cond : BitVec 4) (rd : BitVec 4) (rm : BitVec 4)
  /-- ARM `MUL`, multiply (R405). -/
  | mul (cond : BitVec 4) (sf : Bool) (rd : BitVec 4) (rs : BitVec 4) (rm : BitVec 4)
  /-- ARM `MLA`, multiply (R406). -/
  | mla (cond : BitVec 4) (sf : Bool) (rd : BitVec 4) (rn : BitVec 4) (rs : BitVec 4) (rm : BitVec 4)
  /-- ARM `UMULL`, multiply long (R407). -/
  | umull (cond : BitVec 4) (sf : Bool) (rdHi : BitVec 4) (rdLo : BitVec 4) (rs : BitVec 4) (rm : BitVec 4)
  /-- ARM `UMLAL`, multiply long (R408). -/
  | umlal (cond : BitVec 4) (sf : Bool) (rdHi : BitVec 4) (rdLo : BitVec 4) (rs : BitVec 4) (rm : BitVec 4)
  /-- ARM `SMULL`, multiply long (R409). -/
  | smull (cond : BitVec 4) (sf : Bool) (rdHi : BitVec 4) (rdLo : BitVec 4) (rs : BitVec 4) (rm : BitVec 4)
  /-- ARM `SMLAL`, multiply long (R410). -/
  | smlal (cond : BitVec 4) (sf : Bool) (rdHi : BitVec 4) (rdLo : BitVec 4) (rs : BitVec 4) (rm : BitVec 4)
  /-- ARM `SMULxy`, DSP multiply (R415). -/
  | smulXY (cond : BitVec 4) (rd : BitVec 4) (rs : BitVec 4) (y : Bool) (x : Bool) (rm : BitVec 4)
  /-- ARM `SMULWy`, DSP multiply (R416). -/
  | smulWY (cond : BitVec 4) (rd : BitVec 4) (rs : BitVec 4) (y : Bool) (rm : BitVec 4)
  /-- ARM `SMLAxy`, DSP multiply (R417). -/
  | smlaXY (cond : BitVec 4) (rd : BitVec 4) (rn : BitVec 4) (rs : BitVec 4) (y : Bool) (x : Bool) (rm : BitVec 4)
  /-- ARM `SMLAWy`, DSP multiply (R418). -/
  | smlaWY (cond : BitVec 4) (rd : BitVec 4) (rn : BitVec 4) (rs : BitVec 4) (y : Bool) (rm : BitVec 4)
  /-- ARM `SMLALxy`, DSP multiply (R419). -/
  | smlalXY (cond : BitVec 4) (rdHi : BitVec 4) (rdLo : BitVec 4) (rs : BitVec 4) (y : Bool) (x : Bool) (rm : BitVec 4)
  /-- ARM `QADD`, saturating arithmetic (R426). -/
  | qadd (cond : BitVec 4) (rn : BitVec 4) (rd : BitVec 4) (rm : BitVec 4)
  /-- ARM `QSUB`, saturating arithmetic (R427). -/
  | qsub (cond : BitVec 4) (rn : BitVec 4) (rd : BitVec 4) (rm : BitVec 4)
  /-- ARM `QDADD`, saturating arithmetic (R428). -/
  | qdadd (cond : BitVec 4) (rn : BitVec 4) (rd : BitVec 4) (rm : BitVec 4)
  /-- ARM `QDSUB`, saturating arithmetic (R429). -/
  | qdsub (cond : BitVec 4) (rn : BitVec 4) (rd : BitVec 4) (rm : BitVec 4)
  /-- ARM `LDR`, load/store (R444). -/
  | ldr (cond : BitVec 4) (rn : BitVec 4) (rd : BitVec 4) (am : Mode2)
  /-- ARM `STR`, load/store (R445). -/
  | str (cond : BitVec 4) (rn : BitVec 4) (rd : BitVec 4) (am : Mode2)
  /-- ARM `LDRB`, load/store (R446). -/
  | ldrb (cond : BitVec 4) (rn : BitVec 4) (rd : BitVec 4) (am : Mode2)
  /-- ARM `STRB`, load/store (R447). -/
  | strb (cond : BitVec 4) (rn : BitVec 4) (rd : BitVec 4) (am : Mode2)
  /-- ARM `LDRT`, load/store with user access (R452). -/
  | ldrt (cond : BitVec 4) (rn : BitVec 4) (rd : BitVec 4) (off : Offset2)
  /-- ARM `LDRBT`, load/store with user access (R453). -/
  | ldrbt (cond : BitVec 4) (rn : BitVec 4) (rd : BitVec 4) (off : Offset2)
  /-- ARM `STRT`, load/store with user access (R454). -/
  | strt (cond : BitVec 4) (rn : BitVec 4) (rd : BitVec 4) (off : Offset2)
  /-- ARM `STRBT`, load/store with user access (R455). -/
  | strbt (cond : BitVec 4) (rn : BitVec 4) (rd : BitVec 4) (off : Offset2)
  /-- ARM `STRH`, load/store halfword (R461). -/
  | strh (cond : BitVec 4) (p : Bool) (u : Bool) (w : Bool) (rn : BitVec 4) (rd : BitVec 4) (off : Offset3)
  /-- ARM `LDRH`, load/store halfword (R460). -/
  | ldrh (cond : BitVec 4) (p : Bool) (u : Bool) (w : Bool) (rn : BitVec 4) (rd : BitVec 4) (off : Offset3)
  /-- ARM `LDRSB`, load/store halfword (R462). -/
  | ldrsb (cond : BitVec 4) (p : Bool) (u : Bool) (w : Bool) (rn : BitVec 4) (rd : BitVec 4) (off : Offset3)
  /-- ARM `LDRSH`, load/store halfword (R463). -/
  | ldrsh (cond : BitVec 4) (p : Bool) (u : Bool) (w : Bool) (rn : BitVec 4) (rd : BitVec 4) (off : Offset3)
  /-- ARM `LDRD`, load/store halfword (R464). -/
  | ldrd (cond : BitVec 4) (p : Bool) (u : Bool) (w : Bool) (rn : BitVec 4) (rd : BitVec 4) (off : Offset3)
  /-- ARM `STRD`, load/store halfword (R465). -/
  | strd (cond : BitVec 4) (p : Bool) (u : Bool) (w : Bool) (rn : BitVec 4) (rd : BitVec 4) (off : Offset3)
  /-- ARM `LDM__1`, load multiple (R470). -/
  | ldm1 (cond : BitVec 4) (p : Bool) (u : Bool) (w : Bool) (rn : BitVec 4) (list : BitVec 16)
  /-- ARM `LDM__2`, load multiple, User-bank registers (R471). -/
  | ldm2 (cond : BitVec 4) (p : Bool) (u : Bool) (w : Bool) (rn : BitVec 4) (list : BitVec 15)
  /-- ARM `LDM__3`, load multiple with CPSR restore (R472). -/
  | ldm3 (cond : BitVec 4) (p : Bool) (u : Bool) (w : Bool) (rn : BitVec 4) (list : BitVec 15)
  /-- ARM `STM__1`, store multiple (R473). -/
  | stm1 (cond : BitVec 4) (p : Bool) (u : Bool) (w : Bool) (rn : BitVec 4) (list : BitVec 16)
  /-- ARM `STM__2`, store multiple, User-bank registers (R473). -/
  | stm2 (cond : BitVec 4) (p : Bool) (u : Bool) (w : Bool) (rn : BitVec 4) (list : BitVec 16)
  /-- ARM `SWP`, swap (R474). -/
  | swp (cond : BitVec 4) (rn : BitVec 4) (rd : BitVec 4) (rm : BitVec 4)
  /-- ARM `SWPB`, swap (R475). -/
  | swpb (cond : BitVec 4) (rn : BitVec 4) (rd : BitVec 4) (rm : BitVec 4)
  /-- ARM `PLD`, preload, immediate offset; unconditional space (R476). -/
  | pldImm (u : Bool) (rn : BitVec 4) (off12 : BitVec 12)
  /-- ARM `PLD`, preload, scaled register offset; unconditional space (R476). -/
  | pldReg (u : Bool) (rn : BitVec 4) (amt : BitVec 5) (sh : BitVec 2) (rm : BitVec 4)
  /-- ARM `B`, branch (R500). -/
  | b (cond : BitVec 4) (imm24 : BitVec 24)
  /-- ARM `BL`, branch with link (R501). -/
  | bl (cond : BitVec 4) (imm24 : BitVec 24)
  /-- ARM `BLX__1`, branch with link and exchange, immediate; unconditional space (R502). -/
  | blx1 (h : Bool) (imm24 : BitVec 24)
  /-- ARM `BLX__2`, branch with link and exchange, register (R503). -/
  | blx2 (cond : BitVec 4) (rm : BitVec 4)
  /-- ARM `BX`, branch and exchange (R504). -/
  | bx (cond : BitVec 4) (rm : BitVec 4)
  /-- ARM `MRS`, status register to register (R510). -/
  | mrs (cond : BitVec 4) (r : Bool) (rd : BitVec 4)
  /-- ARM `MSR`, register to status register (R511). -/
  | msrReg (cond : BitVec 4) (r : Bool) (mask : BitVec 4) (rm : BitVec 4)
  /-- ARM `MSR`, immediate to status register (R511). -/
  | msrImm (cond : BitVec 4) (r : Bool) (mask : BitVec 4) (rot : BitVec 4) (imm8 : BitVec 8)
  /-- ARM `SWI`, software interrupt (R515). -/
  | swi (cond : BitVec 4) (imm24 : BitVec 24)
  /-- ARM `BKPT`, software breakpoint (R516). -/
  | bkpt (immHi : BitVec 12) (immLo : BitVec 4)
  /-- ARM `CDP`, coprocessor data operation (R549). -/
  | cdp (cond : BitVec 4) (opc1 : BitVec 4) (crn : BitVec 4) (crd : BitVec 4) (cp : BitVec 4) (opc2 : BitVec 3) (crm : BitVec 4)
  /-- ARM `MCR`, move to coprocessor (R546). -/
  | mcr (cond : BitVec 4) (opc1 : BitVec 3) (crn : BitVec 4) (rd : BitVec 4) (cp : BitVec 4) (opc2 : BitVec 3) (crm : BitVec 4)
  /-- ARM `MRC`, move from coprocessor (R547). -/
  | mrc (cond : BitVec 4) (opc1 : BitVec 3) (crn : BitVec 4) (rd : BitVec 4) (cp : BitVec 4) (opc2 : BitVec 3) (crm : BitVec 4)
  /-- ARM `LDC`, coprocessor load/store, offset or pre-indexed (R548). -/
  | ldcOffset (cond : BitVec 4) (u : Bool) (n : Bool) (w : Bool) (rn : BitVec 4) (crd : BitVec 4) (cp : BitVec 4) (off8 : BitVec 8)
  /-- ARM `LDC`, coprocessor load/store, post-indexed (R548). -/
  | ldcPost (cond : BitVec 4) (u : Bool) (n : Bool) (rn : BitVec 4) (crd : BitVec 4) (cp : BitVec 4) (off8 : BitVec 8)
  /-- ARM `LDC`, coprocessor load/store, unindexed (R548). -/
  | ldcUnindexed (cond : BitVec 4) (n : Bool) (rn : BitVec 4) (crd : BitVec 4) (cp : BitVec 4) (option : BitVec 8)
  /-- ARM `STC`, coprocessor load/store, offset or pre-indexed (R548). -/
  | stcOffset (cond : BitVec 4) (u : Bool) (n : Bool) (w : Bool) (rn : BitVec 4) (crd : BitVec 4) (cp : BitVec 4) (off8 : BitVec 8)
  /-- ARM `STC`, coprocessor load/store, post-indexed (R548). -/
  | stcPost (cond : BitVec 4) (u : Bool) (n : Bool) (rn : BitVec 4) (crd : BitVec 4) (cp : BitVec 4) (off8 : BitVec 8)
  /-- ARM `STC`, coprocessor load/store, unindexed (R548). -/
  | stcUnindexed (cond : BitVec 4) (n : Bool) (rn : BitVec 4) (crd : BitVec 4) (cp : BitVec 4) (option : BitVec 8)
  /-- ARM `MCRR`, move two registers to coprocessor (R549). -/
  | mcrr (cond : BitVec 4) (rn : BitVec 4) (rd : BitVec 4) (cp : BitVec 4) (opc : BitVec 4) (crm : BitVec 4)
  /-- ARM `MRRC`, move from coprocessor to two registers (R549). -/
  | mrrc (cond : BitVec 4) (rn : BitVec 4) (rd : BitVec 4) (cp : BitVec 4) (opc : BitVec 4) (crm : BitVec 4)
  /-- ARM `MIA`, CP0 multiply with internal accumulate (R550). -/
  | mia (cond : BitVec 4) (rs : BitVec 4) (acc : BitVec 3) (rm : BitVec 4)
  /-- ARM `MIAPH`, CP0 multiply with internal accumulate (R551). -/
  | miaph (cond : BitVec 4) (rs : BitVec 4) (acc : BitVec 3) (rm : BitVec 4)
  /-- ARM `MIABB`, CP0 multiply with internal accumulate (R552). -/
  | miabb (cond : BitVec 4) (rs : BitVec 4) (acc : BitVec 3) (rm : BitVec 4)
  /-- ARM `MIABT`, CP0 multiply with internal accumulate (R553). -/
  | miabt (cond : BitVec 4) (rs : BitVec 4) (acc : BitVec 3) (rm : BitVec 4)
  /-- ARM `MIATB`, CP0 multiply with internal accumulate (R554). -/
  | miatb (cond : BitVec 4) (rs : BitVec 4) (acc : BitVec 3) (rm : BitVec 4)
  /-- ARM `MIATT`, CP0 multiply with internal accumulate (R555). -/
  | miatt (cond : BitVec 4) (rs : BitVec 4) (acc : BitVec 3) (rm : BitVec 4)
  /-- ARM `MAR`, CP0 accumulator write (R556). -/
  | mar (cond : BitVec 4) (rdHi : BitVec 4) (rdLo : BitVec 4) (acc : BitVec 3)
  /-- ARM `MRA`, CP0 accumulator read (R557). -/
  | mra (cond : BitVec 4) (rdHi : BitVec 4) (rdLo : BitVec 4) (acc : BitVec 3)
  /-- ARM `UNDEFINED`, architecturally undefined space (R303). -/
  | undefMedia (cond : BitVec 4) (anyHi : BitVec 20) (anyLo : BitVec 4)
  /-- ARM `UNDEFINED`, undefined immediate-to-status space (R303). -/
  | undefMsrImm (cond : BitVec 4) (r : Bool) (any : BitVec 20)
  /-- ARM `MRC_p15__0__Rd__c0__c0__0`, CP15 access: ID (R584). -/
  | mrcId (cond : BitVec 4) (rd : BitVec 4)
  /-- ARM `MCR_p15__0__Rd__c0__c0__0`, CP15 access: ID (R584). -/
  | mcrId (cond : BitVec 4) (rd : BitVec 4)
  /-- ARM `MRC_p15__0__Rd__c0__c0__1`, CP15 access: Cache Type (R585). -/
  | mrcCacheType (cond : BitVec 4) (rd : BitVec 4)
  /-- ARM `MCR_p15__0__Rd__c0__c0__1`, CP15 access: Cache Type (R585). -/
  | mcrCacheType (cond : BitVec 4) (rd : BitVec 4)
  /-- ARM `MRC_p15__0__Rd__c1__c0__0`, CP15 access: Control (R586). -/
  | mrcControl (cond : BitVec 4) (rd : BitVec 4)
  /-- ARM `MCR_p15__0__Rd__c1__c0__0`, CP15 access: Control (R586). -/
  | mcrControl (cond : BitVec 4) (rd : BitVec 4)
  /-- ARM `MRC_p15__0__Rd__c1__c0__1`, CP15 access: Auxiliary Control (R587). -/
  | mrcAuxControl (cond : BitVec 4) (rd : BitVec 4)
  /-- ARM `MCR_p15__0__Rd__c1__c0__1`, CP15 access: Auxiliary Control (R587). -/
  | mcrAuxControl (cond : BitVec 4) (rd : BitVec 4)
  /-- ARM `MRC_p15__0__Rd__c2__c0__0`, CP15 access: Translation Table Base (R588). -/
  | mrcTtb (cond : BitVec 4) (rd : BitVec 4)
  /-- ARM `MCR_p15__0__Rd__c2__c0__0`, CP15 access: Translation Table Base (R588). -/
  | mcrTtb (cond : BitVec 4) (rd : BitVec 4)
  /-- ARM `MRC_p15__0__Rd__c3__c0__0`, CP15 access: Domain Access Control (R589). -/
  | mrcDacr (cond : BitVec 4) (rd : BitVec 4)
  /-- ARM `MCR_p15__0__Rd__c3__c0__0`, CP15 access: Domain Access Control (R589). -/
  | mcrDacr (cond : BitVec 4) (rd : BitVec 4)
  /-- ARM `MRC_p15__0__Rd__c5__c0__0`, CP15 access: Fault Status (R620). -/
  | mrcFsr (cond : BitVec 4) (rd : BitVec 4)
  /-- ARM `MCR_p15__0__Rd__c5__c0__0`, CP15 access: Fault Status (R620). -/
  | mcrFsr (cond : BitVec 4) (rd : BitVec 4)
  /-- ARM `MRC_p15__0__Rd__c6__c0__0`, CP15 access: Fault Address (R620). -/
  | mrcFar (cond : BitVec 4) (rd : BitVec 4)
  /-- ARM `MCR_p15__0__Rd__c6__c0__0`, CP15 access: Fault Address (R620). -/
  | mcrFar (cond : BitVec 4) (rd : BitVec 4)
  /-- ARM `MCR_p15__0__Rd__c7__c7__0`, CP15 access: Invalidate I&D cache & BTB (R593). -/
  | mcrInvIDCacheBtb (cond : BitVec 4) (rd : BitVec 4)
  /-- ARM `MCR_p15__0__Rd__c7__c5__0`, CP15 access: Invalidate I cache & BTB (R591). -/
  | mcrInvICacheBtb (cond : BitVec 4) (rd : BitVec 4)
  /-- ARM `MCR_p15__0__Rd__c7__c5__1`, CP15 access: Invalidate I cache line (R592). -/
  | mcrInvICacheLine (cond : BitVec 4) (rd : BitVec 4)
  /-- ARM `MCR_p15__0__Rd__c7__c6__0`, CP15 access: Invalidate D cache (R594). -/
  | mcrInvDCache (cond : BitVec 4) (rd : BitVec 4)
  /-- ARM `MCR_p15__0__Rd__c7__c6__1`, CP15 access: Invalidate D cache line (R595). -/
  | mcrInvDCacheLine (cond : BitVec 4) (rd : BitVec 4)
  /-- ARM `MCR_p15__0__Rd__c7__c10__1`, CP15 access: Clean D cache line (R596). -/
  | mcrCleanDCacheLine (cond : BitVec 4) (rd : BitVec 4)
  /-- ARM `MCR_p15__0__Rd__c7__c10__4`, CP15 access: Drain Write (R598). -/
  | mcrDrainWriteBuffer (cond : BitVec 4) (rd : BitVec 4)
  /-- ARM `MCR_p15__0__Rd__c7__c5__6`, CP15 access: Invalidate Branch Target Buffer (R597). -/
  | mcrInvBtb (cond : BitVec 4) (rd : BitVec 4)
  /-- ARM `MCR_p15__0__Rd__c7__c2__5`, CP15 access: Allocate Line in the Data Cache (R600). -/
  | mcrAllocateDLine (cond : BitVec 4) (rd : BitVec 4)
  /-- ARM `MCR_p15__0__Rd__c8__c7__0`, CP15 access: Invalidate I&D TLB (R604). -/
  | mcrInvIDTlb (cond : BitVec 4) (rd : BitVec 4)
  /-- ARM `MCR_p15__0__Rd__c8__c5__0`, CP15 access: Invalidate I TLB (R605). -/
  | mcrInvITlb (cond : BitVec 4) (rd : BitVec 4)
  /-- ARM `MCR_p15__0__Rd__c8__c5__1`, CP15 access: Invalidate I TLB entry (R606). -/
  | mcrInvITlbEntry (cond : BitVec 4) (rd : BitVec 4)
  /-- ARM `MCR_p15__0__Rd__c8__c6__0`, CP15 access: Invalidate D TLB (R607). -/
  | mcrInvDTlb (cond : BitVec 4) (rd : BitVec 4)
  /-- ARM `MCR_p15__0__Rd__c8__c6__1`, CP15 access: Invalidate D TLB entry (R608). -/
  | mcrInvDTlbEntry (cond : BitVec 4) (rd : BitVec 4)
  /-- ARM `MCR_p15__0__Rd__c9__c1__0`, CP15 access: Fetch and Lock I cache line (R610). -/
  | mcrLockILine (cond : BitVec 4) (rd : BitVec 4)
  /-- ARM `MCR_p15__0__Rd__c9__c1__1`, CP15 access: Unlock Instruction cache (R611). -/
  | mcrUnlockICache (cond : BitVec 4) (rd : BitVec 4)
  /-- ARM `MRC_p15__0__Rd__c9__c2__0`, CP15 access: Read data cache lock register (R612). -/
  | mrcDCacheLock (cond : BitVec 4) (rd : BitVec 4)
  /-- ARM `MCR_p15__0__Rd__c9__c2__0`, CP15 access: Write data cache lock register (R612). -/
  | mcrDCacheLock (cond : BitVec 4) (rd : BitVec 4)
  /-- ARM `MCR_p15__0__Rd__c9__c2__1`, CP15 access: Unlock Data Cache (R613). -/
  | mcrUnlockDCache (cond : BitVec 4) (rd : BitVec 4)
  /-- ARM `MCR_p15__0__Rd__c10__c4__0`, CP15 access: Translate and Lock I TLB entry (R615). -/
  | mcrLockITlbEntry (cond : BitVec 4) (rd : BitVec 4)
  /-- ARM `MCR_p15__0__Rd__c10__c8__0`, CP15 access: Translate and Lock D TLB entry (R616). -/
  | mcrLockDTlbEntry (cond : BitVec 4) (rd : BitVec 4)
  /-- ARM `MCR_p15__0__Rd__c10__c4__1`, CP15 access: Unlock I TLB (R617). -/
  | mcrUnlockITlb (cond : BitVec 4) (rd : BitVec 4)
  /-- ARM `MCR_p15__0__Rd__c10__c8__1`, CP15 access: Unlock D TLB (R618). -/
  | mcrUnlockDTlb (cond : BitVec 4) (rd : BitVec 4)
  /-- ARM `MRC_p15__0__Rd__c13__c0__0`, CP15 access: Process ID (R621). -/
  | mrcPid (cond : BitVec 4) (rd : BitVec 4)
  /-- ARM `MCR_p15__0__Rd__c13__c0__0`, CP15 access: Process ID (R621). -/
  | mcrPid (cond : BitVec 4) (rd : BitVec 4)
  /-- ARM `MRC_p15__0__Rd__c14__c8__0`, CP15 access: IBCR0 (R622). -/
  | mrcIbcr0 (cond : BitVec 4) (rd : BitVec 4)
  /-- ARM `MCR_p15__0__Rd__c14__c8__0`, CP15 access: IBCR0 (R622). -/
  | mcrIbcr0 (cond : BitVec 4) (rd : BitVec 4)
  /-- ARM `MRC_p15__0__Rd__c14__c9__0`, CP15 access: IBCR1 (R622). -/
  | mrcIbcr1 (cond : BitVec 4) (rd : BitVec 4)
  /-- ARM `MCR_p15__0__Rd__c14__c9__0`, CP15 access: IBCR1 (R622). -/
  | mcrIbcr1 (cond : BitVec 4) (rd : BitVec 4)
  /-- ARM `MRC_p15__0__Rd__c14__c0__0`, CP15 access: DBR0 (R622). -/
  | mrcDbr0 (cond : BitVec 4) (rd : BitVec 4)
  /-- ARM `MCR_p15__0__Rd__c14__c0__0`, CP15 access: DBR0 (R622). -/
  | mcrDbr0 (cond : BitVec 4) (rd : BitVec 4)
  /-- ARM `MRC_p15__0__Rd__c14__c3__0`, CP15 access: DBR1 (R622). -/
  | mrcDbr1 (cond : BitVec 4) (rd : BitVec 4)
  /-- ARM `MCR_p15__0__Rd__c14__c3__0`, CP15 access: DBR1 (R622). -/
  | mcrDbr1 (cond : BitVec 4) (rd : BitVec 4)
  /-- ARM `MRC_p15__0__Rd__c14__c4__0`, CP15 access: DBCON (R622). -/
  | mrcDbcon (cond : BitVec 4) (rd : BitVec 4)
  /-- ARM `MCR_p15__0__Rd__c14__c4__0`, CP15 access: DBCON (R622). -/
  | mcrDbcon (cond : BitVec 4) (rd : BitVec 4)
  /-- ARM `MRC_p15__0__Rd__c15__c1__0`, CP15 access: Coprocessor Access (R623). -/
  | mrcCpar (cond : BitVec 4) (rd : BitVec 4)
  /-- ARM `MCR_p15__0__Rd__c15__c1__0`, CP15 access: Coprocessor Access (R623). -/
  | mcrCpar (cond : BitVec 4) (rd : BitVec 4)
  /-- ARM `MRC_p14__0__Rd__c0__c0__0`, CP14 access: PMNC (R631). -/
  | mrcPmnc (cond : BitVec 4) (rd : BitVec 4)
  /-- ARM `MCR_p14__0__Rd__c0__c0__0`, CP14 access: PMNC (R631). -/
  | mcrPmnc (cond : BitVec 4) (rd : BitVec 4)
  /-- ARM `MRC_p14__0__Rd__c1__c0__0`, CP14 access: CCNT (R632). -/
  | mrcCcnt (cond : BitVec 4) (rd : BitVec 4)
  /-- ARM `MCR_p14__0__Rd__c1__c0__0`, CP14 access: CCNT (R632). -/
  | mcrCcnt (cond : BitVec 4) (rd : BitVec 4)
  /-- ARM `MRC_p14__0__Rd__c2__c0__0`, CP14 access: PMN0 (R633). -/
  | mrcPmn0 (cond : BitVec 4) (rd : BitVec 4)
  /-- ARM `MCR_p14__0__Rd__c2__c0__0`, CP14 access: PMN0 (R633). -/
  | mcrPmn0 (cond : BitVec 4) (rd : BitVec 4)
  /-- ARM `MRC_p14__0__Rd__c3__c0__0`, CP14 access: PMN1 (R633). -/
  | mrcPmn1 (cond : BitVec 4) (rd : BitVec 4)
  /-- ARM `MCR_p14__0__Rd__c3__c0__0`, CP14 access: PMN1 (R633). -/
  | mcrPmn1 (cond : BitVec 4) (rd : BitVec 4)
  /-- ARM `MRC_p14__0__Rd__c6__c0__0`, CP14 access: CCLKCFG (R634). -/
  | mrcCclkcfg (cond : BitVec 4) (rd : BitVec 4)
  /-- ARM `MCR_p14__0__Rd__c6__c0__0`, CP14 access: CCLKCFG (R634). -/
  | mcrCclkcfg (cond : BitVec 4) (rd : BitVec 4)
  /-- ARM `MRC_p14__0__Rd__c7__c0__0`, CP14 access: PWRMODE (R635). -/
  | mrcPwrmode (cond : BitVec 4) (rd : BitVec 4)
  /-- ARM `MCR_p14__0__Rd__c7__c0__0`, CP14 access: PWRMODE (R635). -/
  | mcrPwrmode (cond : BitVec 4) (rd : BitVec 4)
  /-- ARM `MRC_p14__0__Rd__c8__c0__0`, CP14 access: TX (R636). -/
  | mrcTx (cond : BitVec 4) (rd : BitVec 4)
  /-- ARM `MCR_p14__0__Rd__c8__c0__0`, CP14 access: TX (R636). -/
  | mcrTx (cond : BitVec 4) (rd : BitVec 4)
  /-- ARM `MRC_p14__0__Rd__c9__c0__0`, CP14 access: RX (R637). -/
  | mrcRx (cond : BitVec 4) (rd : BitVec 4)
  /-- ARM `MCR_p14__0__Rd__c9__c0__0`, CP14 access: RX (R637). -/
  | mcrRx (cond : BitVec 4) (rd : BitVec 4)
  /-- ARM `MRC_p14__0__Rd__c10__c0__0`, CP14 access: DCSR (R638). -/
  | mrcDcsr (cond : BitVec 4) (rd : BitVec 4)
  /-- ARM `MCR_p14__0__Rd__c10__c0__0`, CP14 access: DCSR (R638). -/
  | mcrDcsr (cond : BitVec 4) (rd : BitVec 4)
  /-- ARM `MRC_p14__0__Rd__c11__c0__0`, CP14 access: TBREG (R639). -/
  | mrcTbreg (cond : BitVec 4) (rd : BitVec 4)
  /-- ARM `MCR_p14__0__Rd__c11__c0__0`, CP14 access: TBREG (R639). -/
  | mcrTbreg (cond : BitVec 4) (rd : BitVec 4)
  /-- ARM `MRC_p14__0__Rd__c12__c0__0`, CP14 access: CHKPT0 (R640). -/
  | mrcChkpt0 (cond : BitVec 4) (rd : BitVec 4)
  /-- ARM `MCR_p14__0__Rd__c12__c0__0`, CP14 access: CHKPT0 (R640). -/
  | mcrChkpt0 (cond : BitVec 4) (rd : BitVec 4)
  /-- ARM `MRC_p14__0__Rd__c13__c0__0`, CP14 access: CHKPT1 (R640). -/
  | mrcChkpt1 (cond : BitVec 4) (rd : BitVec 4)
  /-- ARM `MCR_p14__0__Rd__c13__c0__0`, CP14 access: CHKPT1 (R640). -/
  | mcrChkpt1 (cond : BitVec 4) (rd : BitVec 4)
  /-- ARM `MRC_p14__0__Rd__c14__c0__0`, CP14 access: TXRXCTRL (R641). -/
  | mrcTxrxctrl (cond : BitVec 4) (rd : BitVec 4)
  /-- ARM `MCR_p14__0__Rd__c14__c0__0`, CP14 access: TXRXCTRL (R641). -/
  | mcrTxrxctrl (cond : BitVec 4) (rd : BitVec 4)
  /-- Thumb `LSL__1`, shift by immediate (R670). -/
  | tLsl1 (imm5 : BitVec 5) (rm : BitVec 3) (rd : BitVec 3)
  /-- Thumb `LSR__1`, shift by immediate (R671). -/
  | tLsr1 (imm5 : BitVec 5) (rm : BitVec 3) (rd : BitVec 3)
  /-- Thumb `ASR__1`, shift by immediate (R672). -/
  | tAsr1 (imm5 : BitVec 5) (rm : BitVec 3) (rd : BitVec 3)
  /-- Thumb `ADD__3`, add/subtract register (R673). -/
  | tAdd3 (rm : BitVec 3) (rn : BitVec 3) (rd : BitVec 3)
  /-- Thumb `SUB__3`, add/subtract register (R674). -/
  | tSub3 (rm : BitVec 3) (rn : BitVec 3) (rd : BitVec 3)
  /-- Thumb `ADD__1`, add/subtract 3-bit immediate (R675). -/
  | tAdd1 (imm3 : BitVec 3) (rn : BitVec 3) (rd : BitVec 3)
  /-- Thumb `SUB__1`, add/subtract 3-bit immediate (R676). -/
  | tSub1 (imm3 : BitVec 3) (rn : BitVec 3) (rd : BitVec 3)
  /-- Thumb `MOV__1`, 8-bit immediate (R677). -/
  | tMov1 (rd : BitVec 3) (imm8 : BitVec 8)
  /-- Thumb `CMP__1`, 8-bit immediate (R678). -/
  | tCmp1 (rn : BitVec 3) (imm8 : BitVec 8)
  /-- Thumb `ADD__2`, 8-bit immediate (R679). -/
  | tAdd2 (rd : BitVec 3) (imm8 : BitVec 8)
  /-- Thumb `SUB__2`, 8-bit immediate (R680). -/
  | tSub2 (rd : BitVec 3) (imm8 : BitVec 8)
  /-- Thumb `AND`, data-processing register (R681). -/
  | tAnd (rm : BitVec 3) (rd : BitVec 3)
  /-- Thumb `EOR`, data-processing register (R682). -/
  | tEor (rm : BitVec 3) (rd : BitVec 3)
  /-- Thumb `LSL__2`, data-processing register (R683). -/
  | tLsl2 (rs : BitVec 3) (rd : BitVec 3)
  /-- Thumb `LSR__2`, data-processing register (R684). -/
  | tLsr2 (rs : BitVec 3) (rd : BitVec 3)
  /-- Thumb `ASR__2`, data-processing register (R685). -/
  | tAsr2 (rs : BitVec 3) (rd : BitVec 3)
  /-- Thumb `ADC`, data-processing register (R686). -/
  | tAdc (rm : BitVec 3) (rd : BitVec 3)
  /-- Thumb `SBC`, data-processing register (R687). -/
  | tSbc (rm : BitVec 3) (rd : BitVec 3)
  /-- Thumb `ROR`, data-processing register (R688). -/
  | tRor (rs : BitVec 3) (rd : BitVec 3)
  /-- Thumb `TST`, data-processing register (R689). -/
  | tTst (rm : BitVec 3) (rn : BitVec 3)
  /-- Thumb `NEG`, data-processing register (R690). -/
  | tNeg (rm : BitVec 3) (rd : BitVec 3)
  /-- Thumb `CMP__2`, data-processing register (R691). -/
  | tCmp2 (rm : BitVec 3) (rn : BitVec 3)
  /-- Thumb `CMN`, data-processing register (R692). -/
  | tCmn (rm : BitVec 3) (rn : BitVec 3)
  /-- Thumb `ORR`, data-processing register (R693). -/
  | tOrr (rm : BitVec 3) (rd : BitVec 3)
  /-- Thumb `MUL`, data-processing register (R694). -/
  | tMul (rm : BitVec 3) (rd : BitVec 3)
  /-- Thumb `BIC`, data-processing register (R695). -/
  | tBic (rm : BitVec 3) (rd : BitVec 3)
  /-- Thumb `MVN`, data-processing register (R696). -/
  | tMvn (rm : BitVec 3) (rd : BitVec 3)
  /-- Thumb `ADD__4`, special data processing, high registers (R700). -/
  | tAdd4 (h1 : Bool) (h2 : Bool) (rm : BitVec 3) (rd : BitVec 3)
  /-- Thumb `CMP__3`, special data processing, high registers (R701). -/
  | tCmp3 (h1 : Bool) (h2 : Bool) (rm : BitVec 3) (rn : BitVec 3)
  /-- Thumb `MOV__3`, special data processing, high registers (R702). -/
  | tMov3 (h1 : Bool) (h2 : Bool) (rm : BitVec 3) (rd : BitVec 3)
  /-- Thumb `BX`, branch and exchange (R703). -/
  | tBx (h2 : Bool) (rm : BitVec 3)
  /-- Thumb `BLX__2`, branch with link and exchange, register (R704). -/
  | tBlx2 (h2 : Bool) (rm : BitVec 3)
  /-- Thumb `LDR__3`, load PC-relative (R710). -/
  | tLdr3 (rd : BitVec 3) (imm8 : BitVec 8)
  /-- Thumb `STR__2`, load/store register offset (R711). -/
  | tStr2 (rm : BitVec 3) (rn : BitVec 3) (rd : BitVec 3)
  /-- Thumb `STRH__2`, load/store register offset (R712). -/
  | tStrh2 (rm : BitVec 3) (rn : BitVec 3) (rd : BitVec 3)
  /-- Thumb `STRB__2`, load/store register offset (R713). -/
  | tStrb2 (rm : BitVec 3) (rn : BitVec 3) (rd : BitVec 3)
  /-- Thumb `LDRSB`, load/store register offset (R714). -/
  | tLdrsb (rm : BitVec 3) (rn : BitVec 3) (rd : BitVec 3)
  /-- Thumb `LDR__2`, load/store register offset (R715). -/
  | tLdr2 (rm : BitVec 3) (rn : BitVec 3) (rd : BitVec 3)
  /-- Thumb `LDRH__2`, load/store register offset (R716). -/
  | tLdrh2 (rm : BitVec 3) (rn : BitVec 3) (rd : BitVec 3)
  /-- Thumb `LDRB__2`, load/store register offset (R717). -/
  | tLdrb2 (rm : BitVec 3) (rn : BitVec 3) (rd : BitVec 3)
  /-- Thumb `LDRSH`, load/store register offset (R718). -/
  | tLdrsh (rm : BitVec 3) (rn : BitVec 3) (rd : BitVec 3)
  /-- Thumb `STR__1`, load/store word immediate offset (R705). -/
  | tStr1 (imm5 : BitVec 5) (rn : BitVec 3) (rd : BitVec 3)
  /-- Thumb `LDR__1`, load/store word immediate offset (R706). -/
  | tLdr1 (imm5 : BitVec 5) (rn : BitVec 3) (rd : BitVec 3)
  /-- Thumb `STRB__1`, load/store byte immediate offset (R707). -/
  | tStrb1 (imm5 : BitVec 5) (rn : BitVec 3) (rd : BitVec 3)
  /-- Thumb `LDRB__1`, load/store byte immediate offset (R708). -/
  | tLdrb1 (imm5 : BitVec 5) (rn : BitVec 3) (rd : BitVec 3)
  /-- Thumb `STRH__1`, load/store halfword immediate offset (R709). -/
  | tStrh1 (imm5 : BitVec 5) (rn : BitVec 3) (rd : BitVec 3)
  /-- Thumb `LDRH__1`, load/store halfword immediate offset (R719). -/
  | tLdrh1 (imm5 : BitVec 5) (rn : BitVec 3) (rd : BitVec 3)
  /-- Thumb `STR__3`, load/store SP-relative (R720). -/
  | tStr3 (rd : BitVec 3) (imm8 : BitVec 8)
  /-- Thumb `LDR__4`, load/store SP-relative (R721). -/
  | tLdr4 (rd : BitVec 3) (imm8 : BitVec 8)
  /-- Thumb `ADD__5`, add to PC (R722). -/
  | tAdd5 (rd : BitVec 3) (imm8 : BitVec 8)
  /-- Thumb `ADD__6`, add to SP (R723). -/
  | tAdd6 (rd : BitVec 3) (imm8 : BitVec 8)
  /-- Thumb `ADD__7`, adjust SP (R724). -/
  | tAdd7 (imm7 : BitVec 7)
  /-- Thumb `SUB__4`, adjust SP (R725). -/
  | tSub4 (imm7 : BitVec 7)
  /-- Thumb `PUSH`, push registers (R726). -/
  | tPush (r : Bool) (list : BitVec 8)
  /-- Thumb `POP`, pop registers (R727). -/
  | tPop (r : Bool) (list : BitVec 8)
  /-- Thumb `BKPT`, software breakpoint (R733). -/
  | tBkpt (imm8 : BitVec 8)
  /-- Thumb `UNDEFINED`, unallocated point of the 1011 space (R666). -/
  | tUndefB1 (x : BitVec 8)
  /-- Thumb `UNDEFINED`, unallocated point of the 1011 space (R666). -/
  | tUndefB2 (x : BitVec 8)
  /-- Thumb `UNDEFINED`, unallocated point of the 1011 space (R666). -/
  | tUndefB3 (x : BitVec 8)
  /-- Thumb `UNDEFINED`, unallocated point of the 1011 space (R666). -/
  | tUndefB6 (x : BitVec 8)
  /-- Thumb `UNDEFINED`, unallocated point of the 1011 space (R666). -/
  | tUndefB7 (x : BitVec 8)
  /-- Thumb `UNDEFINED`, unallocated point of the 1011 space (R666). -/
  | tUndefB8 (x : BitVec 10)
  /-- Thumb `UNDEFINED`, unallocated point of the 1011 space (R666). -/
  | tUndefBF (x : BitVec 8)
  /-- Thumb `STMIA`, store multiple (R728). -/
  | tStmia (rn : BitVec 3) (list : BitVec 8)
  /-- Thumb `LDMIA`, load multiple (R729). -/
  | tLdmia (rn : BitVec 3) (list : BitVec 8)
  /-- Thumb `B__1`, conditional branch, cond = 0b0xxx (R730). -/
  | tB1Low (condLo : BitVec 3) (imm8 : BitVec 8)
  /-- Thumb `B__1`, conditional branch, cond = 0b10xx (R730). -/
  | tB1Mid (condLo : BitVec 2) (imm8 : BitVec 8)
  /-- Thumb `B__1`, conditional branch, cond = 0b110x (R730). -/
  | tB1High (condLo : Bool) (imm8 : BitVec 8)
  /-- Thumb `UNDEFINED`, conditional branch space with cond = 0b1110 (R731). -/
  | tUndefDE (imm8 : BitVec 8)
  /-- Thumb `SWI`, software interrupt (R732). -/
  | tSwi (imm8 : BitVec 8)
  /-- Thumb `B__2`, unconditional branch (R740). -/
  | tB2 (imm11 : BitVec 11)
  /-- Thumb `BLX__1__suffix`, second halfword of BLX label (R743). -/
  | tBlxSuffix (off10 : BitVec 10)
  /-- Thumb `UNDEFINED`, H = 0b01 with bit 0 = 1 (R666). -/
  | tUndefE801 (x : BitVec 10)
  /-- Thumb `BL_prefix`, first halfword of BL / BLX label (R741). -/
  | tBlPrefix (off11 : BitVec 11)
  /-- Thumb `BL_suffix`, second halfword of BL label (R742). -/
  | tBlSuffix (off11 : BitVec 11)
deriving DecidableEq, Repr

end Sys2Proof
end

