-- ==== Sys2Proof/Machine/State.lean ====
section
/-!
DEFINITION. The state of the machine as plain data, the reasons a step can stop, and the state after reset
(spec/10_state.md; 48_debug_jtag.md; 60_exceptions.md R890 to R910; 70_reset_and_hazards.md R940 to R949).

Tables (register banks apart) are lists that hold only what is there: a cache lists its valid lines, a TLB its valid
entries. A list of pairs is sorted by its first component.
-/

namespace Sys2Proof.Machine

/-- The eight processor modes (10_state.md R21). -/
inductive Mode where
  | usr | fiq | irq | svc | dbg | abt | und | sys
deriving DecidableEq, Repr

/-- The power modes (60_exceptions.md R910). -/
inductive PowerMode where
  | active | idle | sleep
deriving DecidableEq, Repr

/-- Where the performance monitor's request is routed (60_exceptions.md R905, parameter PmuRoute). -/
inductive PmuRoute where
  | none | irq | fiq
deriving DecidableEq, Repr

/-- What answers an access at a physical address (20_memory.md R135, parameter PhysMap). -/
inductive RegionKind where
  /-- Plain storage. -/
  | memory
  /-- Every access answers with an error (60_exceptions.md R874). -/
  | busError
  /-- No memory: an access answers with an error; a dirty line written back to it is unpredictable (U35). -/
  | absent
  /-- A device: the environment supplies what a read answers and what an access does (92_eei_decisions.md D5; log 10). -/
  | device
deriving DecidableEq, Repr

/-- A part of the map: a region of physical addresses, base to base + size - 1, and the access widths in bytes for which
it says what answers there (none listed: all). A line is read as 32 bytes and half of one written back as 16
(92_eei_decisions.md D5; log 9). -/
structure Region where
  base   : Nat
  size   : Nat
  kind   : RegionKind
  widths : List Nat
deriving DecidableEq, Repr

/-- An access that reached a device: a write with its bytes, or a read with the bytes that answered it, from the lowest
lane on (20_memory.md R135; log 10). -/
structure DeviceAccess where
  write : Bool
  addr  : Word
  data  : List Byte
deriving DecidableEq, Repr

/-- Bytes that another bus master writes from a lane address on, and whether this master is outside the chip
(20_memory.md R141, R146). -/
structure BusWrite where
  offChip : Bool
  addr    : Word
  data    : List Byte
deriving DecidableEq, Repr

/-- The sizes a translation can have (21_mmu_caches_tlb.md R180). -/
inductive PageSize where
  | section1M | large64K | small4K | tiny1K
deriving DecidableEq, Repr

/-- The attributes of a page (21_mmu_caches_tlb.md R193 to R195). -/
structure Attrs where
  x : Bool
  c : Bool
  b : Bool
deriving DecidableEq, Repr

/-- A translation as a TLB holds it (10_state.md R90). -/
structure TlbEntry where
  /-- The MVA, its low bits cut off at the size. -/
  tag    : Word
  size   : PageSize
  /-- The physical base, its low bits cut off at the size. -/
  base   : Word
  domain : BitVec 4
  /-- AP3, AP2, AP1, AP0; a page with one AP field has it four times. -/
  ap     : BitVec 8
  attrs  : Attrs
deriving DecidableEq, Repr

/-- A TLB: the valid entries by slot number, the round-robin and lock pointers (21_mmu_caches_tlb.md R210, R215).
The slots below `lock` are locked, whether or not they hold a valid entry (R213). -/
structure Tlb where
  entries : List (Nat × TlbEntry)
  rr      : Nat
  lock    : Nat
deriving DecidableEq, Repr

/-- A line of an instruction cache: MVA[31:10], eight words, the words whose parity bit is wrong
(21_mmu_caches_tlb.md R220, R225). The MODEL notes beside them the physical line it was read from, and whether the
debugger downloaded it, so that no memory stands behind it (48_debug_jtag.md R832; log 62). -/
structure ILine where
  tag   : BitVec 22
  paLine : BitVec 27
  words : List Word
  bad   : BitVec 8
  downloaded : Bool
deriving DecidableEq, Repr

/-- The main instruction cache: the valid lines by 32 * set + way; per set (listed where it is not the reset value)
the round-robin pointer (31) and the number of locked ways (0) (21_mmu_caches_tlb.md R220, R224, R229). -/
structure ICache where
  lines  : List (Nat × ILine)
  rr     : List (Nat × Nat)
  locked : List (Nat × Nat)
deriving DecidableEq, Repr

/-- The mini instruction cache: the valid lines by 2 * set + way, the way the next download replaces per set
(48_debug_jtag.md R825, R827). -/
structure MiniICache where
  lines : List (Nat × ILine)
  rr    : List (Nat × Nat)
deriving DecidableEq, Repr

/-- An instruction fetch buffer that holds the line at MVA[31:5], read from a physical line
(21_mmu_caches_tlb.md R222, R223; log 62). -/
structure FetchBuffer where
  line   : BitVec 27
  paLine : BitVec 27
  words  : List Word
deriving DecidableEq, Repr

/-- A line of a data cache: MVA[31:10], the physical line it was filled from (log 21), 32 bytes, the dirty bits of the
lower and the upper 16 bytes, and the bytes whose parity bit is wrong (21_mmu_caches_tlb.md R240, R248). -/
structure DLine where
  tag     : BitVec 22
  paLine  : BitVec 27
  data    : List Byte
  dirtyLo : Bool
  dirtyHi : Bool
  bad     : BitVec 32
deriving DecidableEq, Repr

/-- The data cache, as ICache; the ways below the lock count are locked (21_mmu_caches_tlb.md R246, R260). -/
structure DCache where
  lines  : List (Nat × DLine)
  rr     : List (Nat × Nat)
  locked : List (Nat × Nat)
deriving DecidableEq, Repr

/-- The mini-data cache: the valid lines by 2 * set + way, and per set the way filled longest ago
(21_mmu_caches_tlb.md R241, R246). -/
structure MiniDCache where
  lines : List (Nat × DLine)
  rr    : List (Nat × Nat)
deriving DecidableEq, Repr

/-- An entry of the write buffer: the 16-byte block PA[31:4] and the bytes that are valid in it, by offset
(21_mmu_caches_tlb.md R265, R266). The MODEL notes whether the map sent the write to a device (20_memory.md R135; log 9). -/
structure WbEntry where
  block : BitVec 28
  bytes : List (Nat × Byte)
  device : Bool
deriving DecidableEq, Repr

/-- An entry of the branch target buffer: bits [31:9] and [1] of the branch's address, the target, and the history,
0 strongly not taken to 3 strongly taken (21_mmu_caches_tlb.md R272, R273). The MODEL notes the offset field of a
Thumb BL suffix, whose target also depends on R14 (log 40). -/
structure BtbEntry where
  tag     : BitVec 24
  target  : Word
  history : BitVec 2
  suffix  : Option (BitVec 11)
deriving DecidableEq, Repr

/-- The registers of CP15 (10_state.md R52 to R66). -/
structure Cp15 where
  /-- Control: V 13, I 12, Z 11, R 9, S 8, B 7, C 2, A 1, M 0. -/
  control    : Word
  auxControl : Word
  ttb        : Word
  dacr       : Word
  fsr        : Word
  far        : Word
  /-- L of the data cache lock register. -/
  dcacheLock : Bool
  pid        : Word
  ibcr0      : Word
  ibcr1      : Word
  dbr0       : Word
  dbr1       : Word
  dbcon      : Word
  cpar       : Word
deriving DecidableEq, Repr

/-- The performance monitor and clock registers of CP14 (10_state.md R71 to R74). -/
structure Pmu where
  pmnc    : Word
  ccnt    : Word
  pmn0    : Word
  pmn1    : Word
  cclkcfg : BitVec 4
deriving DecidableEq, Repr

/-- The trace buffer: the bytes that are not zero by place in the ring, the place of the oldest byte and of the next
one, the instruction count of the next message, and the bytes written since it was enabled and since the last
checkpoint (none before the first) (48_debug_jtag.md R800 to R809). -/
structure Trace where
  bytes     : List (Nat × Byte)
  pos       : Nat
  count     : BitVec 4
  written   : Nat
  sinceCkpt : Option Nat
deriving DecidableEq, Repr

/-- The debug registers of CP14 and the debug unit's latches (10_state.md R76 to R81, R95; 48_debug_jtag.md). -/
structure Debug where
  tx        : Word
  rx        : Word
  dcsr      : Word
  chkpt0    : Word
  chkpt1    : Word
  txrxctrl  : Word
  /-- Special Debug State (48_debug_jtag.md R766). -/
  sds       : Bool
  /-- The external debug break latch, DBG.BRK (R796), and whether it has been postponed (R795). -/
  extBreak  : Bool
  extHeld   : Bool
  /-- The postponed trace-buffer-full break (R795). -/
  traceFull : Bool
  /-- DBG.HLD_RST (R838). -/
  holdRst   : Bool
  /-- A reset vector trap is due before the first instruction (R764). -/
  resetTrap : Bool
deriving DecidableEq, Repr

/-- The sixteen states of the TAP controller (48_debug_jtag.md R821). -/
inductive TapState where
  | testLogicReset | runTestIdle | selectDr | captureDr | shiftDr | exit1Dr | pauseDr | exit2Dr | updateDr
  | selectIr | captureIr | shiftIr | exit1Ir | pauseIr | exit2Ir | updateIr
deriving DecidableEq, Repr

/-- The test port (48_debug_jtag.md R817 to R837). -/
structure Jtag where
  tap      : TapState
  /-- The instruction in force, and the shift stage of the instruction register (R817). -/
  ir       : BitVec 5
  irShift  : BitVec 5
  /-- The common debug shift register and the debug data register (R822, R837). -/
  dbgSr    : BitVec 36
  dbgReg   : BitVec 35
  /-- TR as the last Capture_DR under dbgtx loaded it (R824). -/
  txCaptured : Bool
  /-- LDIC_SR1, LDIC_REG and LDIC_SR2, for how many more TCKs LDIC_SR2 drains, and the packets of the function in
  progress, oldest first (R826, R828). -/
  ldicSr   : BitVec 33
  ldicReg  : BitVec 33
  ldicSr2  : BitVec 33
  ldicDrain : Nat
  ldicPkts : List (BitVec 33)
  bypass   : Bool
  idShift  : Word
  /-- The cells of the boundary-scan register and their update registers; the spec does not give how many there are
  (R819, R820; log 32). -/
  boundary : List Bool
  boundaryLatch : List Bool
  /-- The level of TDO; none where it is inactive (R815). -/
  tdo      : Option Bool
deriving DecidableEq, Repr

/-- The functions of LDIC (48_debug_jtag.md R827). -/
inductive LdicFunction where
  | invalidateLine | invalidateMini | loadMain | loadMini
deriving DecidableEq, Repr

/-- An event from outside the core, or of its fetch side, which a step performs whole (48_debug_jtag.md R848;
70_reset_and_hazards.md R940; 60_exceptions.md R890; 00_scope.md R18; log 30, 45). -/
inductive HostOp where
  /-- A pulse on nTRST, and a lasting change of its level (48_debug_jtag.md R816; 70_reset_and_hazards.md R943). -/
  | trst
  | trstPin (asserted : Bool)
  | readDcsr
  | writeDcsr (v : Word) (brk hold : Bool)
  | readTx
  | pollRr
  | writeRx (data : Word) (d : Bool)
  | setD (d : Bool)
  | flushRx
  | ldic (f : LdicFunction) (va : Word) (words : List Word) (badParity : BitVec 8)
  | idcode
  /-- One rising edge of TCK with these levels of TMS and TDI (R821). -/
  | tck (tms tdi : Bool)
  /-- The level of the processor reset pin changes. -/
  | resetPin (asserted : Bool)
  /-- The levels of nBATT_FAULT and nVDD_FAULT change: true is low, a fault (48_debug_jtag.md R816). -/
  | faultPins (batt vdd : Bool)
  /-- The levels of the interrupt inputs change. -/
  | lines (irq fiq : Bool)
  /-- The environment's WakeEvent happens (60_exceptions.md R910). -/
  | wake
  /-- Another bus master writes memory from a lane address on (20_memory.md R146). -/
  | masterWrite (pa : Word) (bytes : List Byte)
  /-- What other masters will write, all these in one gap, between two accesses of one instruction: the gap after those
  already listed (20_memory.md R141; log 38). -/
  | masterBetween (writes : List BusWrite)
  /-- The environment supplies what a device answers to its next reads (20_memory.md R135; log 10). -/
  | deviceReply (ws : List Word)
  /-- The fetch side, running ahead of execution, reads at the address that it comes to n instructions after the PC
  (20_memory.md R153; 21_mmu_caches_tlb.md R272; log 19). -/
  | fetchAhead (n : Nat)
  /-- A parity bit of a cached byte or instruction word goes wrong at this MVA (21_mmu_caches_tlb.md R225, R248). -/
  | flipInstrParity (mva : Word)
  | flipDataParity (mva : Word)
deriving DecidableEq, Repr

/-- Whose turn a step is: the core's, or an outside event's (00_scope.md R18; 48_debug_jtag.md R848). -/
inductive Turn where
  | core
  | outside (op : HostOp)
deriving DecidableEq, Repr

/-- What the host reads back from its last operation (48_debug_jtag.md R848). -/
structure HostReply where
  flag  : Bool
  value : Word
deriving DecidableEq, Repr

/-- What the instruction of the current step did to the flow of control; `next` is sequential. -/
inductive Flow where
  | next
  /-- A taken direct branch (48_debug_jtag.md R805). -/
  | direct (target : Word)
  /-- A taken indirect branch. -/
  | indirect (target : Word)
  /-- An exception entry, the debug exceptions among them. -/
  | exception
  /-- The entry that a SWI or BKPT makes: software changed the PC (60_exceptions.md R904, event 0xD). -/
  | trap
deriving DecidableEq, Repr

/-- The MODEL's own note of what the current step has done, cleared when a step begins: the occurrences of the events
of 60_exceptions.md R904, the change of flow, a data breakpoint hit, and whether R13_dbg stays reliable. -/
structure Scratch where
  icacheMiss : Nat
  itlbMiss   : Nat
  dtlbMiss   : Nat
  dAccess    : Nat
  dMiss      : Nat
  writeBack  : Nat
  branch     : Bool
  flow       : Flow
  dataBreak  : Bool
  /-- The instruction loads the PC: if it aborts, the trace does not count it (48_debug_jtag.md R807). -/
  loadsPc    : Bool
  /-- The condition of the instruction failed. -/
  skipped    : Bool
  keepsR13Dbg : Bool
deriving DecidableEq, Repr

/-- The latched imprecise data abort: its FSR code, and at how many more boundaries it is still not seen
(60_exceptions.md R875, R876; log 16). -/
structure PendingAbort where
  code : BitVec 5
  wait : Nat
deriving DecidableEq, Repr

/-- The state of the machine. -/
structure State where
  /-- The 32 general registers of all banks: see Machine/Ops.lean, regIndex (10_state.md R21). -/
  gpr    : Vector Word 32
  /-- SPSR_fiq, _irq, _svc, _abt, _und, _dbg in this order (10_state.md R28). -/
  spsr   : Vector Word 6
  /-- The address of the next instruction to execute (10_state.md R23). -/
  pc     : Word
  cpsr   : Word
  acc0   : BitVec 40
  cp15   : Cp15
  pmu    : Pmu
  dbgUnit : Debug
  trace  : Trace
  jtag   : Jtag
  itlb   : Tlb
  dtlb   : Tlb
  icache : ICache
  miniIc : MiniICache
  /-- At most two, the older first. -/
  fetchBuffers : List FetchBuffer
  dcache : DCache
  miniDc : MiniDCache
  /-- At most eight entries, the oldest first. -/
  writeBuffer : List WbEntry
  btb    : List (Nat × BtbEntry)
  /-- Physical memory: the bytes that differ from Config.unwrittenByte, by rising address (20_memory.md R120). -/
  mem    : List Host.Cell
  /-- The MODEL's note of the bytes that were modified since the instruction cache was last invalidated, by physical
  lane address, with what a fetch read there before (20_memory.md R147; log 62). -/
  modified : List (Nat × Byte)
  physMap : List Region
  /-- The accesses that reached devices, oldest first, and the words that answer their next reads; a read that finds none
  is answered with a free value (20_memory.md R135; log 10). -/
  deviceLog : List DeviceAccess
  deviceReplies : List Word
  /-- What other masters write in the next gaps between two accesses of one instruction of the core, the next gap first;
  past its end nothing (20_memory.md R141; log 38). -/
  between : List (List BusWrite)
  irqLine : Bool
  fiqLine : Bool
  pmuRoute : PmuRoute
  /-- WakeEvent is also true while an interrupt line is high, its parameter's default (60_exceptions.md R910; log 29). -/
  wakeOnLines : Bool
  /-- Bits [3:0] of the ID register (10_state.md R50; log 43). -/
  productRevision : BitVec 4
  pendingAbort : Option PendingAbort
  /-- At how many more boundaries the pending interrupt or external break is still not taken; none while there is none
  (60_exceptions.md R891; 48_debug_jtag.md R796; log 15). -/
  asyncWait : Option Nat
  power  : PowerMode
  /-- The level of the reset pin, and whether the core is held in reset (70_reset_and_hazards.md R940). -/
  resetPin : Bool
  inReset  : Bool
  /-- nBATT_FAULT and nVDD_FAULT are low; nTRST is held low (48_debug_jtag.md R816; log 29, 30). -/
  battFault : Bool
  vddFault  : Bool
  trstPin   : Bool
  /-- Whose turns the next steps are, the next one first; past its end every turn is the core's (log 30). -/
  schedule : List Turn
  hostReply : HostReply
  /-- The number of free values drawn so far (log 11). -/
  freeCtr  : Nat
  /-- The last instruction was a LDM of user registers; the next one must not read a banked register
  (42_load_store.md R471). -/
  bankHazard : Bool
  scratch  : Scratch
deriving DecidableEq, Repr

/-- Why the machine stops where the spec confines the machine to no behaviour because of what it holds, not because
of the instruction's operands. Each is safe: nothing is claimed past it. -/
inductive Fault where
  /-- Raised by the step after an instruction at 0xFFFFFFFC (ARM) or 0xFFFFFFFE (Thumb) that does not branch:
  sequential execution past the top of the address space (10_state.md R23, U21). Safe. -/
  | pcWrap
  /-- Raised by a data access whose bytes run past 0xFFFFFFFF (20_memory.md R121, U23). Safe. -/
  | addressWrap
  /-- Raised by an eviction or a clean whose dirty bytes go to a physical address without memory (U35). Safe. -/
  | writeBackToAbsent
  /-- Raised by the step at an address the branch target buffer knows as another branch (21_mmu_caches_tlb.md R275,
  U33). Safe. -/
  | staleBtb
  /-- Raised by the step whose fetch aborts in Special Debug State, which ignores the abort and leaves open what is
  executed (48_debug_jtag.md R766, U14). Safe. -/
  | fetchAbortInSds
  /-- Raised by an access to a page with X C B = 1 0 0, or to a mini-data-cache page while AuxControl.MD = 11
  (21_mmu_caches_tlb.md R195, U32). Safe. -/
  | reservedAttributes
  /-- Raised by the walker on a first-level descriptor with P = 1 (21_mmu_caches_tlb.md R184, U31). Safe. -/
  | descriptorP
  /-- Raised by a permission check with AP = 00, S = 1, R = 1 (21_mmu_caches_tlb.md R192, U48). Safe. -/
  | reservedPermission
  /-- Raised at an instruction with IBCR0 or IBCR1 enabled while DCSR.GE = 0 (48_debug_jtag.md R775, U15). Safe. -/
  | breakpointWithoutGe
deriving DecidableEq, Repr

/-- Why an instruction is given no meaning on its operands or in its state. Each is safe: nothing is claimed about it. -/
inductive Refusal where
  /-- Raised by exec for an instruction that has no meaning yet; no arm does. Safe. -/
  | notModelled (mnemonic : String)
  /-- Raised by the step for a word whose should-be fields are wrong (30_encoding.md R304, U46). Safe. -/
  | shouldBeFields
  /-- Raised by the step for BKPT with a condition (43_branch_status_system.md R516, U46). Safe. -/
  | bkptCondition
  /-- Raised by a meaning that names R15 where its rule does not allow it (30_encoding.md R305, U36, U43). Safe. -/
  | r15Operand
  /-- Raised by a meaning whose registers overlap as its rule forbids, or whose register list is empty
  (U36, U44, U45). Safe. -/
  | registerOverlap
  /-- Raised by addressing mode 3 with P = 0, W = 1 (30_encoding.md R296, U46). Safe. -/
  | addressingMode
  /-- Raised by a Thumb high-register form with both registers low (46_thumb.md R700, U46). Safe. -/
  | lowRegisters
  /-- Raised by a halfword access to an odd address with alignment checking off (20_memory.md R131, U24). Safe. -/
  | unalignedHalfword
  /-- Raised by a write of the PC with low bits its rule does not allow (43_branch_status_system.md R520, U42). Safe. -/
  | unalignedTarget
  /-- Raised by a use of the SPSR in a mode that has none (10_state.md R28, U22). Safe. -/
  | noSpsr
  /-- Raised by a write of the CPSR with an illegal mode (10_state.md R21, U20). Safe. -/
  | illegalMode
  /-- Raised by MSR that changes the T bit (10_state.md R27, U41). Safe. -/
  | thumbBitChange
  /-- Raised by entering User mode in DEBUG mode or Special Debug State (48_debug_jtag.md R766, U14). Safe. -/
  | userInDebug
  /-- Raised by BKPT, SWI or an undefined instruction in Special Debug State (48_debug_jtag.md R766, U14). Safe. -/
  | exceptionInSds
  /-- Raised by the instructions that must not be executed in DEBUG mode or Special Debug State, and by a store of
  several words that aborts there (48_debug_jtag.md R812, U18). Safe. -/
  | forbiddenInDebug
  /-- Raised by a LDM or STM of user registers in User or System mode, or with write-back (U44). Safe. -/
  | userBankTransfer
  /-- Raised by the step for an instruction that reads a banked register right after a LDM of user registers
  (42_load_store.md R471, U44). Safe. -/
  | bankedRead
  /-- Raised by a coprocessor register transfer whose fields no table lists, or that names a reserved register
  (U4, U5). Safe. -/
  | reservedCoprocessorRegister
  /-- Raised by a read of a write-only function register (U6). Safe. -/
  | writeOnlyRegister
  /-- Raised by LDC or STC with N = 1 or in the unindexed form (U7). Safe. -/
  | coprocessorTransferForm
  /-- Raised by a CP0 encoding other than its eight instructions (U8). Safe. -/
  | cp0Encoding
  /-- Raised by a lock or unlock function while its cache, or the MMU, is disabled, on a line or a translation that is
  resident, or in breach of the requirements on locking code; by a locking fill of the mini-data cache; by a
  line-allocate of an address without a valid descriptor (45_cp15_cp14_operations.md R600, R609, R610, R614;
  21_mmu_caches_tlb.md R214, R229, R260; U9). Safe. -/
  | lockFunction
  /-- Raised by a write of CP15 Control with M = 0 and C = 1 (21_mmu_caches_tlb.md R201, U30). Safe. -/
  | cacheWithoutMmu
  /-- Raised by a write of Auxiliary Control with P = 1 (U31). Safe. -/
  | auxControlP
  /-- Raised by a write of PWRMODE with M = 2 (60_exceptions.md R910, U12). Safe. -/
  | reservedPowerMode
  /-- Raised by an outside event that the debugger must not perform: a private JTAG code, a reserved LDIC function, an
  LDIC load of a line that is already valid, leaving ldic before LDIC_SR2 has drained (U26). Safe. -/
  | hostProtocol
deriving DecidableEq, Repr

/-- The scratch record at the start of a step. -/
def Scratch.clear : Scratch :=
  { icacheMiss := 0, itlbMiss := 0, dtlbMiss := 0, dAccess := 0, dMiss := 0, writeBack := 0,
    branch := false, flow := .next, dataBreak := false, loadsPc := false, skipped := false, keepsR13Dbg := false }

/-- A TLB after reset (70_reset_and_hazards.md R946; log 7). -/
def Tlb.reset : Tlb := { entries := [], rr := 31, lock := 0 }

/-- The machine right after a processor reset and a JTAG reset (10_state.md R100; 70_reset_and_hazards.md R941 to R947).
The values the spec does not give are those of log 1 to log 8, log 24 and log 30. -/
def State.reset : State :=
  { gpr := Vector.replicate 32 0#32
    spsr := Vector.replicate 6 0#32
    pc := 0#32
    cpsr := 0x000000D3#32
    acc0 := 0#40
    cp15 :=
      { control := 0x00000078#32, auxControl := 0#32, ttb := 0#32, dacr := 0#32, fsr := 0#32, far := 0#32,
        dcacheLock := false, pid := 0#32, ibcr0 := 0#32, ibcr1 := 0#32, dbr0 := 0#32, dbr1 := 0#32,
        dbcon := 0#32, cpar := 0#32 }
    pmu := { pmnc := 0#32, ccnt := 0#32, pmn0 := 0#32, pmn1 := 0#32, cclkcfg := 0#4 }
    dbgUnit :=
      { tx := 0#32, rx := 0#32, dcsr := 0#32, chkpt0 := 0#32, chkpt1 := 0#32, txrxctrl := 0#32,
        sds := false, extBreak := false, extHeld := false, traceFull := false, holdRst := false, resetTrap := false }
    trace := { bytes := [], pos := 0, count := 0#4, written := 0, sinceCkpt := none }
    jtag :=
      { tap := .testLogicReset, ir := 0b11110#5, irShift := 0#5, dbgSr := 0#36, dbgReg := 0#35, txCaptured := false,
        ldicSr := 0#33, ldicReg := 0#33, ldicSr2 := 0#33, ldicDrain := 0, ldicPkts := [], bypass := false,
        idShift := 0#32, boundary := [], boundaryLatch := [], tdo := none }
    itlb := Tlb.reset
    dtlb := Tlb.reset
    icache := { lines := [], rr := [], locked := [] }
    miniIc := { lines := [], rr := [] }
    fetchBuffers := []
    dcache := { lines := [], rr := [], locked := [] }
    miniDc := { lines := [], rr := [] }
    writeBuffer := []
    btb := []
    mem := []
    modified := []
    physMap := []
    deviceLog := []
    deviceReplies := []
    between := []
    irqLine := false
    fiqLine := false
    pmuRoute := .none
    wakeOnLines := true
    productRevision := 0#4
    pendingAbort := none
    asyncWait := none
    power := .active
    resetPin := false
    inReset := false
    battFault := false
    vddFault := false
    trstPin := false
    schedule := []
    hostReply := { flag := false, value := 0#32 }
    freeCtr := 0
    bankHazard := false
    scratch := Scratch.clear }

end Sys2Proof.Machine
end

