-- ==== Sys2Proof/WellFormed.lean ====
section
/-!
DEFINITION. Which terms of Instr are instructions (spec/30_encoding.md R281, R284, R302; spec/opcode_table.json).
A term is well formed when its encoding decodes to it: its condition is not the unconditional space's 1111, and a
generic MCR, MRC, MCRR or MRRC is not one of the special rows the table lists beside it.
-/

namespace Sys2Proof

/-- The instruction set an instruction belongs to (10_state.md R27). -/
inductive Isa where
  | arm
  | thumb
deriving DecidableEq, Repr

/-- The instruction set of each row. -/
def Instr.isa : Instr → Isa
  | .and _ _ _ _ _ => .arm
  | .eor _ _ _ _ _ => .arm
  | .sub _ _ _ _ _ => .arm
  | .rsb _ _ _ _ _ => .arm
  | .add _ _ _ _ _ => .arm
  | .adc _ _ _ _ _ => .arm
  | .sbc _ _ _ _ _ => .arm
  | .rsc _ _ _ _ _ => .arm
  | .tst _ _ _ => .arm
  | .teq _ _ _ => .arm
  | .cmp _ _ _ => .arm
  | .cmn _ _ _ => .arm
  | .orr _ _ _ _ _ => .arm
  | .mov _ _ _ _ => .arm
  | .bic _ _ _ _ _ => .arm
  | .mvn _ _ _ _ => .arm
  | .clz _ _ _ => .arm
  | .mul _ _ _ _ _ => .arm
  | .mla _ _ _ _ _ _ => .arm
  | .umull _ _ _ _ _ _ => .arm
  | .umlal _ _ _ _ _ _ => .arm
  | .smull _ _ _ _ _ _ => .arm
  | .smlal _ _ _ _ _ _ => .arm
  | .smulXY _ _ _ _ _ _ => .arm
  | .smulWY _ _ _ _ _ => .arm
  | .smlaXY _ _ _ _ _ _ _ => .arm
  | .smlaWY _ _ _ _ _ _ => .arm
  | .smlalXY _ _ _ _ _ _ _ => .arm
  | .qadd _ _ _ _ => .arm
  | .qsub _ _ _ _ => .arm
  | .qdadd _ _ _ _ => .arm
  | .qdsub _ _ _ _ => .arm
  | .ldr _ _ _ _ => .arm
  | .str _ _ _ _ => .arm
  | .ldrb _ _ _ _ => .arm
  | .strb _ _ _ _ => .arm
  | .ldrt _ _ _ _ => .arm
  | .ldrbt _ _ _ _ => .arm
  | .strt _ _ _ _ => .arm
  | .strbt _ _ _ _ => .arm
  | .strh _ _ _ _ _ _ _ => .arm
  | .ldrh _ _ _ _ _ _ _ => .arm
  | .ldrsb _ _ _ _ _ _ _ => .arm
  | .ldrsh _ _ _ _ _ _ _ => .arm
  | .ldrd _ _ _ _ _ _ _ => .arm
  | .strd _ _ _ _ _ _ _ => .arm
  | .ldm1 _ _ _ _ _ _ => .arm
  | .ldm2 _ _ _ _ _ _ => .arm
  | .ldm3 _ _ _ _ _ _ => .arm
  | .stm1 _ _ _ _ _ _ => .arm
  | .stm2 _ _ _ _ _ _ => .arm
  | .swp _ _ _ _ => .arm
  | .swpb _ _ _ _ => .arm
  | .pldImm _ _ _ => .arm
  | .pldReg _ _ _ _ _ => .arm
  | .b _ _ => .arm
  | .bl _ _ => .arm
  | .blx1 _ _ => .arm
  | .blx2 _ _ => .arm
  | .bx _ _ => .arm
  | .mrs _ _ _ => .arm
  | .msrReg _ _ _ _ => .arm
  | .msrImm _ _ _ _ _ => .arm
  | .swi _ _ => .arm
  | .bkpt _ _ => .arm
  | .cdp _ _ _ _ _ _ _ => .arm
  | .mcr _ _ _ _ _ _ _ => .arm
  | .mrc _ _ _ _ _ _ _ => .arm
  | .ldcOffset _ _ _ _ _ _ _ _ => .arm
  | .ldcPost _ _ _ _ _ _ _ => .arm
  | .ldcUnindexed _ _ _ _ _ _ => .arm
  | .stcOffset _ _ _ _ _ _ _ _ => .arm
  | .stcPost _ _ _ _ _ _ _ => .arm
  | .stcUnindexed _ _ _ _ _ _ => .arm
  | .mcrr _ _ _ _ _ _ => .arm
  | .mrrc _ _ _ _ _ _ => .arm
  | .mia _ _ _ _ => .arm
  | .miaph _ _ _ _ => .arm
  | .miabb _ _ _ _ => .arm
  | .miabt _ _ _ _ => .arm
  | .miatb _ _ _ _ => .arm
  | .miatt _ _ _ _ => .arm
  | .mar _ _ _ _ => .arm
  | .mra _ _ _ _ => .arm
  | .undefMedia _ _ _ => .arm
  | .undefMsrImm _ _ _ => .arm
  | .mrcId _ _ => .arm
  | .mcrId _ _ => .arm
  | .mrcCacheType _ _ => .arm
  | .mcrCacheType _ _ => .arm
  | .mrcControl _ _ => .arm
  | .mcrControl _ _ => .arm
  | .mrcAuxControl _ _ => .arm
  | .mcrAuxControl _ _ => .arm
  | .mrcTtb _ _ => .arm
  | .mcrTtb _ _ => .arm
  | .mrcDacr _ _ => .arm
  | .mcrDacr _ _ => .arm
  | .mrcFsr _ _ => .arm
  | .mcrFsr _ _ => .arm
  | .mrcFar _ _ => .arm
  | .mcrFar _ _ => .arm
  | .mcrInvIDCacheBtb _ _ => .arm
  | .mcrInvICacheBtb _ _ => .arm
  | .mcrInvICacheLine _ _ => .arm
  | .mcrInvDCache _ _ => .arm
  | .mcrInvDCacheLine _ _ => .arm
  | .mcrCleanDCacheLine _ _ => .arm
  | .mcrDrainWriteBuffer _ _ => .arm
  | .mcrInvBtb _ _ => .arm
  | .mcrAllocateDLine _ _ => .arm
  | .mcrInvIDTlb _ _ => .arm
  | .mcrInvITlb _ _ => .arm
  | .mcrInvITlbEntry _ _ => .arm
  | .mcrInvDTlb _ _ => .arm
  | .mcrInvDTlbEntry _ _ => .arm
  | .mcrLockILine _ _ => .arm
  | .mcrUnlockICache _ _ => .arm
  | .mrcDCacheLock _ _ => .arm
  | .mcrDCacheLock _ _ => .arm
  | .mcrUnlockDCache _ _ => .arm
  | .mcrLockITlbEntry _ _ => .arm
  | .mcrLockDTlbEntry _ _ => .arm
  | .mcrUnlockITlb _ _ => .arm
  | .mcrUnlockDTlb _ _ => .arm
  | .mrcPid _ _ => .arm
  | .mcrPid _ _ => .arm
  | .mrcIbcr0 _ _ => .arm
  | .mcrIbcr0 _ _ => .arm
  | .mrcIbcr1 _ _ => .arm
  | .mcrIbcr1 _ _ => .arm
  | .mrcDbr0 _ _ => .arm
  | .mcrDbr0 _ _ => .arm
  | .mrcDbr1 _ _ => .arm
  | .mcrDbr1 _ _ => .arm
  | .mrcDbcon _ _ => .arm
  | .mcrDbcon _ _ => .arm
  | .mrcCpar _ _ => .arm
  | .mcrCpar _ _ => .arm
  | .mrcPmnc _ _ => .arm
  | .mcrPmnc _ _ => .arm
  | .mrcCcnt _ _ => .arm
  | .mcrCcnt _ _ => .arm
  | .mrcPmn0 _ _ => .arm
  | .mcrPmn0 _ _ => .arm
  | .mrcPmn1 _ _ => .arm
  | .mcrPmn1 _ _ => .arm
  | .mrcCclkcfg _ _ => .arm
  | .mcrCclkcfg _ _ => .arm
  | .mrcPwrmode _ _ => .arm
  | .mcrPwrmode _ _ => .arm
  | .mrcTx _ _ => .arm
  | .mcrTx _ _ => .arm
  | .mrcRx _ _ => .arm
  | .mcrRx _ _ => .arm
  | .mrcDcsr _ _ => .arm
  | .mcrDcsr _ _ => .arm
  | .mrcTbreg _ _ => .arm
  | .mcrTbreg _ _ => .arm
  | .mrcChkpt0 _ _ => .arm
  | .mcrChkpt0 _ _ => .arm
  | .mrcChkpt1 _ _ => .arm
  | .mcrChkpt1 _ _ => .arm
  | .mrcTxrxctrl _ _ => .arm
  | .mcrTxrxctrl _ _ => .arm
  | .tLsl1 _ _ _ => .thumb
  | .tLsr1 _ _ _ => .thumb
  | .tAsr1 _ _ _ => .thumb
  | .tAdd3 _ _ _ => .thumb
  | .tSub3 _ _ _ => .thumb
  | .tAdd1 _ _ _ => .thumb
  | .tSub1 _ _ _ => .thumb
  | .tMov1 _ _ => .thumb
  | .tCmp1 _ _ => .thumb
  | .tAdd2 _ _ => .thumb
  | .tSub2 _ _ => .thumb
  | .tAnd _ _ => .thumb
  | .tEor _ _ => .thumb
  | .tLsl2 _ _ => .thumb
  | .tLsr2 _ _ => .thumb
  | .tAsr2 _ _ => .thumb
  | .tAdc _ _ => .thumb
  | .tSbc _ _ => .thumb
  | .tRor _ _ => .thumb
  | .tTst _ _ => .thumb
  | .tNeg _ _ => .thumb
  | .tCmp2 _ _ => .thumb
  | .tCmn _ _ => .thumb
  | .tOrr _ _ => .thumb
  | .tMul _ _ => .thumb
  | .tBic _ _ => .thumb
  | .tMvn _ _ => .thumb
  | .tAdd4 _ _ _ _ => .thumb
  | .tCmp3 _ _ _ _ => .thumb
  | .tMov3 _ _ _ _ => .thumb
  | .tBx _ _ => .thumb
  | .tBlx2 _ _ => .thumb
  | .tLdr3 _ _ => .thumb
  | .tStr2 _ _ _ => .thumb
  | .tStrh2 _ _ _ => .thumb
  | .tStrb2 _ _ _ => .thumb
  | .tLdrsb _ _ _ => .thumb
  | .tLdr2 _ _ _ => .thumb
  | .tLdrh2 _ _ _ => .thumb
  | .tLdrb2 _ _ _ => .thumb
  | .tLdrsh _ _ _ => .thumb
  | .tStr1 _ _ _ => .thumb
  | .tLdr1 _ _ _ => .thumb
  | .tStrb1 _ _ _ => .thumb
  | .tLdrb1 _ _ _ => .thumb
  | .tStrh1 _ _ _ => .thumb
  | .tLdrh1 _ _ _ => .thumb
  | .tStr3 _ _ => .thumb
  | .tLdr4 _ _ => .thumb
  | .tAdd5 _ _ => .thumb
  | .tAdd6 _ _ => .thumb
  | .tAdd7 _ => .thumb
  | .tSub4 _ => .thumb
  | .tPush _ _ => .thumb
  | .tPop _ _ => .thumb
  | .tBkpt _ => .thumb
  | .tUndefB1 _ => .thumb
  | .tUndefB2 _ => .thumb
  | .tUndefB3 _ => .thumb
  | .tUndefB6 _ => .thumb
  | .tUndefB7 _ => .thumb
  | .tUndefB8 _ => .thumb
  | .tUndefBF _ => .thumb
  | .tStmia _ _ => .thumb
  | .tLdmia _ _ => .thumb
  | .tB1Low _ _ => .thumb
  | .tB1Mid _ _ => .thumb
  | .tB1High _ _ => .thumb
  | .tUndefDE _ => .thumb
  | .tSwi _ => .thumb
  | .tB2 _ => .thumb
  | .tBlxSuffix _ => .thumb
  | .tUndefE801 _ => .thumb
  | .tBlPrefix _ => .thumb
  | .tBlSuffix _ => .thumb

/-- The condition field of a row that has one (30_encoding.md R281). -/
def Instr.cond? : Instr → Option (BitVec 4)
  | .and c _ _ _ _ => some c
  | .eor c _ _ _ _ => some c
  | .sub c _ _ _ _ => some c
  | .rsb c _ _ _ _ => some c
  | .add c _ _ _ _ => some c
  | .adc c _ _ _ _ => some c
  | .sbc c _ _ _ _ => some c
  | .rsc c _ _ _ _ => some c
  | .tst c _ _ => some c
  | .teq c _ _ => some c
  | .cmp c _ _ => some c
  | .cmn c _ _ => some c
  | .orr c _ _ _ _ => some c
  | .mov c _ _ _ => some c
  | .bic c _ _ _ _ => some c
  | .mvn c _ _ _ => some c
  | .clz c _ _ => some c
  | .mul c _ _ _ _ => some c
  | .mla c _ _ _ _ _ => some c
  | .umull c _ _ _ _ _ => some c
  | .umlal c _ _ _ _ _ => some c
  | .smull c _ _ _ _ _ => some c
  | .smlal c _ _ _ _ _ => some c
  | .smulXY c _ _ _ _ _ => some c
  | .smulWY c _ _ _ _ => some c
  | .smlaXY c _ _ _ _ _ _ => some c
  | .smlaWY c _ _ _ _ _ => some c
  | .smlalXY c _ _ _ _ _ _ => some c
  | .qadd c _ _ _ => some c
  | .qsub c _ _ _ => some c
  | .qdadd c _ _ _ => some c
  | .qdsub c _ _ _ => some c
  | .ldr c _ _ _ => some c
  | .str c _ _ _ => some c
  | .ldrb c _ _ _ => some c
  | .strb c _ _ _ => some c
  | .ldrt c _ _ _ => some c
  | .ldrbt c _ _ _ => some c
  | .strt c _ _ _ => some c
  | .strbt c _ _ _ => some c
  | .strh c _ _ _ _ _ _ => some c
  | .ldrh c _ _ _ _ _ _ => some c
  | .ldrsb c _ _ _ _ _ _ => some c
  | .ldrsh c _ _ _ _ _ _ => some c
  | .ldrd c _ _ _ _ _ _ => some c
  | .strd c _ _ _ _ _ _ => some c
  | .ldm1 c _ _ _ _ _ => some c
  | .ldm2 c _ _ _ _ _ => some c
  | .ldm3 c _ _ _ _ _ => some c
  | .stm1 c _ _ _ _ _ => some c
  | .stm2 c _ _ _ _ _ => some c
  | .swp c _ _ _ => some c
  | .swpb c _ _ _ => some c
  | .pldImm _ _ _ => none
  | .pldReg _ _ _ _ _ => none
  | .b c _ => some c
  | .bl c _ => some c
  | .blx1 _ _ => none
  | .blx2 c _ => some c
  | .bx c _ => some c
  | .mrs c _ _ => some c
  | .msrReg c _ _ _ => some c
  | .msrImm c _ _ _ _ => some c
  | .swi c _ => some c
  | .bkpt _ _ => none
  | .cdp c _ _ _ _ _ _ => some c
  | .mcr c _ _ _ _ _ _ => some c
  | .mrc c _ _ _ _ _ _ => some c
  | .ldcOffset c _ _ _ _ _ _ _ => some c
  | .ldcPost c _ _ _ _ _ _ => some c
  | .ldcUnindexed c _ _ _ _ _ => some c
  | .stcOffset c _ _ _ _ _ _ _ => some c
  | .stcPost c _ _ _ _ _ _ => some c
  | .stcUnindexed c _ _ _ _ _ => some c
  | .mcrr c _ _ _ _ _ => some c
  | .mrrc c _ _ _ _ _ => some c
  | .mia c _ _ _ => some c
  | .miaph c _ _ _ => some c
  | .miabb c _ _ _ => some c
  | .miabt c _ _ _ => some c
  | .miatb c _ _ _ => some c
  | .miatt c _ _ _ => some c
  | .mar c _ _ _ => some c
  | .mra c _ _ _ => some c
  | .undefMedia c _ _ => some c
  | .undefMsrImm c _ _ => some c
  | .mrcId c _ => some c
  | .mcrId c _ => some c
  | .mrcCacheType c _ => some c
  | .mcrCacheType c _ => some c
  | .mrcControl c _ => some c
  | .mcrControl c _ => some c
  | .mrcAuxControl c _ => some c
  | .mcrAuxControl c _ => some c
  | .mrcTtb c _ => some c
  | .mcrTtb c _ => some c
  | .mrcDacr c _ => some c
  | .mcrDacr c _ => some c
  | .mrcFsr c _ => some c
  | .mcrFsr c _ => some c
  | .mrcFar c _ => some c
  | .mcrFar c _ => some c
  | .mcrInvIDCacheBtb c _ => some c
  | .mcrInvICacheBtb c _ => some c
  | .mcrInvICacheLine c _ => some c
  | .mcrInvDCache c _ => some c
  | .mcrInvDCacheLine c _ => some c
  | .mcrCleanDCacheLine c _ => some c
  | .mcrDrainWriteBuffer c _ => some c
  | .mcrInvBtb c _ => some c
  | .mcrAllocateDLine c _ => some c
  | .mcrInvIDTlb c _ => some c
  | .mcrInvITlb c _ => some c
  | .mcrInvITlbEntry c _ => some c
  | .mcrInvDTlb c _ => some c
  | .mcrInvDTlbEntry c _ => some c
  | .mcrLockILine c _ => some c
  | .mcrUnlockICache c _ => some c
  | .mrcDCacheLock c _ => some c
  | .mcrDCacheLock c _ => some c
  | .mcrUnlockDCache c _ => some c
  | .mcrLockITlbEntry c _ => some c
  | .mcrLockDTlbEntry c _ => some c
  | .mcrUnlockITlb c _ => some c
  | .mcrUnlockDTlb c _ => some c
  | .mrcPid c _ => some c
  | .mcrPid c _ => some c
  | .mrcIbcr0 c _ => some c
  | .mcrIbcr0 c _ => some c
  | .mrcIbcr1 c _ => some c
  | .mcrIbcr1 c _ => some c
  | .mrcDbr0 c _ => some c
  | .mcrDbr0 c _ => some c
  | .mrcDbr1 c _ => some c
  | .mcrDbr1 c _ => some c
  | .mrcDbcon c _ => some c
  | .mcrDbcon c _ => some c
  | .mrcCpar c _ => some c
  | .mcrCpar c _ => some c
  | .mrcPmnc c _ => some c
  | .mcrPmnc c _ => some c
  | .mrcCcnt c _ => some c
  | .mcrCcnt c _ => some c
  | .mrcPmn0 c _ => some c
  | .mcrPmn0 c _ => some c
  | .mrcPmn1 c _ => some c
  | .mcrPmn1 c _ => some c
  | .mrcCclkcfg c _ => some c
  | .mcrCclkcfg c _ => some c
  | .mrcPwrmode c _ => some c
  | .mcrPwrmode c _ => some c
  | .mrcTx c _ => some c
  | .mcrTx c _ => some c
  | .mrcRx c _ => some c
  | .mcrRx c _ => some c
  | .mrcDcsr c _ => some c
  | .mcrDcsr c _ => some c
  | .mrcTbreg c _ => some c
  | .mcrTbreg c _ => some c
  | .mrcChkpt0 c _ => some c
  | .mcrChkpt0 c _ => some c
  | .mrcChkpt1 c _ => some c
  | .mcrChkpt1 c _ => some c
  | .mrcTxrxctrl c _ => some c
  | .mcrTxrxctrl c _ => some c
  | .tLsl1 _ _ _ => none
  | .tLsr1 _ _ _ => none
  | .tAsr1 _ _ _ => none
  | .tAdd3 _ _ _ => none
  | .tSub3 _ _ _ => none
  | .tAdd1 _ _ _ => none
  | .tSub1 _ _ _ => none
  | .tMov1 _ _ => none
  | .tCmp1 _ _ => none
  | .tAdd2 _ _ => none
  | .tSub2 _ _ => none
  | .tAnd _ _ => none
  | .tEor _ _ => none
  | .tLsl2 _ _ => none
  | .tLsr2 _ _ => none
  | .tAsr2 _ _ => none
  | .tAdc _ _ => none
  | .tSbc _ _ => none
  | .tRor _ _ => none
  | .tTst _ _ => none
  | .tNeg _ _ => none
  | .tCmp2 _ _ => none
  | .tCmn _ _ => none
  | .tOrr _ _ => none
  | .tMul _ _ => none
  | .tBic _ _ => none
  | .tMvn _ _ => none
  | .tAdd4 _ _ _ _ => none
  | .tCmp3 _ _ _ _ => none
  | .tMov3 _ _ _ _ => none
  | .tBx _ _ => none
  | .tBlx2 _ _ => none
  | .tLdr3 _ _ => none
  | .tStr2 _ _ _ => none
  | .tStrh2 _ _ _ => none
  | .tStrb2 _ _ _ => none
  | .tLdrsb _ _ _ => none
  | .tLdr2 _ _ _ => none
  | .tLdrh2 _ _ _ => none
  | .tLdrb2 _ _ _ => none
  | .tLdrsh _ _ _ => none
  | .tStr1 _ _ _ => none
  | .tLdr1 _ _ _ => none
  | .tStrb1 _ _ _ => none
  | .tLdrb1 _ _ _ => none
  | .tStrh1 _ _ _ => none
  | .tLdrh1 _ _ _ => none
  | .tStr3 _ _ => none
  | .tLdr4 _ _ => none
  | .tAdd5 _ _ => none
  | .tAdd6 _ _ => none
  | .tAdd7 _ => none
  | .tSub4 _ => none
  | .tPush _ _ => none
  | .tPop _ _ => none
  | .tBkpt _ => none
  | .tUndefB1 _ => none
  | .tUndefB2 _ => none
  | .tUndefB3 _ => none
  | .tUndefB6 _ => none
  | .tUndefB7 _ => none
  | .tUndefB8 _ => none
  | .tUndefBF _ => none
  | .tStmia _ _ => none
  | .tLdmia _ _ => none
  | .tB1Low _ _ => none
  | .tB1Mid _ _ => none
  | .tB1High _ _ => none
  | .tUndefDE _ => none
  | .tSwi _ => none
  | .tB2 _ => none
  | .tBlxSuffix _ => none
  | .tUndefE801 _ => none
  | .tBlPrefix _ => none
  | .tBlSuffix _ => none

/-- The (CRn, CRm, opcode_2) of every CP15 register read that has a row of its own. -/
def listedMrcCp15 : List (Nat × Nat × Nat) :=
  [(0, 0, 0), (0, 0, 1), (1, 0, 0), (1, 0, 1), (2, 0, 0), (3, 0, 0), (5, 0, 0), (6, 0, 0), (9, 2, 0), (13, 0,
   0), (14, 8, 0), (14, 9, 0), (14, 0, 0), (14, 3, 0), (14, 4, 0), (15, 1, 0)]

/-- The (CRn, CRm, opcode_2) of every CP15 register write or function that has a row of its own. -/
def listedMcrCp15 : List (Nat × Nat × Nat) :=
  [(0, 0, 0), (0, 0, 1), (1, 0, 0), (1, 0, 1), (2, 0, 0), (3, 0, 0), (5, 0, 0), (6, 0, 0), (7, 7, 0), (7, 5,
   0), (7, 5, 1), (7, 6, 0), (7, 6, 1), (7, 10, 1), (7, 10, 4), (7, 5, 6), (7, 2, 5), (8, 7, 0), (8, 5, 0),
   (8, 5, 1), (8, 6, 0), (8, 6, 1), (9, 1, 0), (9, 1, 1), (9, 2, 0), (9, 2, 1), (10, 4, 0), (10, 8, 0), (10,
   4, 1), (10, 8, 1), (13, 0, 0), (14, 8, 0), (14, 9, 0), (14, 0, 0), (14, 3, 0), (14, 4, 0), (15, 1, 0)]

/-- The CRn of every CP14 register that has rows of its own (CRm = 0, opcode_2 = 0). -/
def listedCp14 : List Nat := [0, 1, 2, 3, 6, 7, 8, 9, 10, 11, 12, 13, 14]

/-- The opcode_3 values of the MIA family (44_coprocessor.md R549). -/
def miaOpcodes : List Nat := [0, 8, 12, 13, 14, 15]

/-- Whether a register transfer is a row more special than MCR (load = false) or MRC (load = true). -/
def isSpecialTransfer (load : Bool) (op1 : BitVec 3) (crn cp : BitVec 4) (op2 : BitVec 3) (crm : BitVec 4) : Bool :=
  if cp = 15#4 then
    op1 == 0#3 && (if load then listedMrcCp15 else listedMcrCp15).contains (crn.toNat, crm.toNat, op2.toNat)
  else if cp = 14#4 then op1 == 0#3 && crm == 0#4 && op2 == 0#3 && listedCp14.contains crn.toNat
  else cp == 0#4 && op1 == 1#3 && !load && miaOpcodes.contains crn.toNat

/-- Whether a two-register transfer is MAR or MRA (30_encoding.md R301, Table 2-5). -/
def isAccumulatorTransfer (cp opc crm : BitVec 4) : Bool := cp == 0#4 && opc == 0#4 && !crm.getLsbD 3

/-- Whether the term is an instruction: see the head of this file. -/
def Instr.wf (i : Instr) : Bool :=
  (match i.cond? with | some c => c != 15#4 | none => true) &&
  (match i with
   | .mcr _ op1 crn _ cp op2 crm => !isSpecialTransfer false op1 crn cp op2 crm
   | .mrc _ op1 crn _ cp op2 crm => !isSpecialTransfer true op1 crn cp op2 crm
   | .mcrr _ _ _ cp opc crm => !isAccumulatorTransfer cp opc crm
   | .mrrc _ _ _ cp opc crm => !isAccumulatorTransfer cp opc crm
   | _ => true)

end Sys2Proof
end

