-- ==== Sys2Proof/Decode.lean ====
section
/-!
DEFINITION. The decoder and the encoder (spec/30_encoding.md R281 to R304, spec/46_thumb.md R660 to R750,
spec/opcode_table.json). The decoder is total: every word is an instruction, or is rejected by name. The encoder is
written from the rows of the table, one line per row, and not from the decoder.

A field is cut out of the word as a number: `bits w lo len` are the bits lo+len-1..lo, `flag w i` is bit i.
-/

namespace Sys2Proof

/-- Why a word is no instruction of the table. -/
inductive Reject where
  /-- A should-be-zero or should-be-one field holds another value: UNPREDICTABLE (30_encoding.md R304, U46). -/
  | shouldBe
  /-- BKPT with a condition other than always: UNPREDICTABLE (30_encoding.md R292, U46). -/
  | bkptCondition
  /-- No row of the table matches: the word raises Undefined Instruction (92_eei_decisions.md D19). -/
  | unallocated
deriving DecidableEq, Repr

/-- What the decoder reads from a word. -/
inductive Decoded where
  | instr (i : Instr)
  | reject (r : Reject)
deriving DecidableEq, Repr

/-- The bits lo+len-1..lo of w. -/
def bits (w lo len : Nat) : BitVec len := BitVec.ofNat len (w >>> lo)

/-- Bit i of w. -/
def flag (w i : Nat) : Bool := w.testBit i

/-- An instruction whose should-be fields must hold (30_encoding.md R304). -/
def shouldBe (ok : Bool) (i : Instr) : Decoded := if ok then .instr i else .reject .shouldBe

/-- Data processing, rotated immediate (R285, R287). -/
def decodeDpImm (c : BitVec 4) (w : Nat) : Decoded :=
  match bits w 21 4 with
  | 0b0000#4 => .instr (.and c (flag w 20) (bits w 16 4) (bits w 12 4) (.imm (bits w 8 4) (bits w 0 8)))
  | 0b0001#4 => .instr (.eor c (flag w 20) (bits w 16 4) (bits w 12 4) (.imm (bits w 8 4) (bits w 0 8)))
  | 0b0010#4 => .instr (.sub c (flag w 20) (bits w 16 4) (bits w 12 4) (.imm (bits w 8 4) (bits w 0 8)))
  | 0b0011#4 => .instr (.rsb c (flag w 20) (bits w 16 4) (bits w 12 4) (.imm (bits w 8 4) (bits w 0 8)))
  | 0b0100#4 => .instr (.add c (flag w 20) (bits w 16 4) (bits w 12 4) (.imm (bits w 8 4) (bits w 0 8)))
  | 0b0101#4 => .instr (.adc c (flag w 20) (bits w 16 4) (bits w 12 4) (.imm (bits w 8 4) (bits w 0 8)))
  | 0b0110#4 => .instr (.sbc c (flag w 20) (bits w 16 4) (bits w 12 4) (.imm (bits w 8 4) (bits w 0 8)))
  | 0b0111#4 => .instr (.rsc c (flag w 20) (bits w 16 4) (bits w 12 4) (.imm (bits w 8 4) (bits w 0 8)))
  | 0b1000#4 => shouldBe (bits w 12 4 == 0#4) (.tst c (bits w 16 4) (.imm (bits w 8 4) (bits w 0 8)))
  | 0b1001#4 => shouldBe (bits w 12 4 == 0#4) (.teq c (bits w 16 4) (.imm (bits w 8 4) (bits w 0 8)))
  | 0b1010#4 => shouldBe (bits w 12 4 == 0#4) (.cmp c (bits w 16 4) (.imm (bits w 8 4) (bits w 0 8)))
  | 0b1011#4 => shouldBe (bits w 12 4 == 0#4) (.cmn c (bits w 16 4) (.imm (bits w 8 4) (bits w 0 8)))
  | 0b1100#4 => .instr (.orr c (flag w 20) (bits w 16 4) (bits w 12 4) (.imm (bits w 8 4) (bits w 0 8)))
  | 0b1101#4 => shouldBe (bits w 16 4 == 0#4) (.mov c (flag w 20) (bits w 12 4) (.imm (bits w 8 4) (bits w 0 8)))
  | 0b1110#4 => .instr (.bic c (flag w 20) (bits w 16 4) (bits w 12 4) (.imm (bits w 8 4) (bits w 0 8)))
  | _ => shouldBe (bits w 16 4 == 0#4) (.mvn c (flag w 20) (bits w 12 4) (.imm (bits w 8 4) (bits w 0 8)))

/-- Data processing, register shifted by immediate (R285, R288). -/
def decodeDpShift (c : BitVec 4) (w : Nat) : Decoded :=
  match bits w 21 4 with
  | 0b0000#4 => .instr (.and c (flag w 20) (bits w 16 4) (bits w 12 4) (.shift (bits w 7 5) (bits w 5 2) (bits w 0 4)))
  | 0b0001#4 => .instr (.eor c (flag w 20) (bits w 16 4) (bits w 12 4) (.shift (bits w 7 5) (bits w 5 2) (bits w 0 4)))
  | 0b0010#4 => .instr (.sub c (flag w 20) (bits w 16 4) (bits w 12 4) (.shift (bits w 7 5) (bits w 5 2) (bits w 0 4)))
  | 0b0011#4 => .instr (.rsb c (flag w 20) (bits w 16 4) (bits w 12 4) (.shift (bits w 7 5) (bits w 5 2) (bits w 0 4)))
  | 0b0100#4 => .instr (.add c (flag w 20) (bits w 16 4) (bits w 12 4) (.shift (bits w 7 5) (bits w 5 2) (bits w 0 4)))
  | 0b0101#4 => .instr (.adc c (flag w 20) (bits w 16 4) (bits w 12 4) (.shift (bits w 7 5) (bits w 5 2) (bits w 0 4)))
  | 0b0110#4 => .instr (.sbc c (flag w 20) (bits w 16 4) (bits w 12 4) (.shift (bits w 7 5) (bits w 5 2) (bits w 0 4)))
  | 0b0111#4 => .instr (.rsc c (flag w 20) (bits w 16 4) (bits w 12 4) (.shift (bits w 7 5) (bits w 5 2) (bits w 0 4)))
  | 0b1000#4 => shouldBe (bits w 12 4 == 0#4) (.tst c (bits w 16 4) (.shift (bits w 7 5) (bits w 5 2) (bits w 0 4)))
  | 0b1001#4 => shouldBe (bits w 12 4 == 0#4) (.teq c (bits w 16 4) (.shift (bits w 7 5) (bits w 5 2) (bits w 0 4)))
  | 0b1010#4 => shouldBe (bits w 12 4 == 0#4) (.cmp c (bits w 16 4) (.shift (bits w 7 5) (bits w 5 2) (bits w 0 4)))
  | 0b1011#4 => shouldBe (bits w 12 4 == 0#4) (.cmn c (bits w 16 4) (.shift (bits w 7 5) (bits w 5 2) (bits w 0 4)))
  | 0b1100#4 => .instr (.orr c (flag w 20) (bits w 16 4) (bits w 12 4) (.shift (bits w 7 5) (bits w 5 2) (bits w 0 4)))
  | 0b1101#4 => shouldBe (bits w 16 4 == 0#4) (.mov c (flag w 20) (bits w 12 4) (.shift (bits w 7 5) (bits w 5 2) (bits w 0 4)))
  | 0b1110#4 => .instr (.bic c (flag w 20) (bits w 16 4) (bits w 12 4) (.shift (bits w 7 5) (bits w 5 2) (bits w 0 4)))
  | _ => shouldBe (bits w 16 4 == 0#4) (.mvn c (flag w 20) (bits w 12 4) (.shift (bits w 7 5) (bits w 5 2) (bits w 0 4)))

/-- Data processing, register shifted by register (R285, R289). -/
def decodeDpReg (c : BitVec 4) (w : Nat) : Decoded :=
  match bits w 21 4 with
  | 0b0000#4 => .instr (.and c (flag w 20) (bits w 16 4) (bits w 12 4) (.reg (bits w 8 4) (bits w 5 2) (bits w 0 4)))
  | 0b0001#4 => .instr (.eor c (flag w 20) (bits w 16 4) (bits w 12 4) (.reg (bits w 8 4) (bits w 5 2) (bits w 0 4)))
  | 0b0010#4 => .instr (.sub c (flag w 20) (bits w 16 4) (bits w 12 4) (.reg (bits w 8 4) (bits w 5 2) (bits w 0 4)))
  | 0b0011#4 => .instr (.rsb c (flag w 20) (bits w 16 4) (bits w 12 4) (.reg (bits w 8 4) (bits w 5 2) (bits w 0 4)))
  | 0b0100#4 => .instr (.add c (flag w 20) (bits w 16 4) (bits w 12 4) (.reg (bits w 8 4) (bits w 5 2) (bits w 0 4)))
  | 0b0101#4 => .instr (.adc c (flag w 20) (bits w 16 4) (bits w 12 4) (.reg (bits w 8 4) (bits w 5 2) (bits w 0 4)))
  | 0b0110#4 => .instr (.sbc c (flag w 20) (bits w 16 4) (bits w 12 4) (.reg (bits w 8 4) (bits w 5 2) (bits w 0 4)))
  | 0b0111#4 => .instr (.rsc c (flag w 20) (bits w 16 4) (bits w 12 4) (.reg (bits w 8 4) (bits w 5 2) (bits w 0 4)))
  | 0b1000#4 => shouldBe (bits w 12 4 == 0#4) (.tst c (bits w 16 4) (.reg (bits w 8 4) (bits w 5 2) (bits w 0 4)))
  | 0b1001#4 => shouldBe (bits w 12 4 == 0#4) (.teq c (bits w 16 4) (.reg (bits w 8 4) (bits w 5 2) (bits w 0 4)))
  | 0b1010#4 => shouldBe (bits w 12 4 == 0#4) (.cmp c (bits w 16 4) (.reg (bits w 8 4) (bits w 5 2) (bits w 0 4)))
  | 0b1011#4 => shouldBe (bits w 12 4 == 0#4) (.cmn c (bits w 16 4) (.reg (bits w 8 4) (bits w 5 2) (bits w 0 4)))
  | 0b1100#4 => .instr (.orr c (flag w 20) (bits w 16 4) (bits w 12 4) (.reg (bits w 8 4) (bits w 5 2) (bits w 0 4)))
  | 0b1101#4 => shouldBe (bits w 16 4 == 0#4) (.mov c (flag w 20) (bits w 12 4) (.reg (bits w 8 4) (bits w 5 2) (bits w 0 4)))
  | 0b1110#4 => .instr (.bic c (flag w 20) (bits w 16 4) (bits w 12 4) (.reg (bits w 8 4) (bits w 5 2) (bits w 0 4)))
  | _ => shouldBe (bits w 16 4 == 0#4) (.mvn c (flag w 20) (bits w 12 4) (.reg (bits w 8 4) (bits w 5 2) (bits w 0 4)))

/-- The miscellaneous space with bits [7] and [4] not the DSP pattern: bits [27:23] = 00010, [20] = 0 (R292). -/
def decodeMisc (c : BitVec 4) (w : Nat) : Decoded :=
  match bits w 4 4 with
  | 0b0000#4 =>
    if flag w 21 then
      shouldBe (bits w 12 4 == 15#4 && bits w 8 4 == 0#4) (.msrReg c (flag w 22) (bits w 16 4) (bits w 0 4))
    else
      shouldBe (bits w 16 4 == 15#4 && bits w 8 4 == 0#4 && bits w 0 4 == 0#4) (.mrs c (flag w 22) (bits w 12 4))
  | 0b0001#4 =>
    if !flag w 21 then .reject .unallocated
    else if flag w 22 then
      shouldBe (bits w 16 4 == 15#4 && bits w 8 4 == 15#4) (.clz c (bits w 12 4) (bits w 0 4))
    else
      shouldBe (bits w 16 4 == 15#4 && bits w 12 4 == 15#4 && bits w 8 4 == 15#4) (.bx c (bits w 0 4))
  | 0b0011#4 =>
    if flag w 21 && !flag w 22 then
      shouldBe (bits w 16 4 == 15#4 && bits w 12 4 == 15#4 && bits w 8 4 == 15#4) (.blx2 c (bits w 0 4))
    else .reject .unallocated
  | 0b0101#4 =>
    let ok := bits w 8 4 == 0#4
    let rn := bits w 16 4
    let rd := bits w 12 4
    let rm := bits w 0 4
    if flag w 22 then (if flag w 21 then shouldBe ok (.qdsub c rn rd rm) else shouldBe ok (.qdadd c rn rd rm))
    else (if flag w 21 then shouldBe ok (.qsub c rn rd rm) else shouldBe ok (.qadd c rn rd rm))
  | 0b0111#4 =>
    if flag w 21 && !flag w 22 then
      (if c == 14#4 then .instr (.bkpt (bits w 8 12) (bits w 0 4)) else .reject .bkptCondition)
    else .reject .unallocated
  | _ => .reject .unallocated

/-- The DSP multiplies: bits [27:23] = 00010, [20] = 0, [7] = 1, [4] = 0 (R292). -/
def decodeDsp (c : BitVec 4) (w : Nat) : Decoded :=
  let y := flag w 6
  let x := flag w 5
  let hi := bits w 16 4
  let lo := bits w 12 4
  let rs := bits w 8 4
  let rm := bits w 0 4
  if flag w 22 then
    (if flag w 21 then shouldBe (lo == 0#4) (.smulXY c hi rs y x rm) else .instr (.smlalXY c hi lo rs y x rm))
  else if flag w 21 then
    (if x then shouldBe (lo == 0#4) (.smulWY c hi rs y rm) else .instr (.smlaWY c hi lo rs y rm))
  else .instr (.smlaXY c hi lo rs y x rm)

/-- Multiplies and swaps: bits [27:25] = 000, [7:4] = 1001 (R293). -/
def decodeMul (c : BitVec 4) (w : Nat) : Decoded :=
  let s := flag w 20
  let hi := bits w 16 4
  let lo := bits w 12 4
  let rs := bits w 8 4
  let rm := bits w 0 4
  match bits w 21 4 with
  | 0b0000#4 => shouldBe (lo == 0#4) (.mul c s hi rs rm)
  | 0b0001#4 => .instr (.mla c s hi lo rs rm)
  | 0b0100#4 => .instr (.umull c s hi lo rs rm)
  | 0b0101#4 => .instr (.umlal c s hi lo rs rm)
  | 0b0110#4 => .instr (.smull c s hi lo rs rm)
  | 0b0111#4 => .instr (.smlal c s hi lo rs rm)
  | 0b1000#4 => if s then .reject .unallocated else shouldBe (rs == 0#4) (.swp c hi lo rm)
  | 0b1010#4 => if s then .reject .unallocated else shouldBe (rs == 0#4) (.swpb c hi lo rm)
  | _ => .reject .unallocated

/-- Halfword, signed byte and doubleword transfers: bits [27:25] = 000, [7] = [4] = 1, [6:5] not 00 (R297). -/
def decodeExtra (c : BitVec 4) (w : Nat) : Decoded :=
  let p := flag w 24
  let u := flag w 23
  let wb := flag w 21
  let rn := bits w 16 4
  let rd := bits w 12 4
  let hi := bits w 8 4
  let lo := bits w 0 4
  if flag w 22 then
    (if flag w 20 then
      (if flag w 6 then
        (if flag w 5 then .instr (.ldrsh c p u wb rn rd (.imm hi lo)) else .instr (.ldrsb c p u wb rn rd (.imm hi lo)))
      else .instr (.ldrh c p u wb rn rd (.imm hi lo)))
    else
      (if flag w 6 then
        (if flag w 5 then .instr (.strd c p u wb rn rd (.imm hi lo)) else .instr (.ldrd c p u wb rn rd (.imm hi lo)))
      else .instr (.strh c p u wb rn rd (.imm hi lo))))
  else
    let ok := hi == 0#4
    (if flag w 20 then
      (if flag w 6 then
        (if flag w 5 then shouldBe ok (.ldrsh c p u wb rn rd (.reg lo)) else shouldBe ok (.ldrsb c p u wb rn rd (.reg lo)))
      else shouldBe ok (.ldrh c p u wb rn rd (.reg lo)))
    else
      (if flag w 6 then
        (if flag w 5 then shouldBe ok (.strd c p u wb rn rd (.reg lo)) else shouldBe ok (.ldrd c p u wb rn rd (.reg lo)))
      else shouldBe ok (.strh c p u wb rn rd (.reg lo))))

/-- Bits [27:25] = 000 (R284 rows 1 to 6). -/
def decode000 (c : BitVec 4) (w : Nat) : Decoded :=
  if flag w 7 && flag w 4 then
    (if flag w 6 || flag w 5 then decodeExtra c w else decodeMul c w)
  else if flag w 24 && !flag w 23 && !flag w 20 then
    (if flag w 7 then decodeDsp c w else decodeMisc c w)
  else if flag w 4 then decodeDpReg c w
  else decodeDpShift c w

/-- Bits [27:25] = 001 (R284 rows 7 to 9). -/
def decode001 (c : BitVec 4) (w : Nat) : Decoded :=
  if flag w 24 && !flag w 23 && !flag w 20 then
    (if flag w 21 then
      shouldBe (bits w 12 4 == 15#4) (.msrImm c (flag w 22) (bits w 16 4) (bits w 8 4) (bits w 0 8))
    else .instr (.undefMsrImm c (flag w 22) (bits w 0 20)))
  else decodeDpImm c w

/-- Load/store word or byte, immediate offset (R295, R296). -/
def decodeLdStImm (c : BitVec 4) (w : Nat) : Decoded :=
  let u := flag w 23
  let wb := flag w 21
  let rn := bits w 16 4
  let rd := bits w 12 4
  if flag w 24 then
    (if flag w 20 then (if flag w 22 then .instr (.ldrb c rn rd (.imm u wb (bits w 0 12))) else .instr (.ldr c rn rd (.imm u wb (bits w 0 12))))
    else (if flag w 22 then .instr (.strb c rn rd (.imm u wb (bits w 0 12))) else .instr (.str c rn rd (.imm u wb (bits w 0 12)))))
  else if wb then
    (if flag w 20 then (if flag w 22 then .instr (.ldrbt c rn rd (.imm u (bits w 0 12))) else .instr (.ldrt c rn rd (.imm u (bits w 0 12))))
    else (if flag w 22 then .instr (.strbt c rn rd (.imm u (bits w 0 12))) else .instr (.strt c rn rd (.imm u (bits w 0 12)))))
  else
    (if flag w 20 then (if flag w 22 then .instr (.ldrb c rn rd (.immPost u (bits w 0 12))) else .instr (.ldr c rn rd (.immPost u (bits w 0 12))))
    else (if flag w 22 then .instr (.strb c rn rd (.immPost u (bits w 0 12))) else .instr (.str c rn rd (.immPost u (bits w 0 12)))))

/-- Load/store word or byte, scaled register offset (R295, R296). -/
def decodeLdStReg (c : BitVec 4) (w : Nat) : Decoded :=
  let u := flag w 23
  let wb := flag w 21
  let rn := bits w 16 4
  let rd := bits w 12 4
  if flag w 24 then
    (if flag w 20 then (if flag w 22 then .instr (.ldrb c rn rd (.reg u wb (bits w 7 5) (bits w 5 2) (bits w 0 4))) else .instr (.ldr c rn rd (.reg u wb (bits w 7 5) (bits w 5 2) (bits w 0 4))))
    else (if flag w 22 then .instr (.strb c rn rd (.reg u wb (bits w 7 5) (bits w 5 2) (bits w 0 4))) else .instr (.str c rn rd (.reg u wb (bits w 7 5) (bits w 5 2) (bits w 0 4)))))
  else if wb then
    (if flag w 20 then (if flag w 22 then .instr (.ldrbt c rn rd (.reg u (bits w 7 5) (bits w 5 2) (bits w 0 4))) else .instr (.ldrt c rn rd (.reg u (bits w 7 5) (bits w 5 2) (bits w 0 4))))
    else (if flag w 22 then .instr (.strbt c rn rd (.reg u (bits w 7 5) (bits w 5 2) (bits w 0 4))) else .instr (.strt c rn rd (.reg u (bits w 7 5) (bits w 5 2) (bits w 0 4)))))
  else
    (if flag w 20 then (if flag w 22 then .instr (.ldrb c rn rd (.regPost u (bits w 7 5) (bits w 5 2) (bits w 0 4))) else .instr (.ldr c rn rd (.regPost u (bits w 7 5) (bits w 5 2) (bits w 0 4))))
    else (if flag w 22 then .instr (.strb c rn rd (.regPost u (bits w 7 5) (bits w 5 2) (bits w 0 4))) else .instr (.str c rn rd (.regPost u (bits w 7 5) (bits w 5 2) (bits w 0 4)))))

/-- Load and store multiple (R298). -/
def decodeMultiple (c : BitVec 4) (w : Nat) : Decoded :=
  let p := flag w 24
  let u := flag w 23
  let wb := flag w 21
  let rn := bits w 16 4
  if flag w 20 then
    (if flag w 22 then
      (if flag w 15 then .instr (.ldm3 c p u wb rn (bits w 0 15)) else .instr (.ldm2 c p u wb rn (bits w 0 15)))
    else .instr (.ldm1 c p u wb rn (bits w 0 16)))
  else
    (if flag w 22 then .instr (.stm2 c p u wb rn (bits w 0 16)) else .instr (.stm1 c p u wb rn (bits w 0 16)))

/-- Bits [27:25] = 110: MCRR, MRRC (MAR, MRA), LDC, STC (R284 rows 15, 16; R301). The point P = U = N = W = 0
belongs to no row. -/
def decode110 (c : BitVec 4) (w : Nat) : Decoded :=
  let u := flag w 23
  let n := flag w 22
  let wb := flag w 21
  let rn := bits w 16 4
  let rd := bits w 12 4
  let cp := bits w 8 4
  let x := bits w 0 8
  if flag w 24 then
    (if flag w 20 then .instr (.ldcOffset c u n wb rn rd cp x) else .instr (.stcOffset c u n wb rn rd cp x))
  else if wb then
    (if flag w 20 then .instr (.ldcPost c u n rn rd cp x) else .instr (.stcPost c u n rn rd cp x))
  else if u then
    (if flag w 20 then .instr (.ldcUnindexed c n rn rd cp x) else .instr (.stcUnindexed c n rn rd cp x))
  else if n then
    (if cp == 0#4 && bits w 4 4 == 0#4 && !flag w 3 then
      (if flag w 20 then .instr (.mra c rn rd (bits w 0 3)) else .instr (.mar c rn rd (bits w 0 3)))
    else
      (if flag w 20 then .instr (.mrrc c rn rd cp (bits w 4 4) (bits w 0 4))
      else .instr (.mcrr c rn rd cp (bits w 4 4) (bits w 0 4))))
  else .reject .unallocated

/-- The listed MRC accesses of coprocessor 15, selected by CRn, CRm and opcode_2 (opcode_1 = 0);
45_cp15_cp14_operations.md R580, R650. -/
def decodeMrcCp15 (c rd crn crm : BitVec 4) (op2 : BitVec 3) : Option Instr :=
  match crn, crm, op2 with
  | 0#4, 0#4, 0#3 => some (.mrcId c rd)
  | 0#4, 0#4, 1#3 => some (.mrcCacheType c rd)
  | 1#4, 0#4, 0#3 => some (.mrcControl c rd)
  | 1#4, 0#4, 1#3 => some (.mrcAuxControl c rd)
  | 2#4, 0#4, 0#3 => some (.mrcTtb c rd)
  | 3#4, 0#4, 0#3 => some (.mrcDacr c rd)
  | 5#4, 0#4, 0#3 => some (.mrcFsr c rd)
  | 6#4, 0#4, 0#3 => some (.mrcFar c rd)
  | 9#4, 2#4, 0#3 => some (.mrcDCacheLock c rd)
  | 13#4, 0#4, 0#3 => some (.mrcPid c rd)
  | 14#4, 8#4, 0#3 => some (.mrcIbcr0 c rd)
  | 14#4, 9#4, 0#3 => some (.mrcIbcr1 c rd)
  | 14#4, 0#4, 0#3 => some (.mrcDbr0 c rd)
  | 14#4, 3#4, 0#3 => some (.mrcDbr1 c rd)
  | 14#4, 4#4, 0#3 => some (.mrcDbcon c rd)
  | 15#4, 1#4, 0#3 => some (.mrcCpar c rd)
  | _, _, _ => none

/-- The listed MCR accesses of coprocessor 15, selected by CRn, CRm and opcode_2 (opcode_1 = 0);
45_cp15_cp14_operations.md R580, R650. -/
def decodeMcrCp15 (c rd crn crm : BitVec 4) (op2 : BitVec 3) : Option Instr :=
  match crn, crm, op2 with
  | 0#4, 0#4, 0#3 => some (.mcrId c rd)
  | 0#4, 0#4, 1#3 => some (.mcrCacheType c rd)
  | 1#4, 0#4, 0#3 => some (.mcrControl c rd)
  | 1#4, 0#4, 1#3 => some (.mcrAuxControl c rd)
  | 2#4, 0#4, 0#3 => some (.mcrTtb c rd)
  | 3#4, 0#4, 0#3 => some (.mcrDacr c rd)
  | 5#4, 0#4, 0#3 => some (.mcrFsr c rd)
  | 6#4, 0#4, 0#3 => some (.mcrFar c rd)
  | 7#4, 7#4, 0#3 => some (.mcrInvIDCacheBtb c rd)
  | 7#4, 5#4, 0#3 => some (.mcrInvICacheBtb c rd)
  | 7#4, 5#4, 1#3 => some (.mcrInvICacheLine c rd)
  | 7#4, 6#4, 0#3 => some (.mcrInvDCache c rd)
  | 7#4, 6#4, 1#3 => some (.mcrInvDCacheLine c rd)
  | 7#4, 10#4, 1#3 => some (.mcrCleanDCacheLine c rd)
  | 7#4, 10#4, 4#3 => some (.mcrDrainWriteBuffer c rd)
  | 7#4, 5#4, 6#3 => some (.mcrInvBtb c rd)
  | 7#4, 2#4, 5#3 => some (.mcrAllocateDLine c rd)
  | 8#4, 7#4, 0#3 => some (.mcrInvIDTlb c rd)
  | 8#4, 5#4, 0#3 => some (.mcrInvITlb c rd)
  | 8#4, 5#4, 1#3 => some (.mcrInvITlbEntry c rd)
  | 8#4, 6#4, 0#3 => some (.mcrInvDTlb c rd)
  | 8#4, 6#4, 1#3 => some (.mcrInvDTlbEntry c rd)
  | 9#4, 1#4, 0#3 => some (.mcrLockILine c rd)
  | 9#4, 1#4, 1#3 => some (.mcrUnlockICache c rd)
  | 9#4, 2#4, 0#3 => some (.mcrDCacheLock c rd)
  | 9#4, 2#4, 1#3 => some (.mcrUnlockDCache c rd)
  | 10#4, 4#4, 0#3 => some (.mcrLockITlbEntry c rd)
  | 10#4, 8#4, 0#3 => some (.mcrLockDTlbEntry c rd)
  | 10#4, 4#4, 1#3 => some (.mcrUnlockITlb c rd)
  | 10#4, 8#4, 1#3 => some (.mcrUnlockDTlb c rd)
  | 13#4, 0#4, 0#3 => some (.mcrPid c rd)
  | 14#4, 8#4, 0#3 => some (.mcrIbcr0 c rd)
  | 14#4, 9#4, 0#3 => some (.mcrIbcr1 c rd)
  | 14#4, 0#4, 0#3 => some (.mcrDbr0 c rd)
  | 14#4, 3#4, 0#3 => some (.mcrDbr1 c rd)
  | 14#4, 4#4, 0#3 => some (.mcrDbcon c rd)
  | 15#4, 1#4, 0#3 => some (.mcrCpar c rd)
  | _, _, _ => none

/-- The listed MRC accesses of coprocessor 14, selected by CRn, CRm and opcode_2 (opcode_1 = 0);
45_cp15_cp14_operations.md R580, R650. -/
def decodeMrcCp14 (c rd crn crm : BitVec 4) (op2 : BitVec 3) : Option Instr :=
  match crn, crm, op2 with
  | 0#4, 0#4, 0#3 => some (.mrcPmnc c rd)
  | 1#4, 0#4, 0#3 => some (.mrcCcnt c rd)
  | 2#4, 0#4, 0#3 => some (.mrcPmn0 c rd)
  | 3#4, 0#4, 0#3 => some (.mrcPmn1 c rd)
  | 6#4, 0#4, 0#3 => some (.mrcCclkcfg c rd)
  | 7#4, 0#4, 0#3 => some (.mrcPwrmode c rd)
  | 8#4, 0#4, 0#3 => some (.mrcTx c rd)
  | 9#4, 0#4, 0#3 => some (.mrcRx c rd)
  | 10#4, 0#4, 0#3 => some (.mrcDcsr c rd)
  | 11#4, 0#4, 0#3 => some (.mrcTbreg c rd)
  | 12#4, 0#4, 0#3 => some (.mrcChkpt0 c rd)
  | 13#4, 0#4, 0#3 => some (.mrcChkpt1 c rd)
  | 14#4, 0#4, 0#3 => some (.mrcTxrxctrl c rd)
  | _, _, _ => none

/-- The listed MCR accesses of coprocessor 14, selected by CRn, CRm and opcode_2 (opcode_1 = 0);
45_cp15_cp14_operations.md R580, R650. -/
def decodeMcrCp14 (c rd crn crm : BitVec 4) (op2 : BitVec 3) : Option Instr :=
  match crn, crm, op2 with
  | 0#4, 0#4, 0#3 => some (.mcrPmnc c rd)
  | 1#4, 0#4, 0#3 => some (.mcrCcnt c rd)
  | 2#4, 0#4, 0#3 => some (.mcrPmn0 c rd)
  | 3#4, 0#4, 0#3 => some (.mcrPmn1 c rd)
  | 6#4, 0#4, 0#3 => some (.mcrCclkcfg c rd)
  | 7#4, 0#4, 0#3 => some (.mcrPwrmode c rd)
  | 8#4, 0#4, 0#3 => some (.mcrTx c rd)
  | 9#4, 0#4, 0#3 => some (.mcrRx c rd)
  | 10#4, 0#4, 0#3 => some (.mcrDcsr c rd)
  | 11#4, 0#4, 0#3 => some (.mcrTbreg c rd)
  | 12#4, 0#4, 0#3 => some (.mcrChkpt0 c rd)
  | 13#4, 0#4, 0#3 => some (.mcrChkpt1 c rd)
  | 14#4, 0#4, 0#3 => some (.mcrTxrxctrl c rd)
  | _, _, _ => none

/-- MCR with coprocessor 0 and opcode_1 = 001: the MIA family, selected by opcode_3 (R301, Table 2-1). -/
def decodeMia (c op3 rs : BitVec 4) (acc : BitVec 3) (rm : BitVec 4) : Option Instr :=
  match op3 with
  | 0b0000#4 => some (.mia c rs acc rm)
  | 0b1000#4 => some (.miaph c rs acc rm)
  | 0b1100#4 => some (.miabb c rs acc rm)
  | 0b1101#4 => some (.miabt c rs acc rm)
  | 0b1110#4 => some (.miatb c rs acc rm)
  | 0b1111#4 => some (.miatt c rs acc rm)
  | _ => none

/-- The row more special than MCR or MRC that a register transfer belongs to, if there is one. -/
def specialTransfer (load : Bool) (c : BitVec 4) (op1 : BitVec 3) (crn rd cp : BitVec 4) (op2 : BitVec 3)
    (crm : BitVec 4) : Option Instr :=
  match cp with
  | 15#4 => if op1 == 0#3 then (if load then decodeMrcCp15 c rd crn crm op2 else decodeMcrCp15 c rd crn crm op2) else none
  | 14#4 => if op1 == 0#3 then (if load then decodeMrcCp14 c rd crn crm op2 else decodeMcrCp14 c rd crn crm op2) else none
  | 0#4 => if op1 == 1#3 && !load then decodeMia c crn rd op2 crm else none
  | _ => none

/-- Bits [27:25] = 111 (R284 rows 17 to 19). -/
def decode111 (c : BitVec 4) (w : Nat) : Decoded :=
  if flag w 24 then .instr (.swi c (bits w 0 24))
  else if flag w 4 then
    let l := flag w 20
    let op1 := bits w 21 3
    let crn := bits w 16 4
    let rd := bits w 12 4
    let cp := bits w 8 4
    let op2 := bits w 5 3
    let crm := bits w 0 4
    match specialTransfer l c op1 crn rd cp op2 crm with
    | some i => .instr i
    | none => if l then .instr (.mrc c op1 crn rd cp op2 crm) else .instr (.mcr c op1 crn rd cp op2 crm)
  else .instr (.cdp c (bits w 20 4) (bits w 16 4) (bits w 12 4) (bits w 8 4) (bits w 5 3) (bits w 0 4))

/-- The unconditional space, cond = 1111 (R302). R302 excepts patterns that the architecture marks unpredictable and
names none; all that no row covers is undefined here, the PLD pattern with P = 0 or W = 1 among it (log 37). -/
def decodeUncond (w : Nat) : Decoded :=
  match bits w 25 3 with
  | 0b101#3 => .instr (.blx1 (flag w 24) (bits w 0 24))
  | 0b010#3 =>
    if flag w 24 && flag w 22 && !flag w 21 && flag w 20 && bits w 12 4 == 15#4 then
      .instr (.pldImm (flag w 23) (bits w 16 4) (bits w 0 12))
    else .reject .unallocated
  | 0b011#3 =>
    if flag w 24 && flag w 22 && !flag w 21 && flag w 20 && bits w 12 4 == 15#4 && !flag w 4 then
      .instr (.pldReg (flag w 23) (bits w 16 4) (bits w 7 5) (bits w 5 2) (bits w 0 4))
    else .reject .unallocated
  | _ => .reject .unallocated

/-- The ARM decoder (R284): the top-level classes by bits [27:25]. -/
def decodeArmNat (w : Nat) : Decoded :=
  let c := bits w 28 4
  if c == 15#4 then decodeUncond w
  else
    match bits w 25 3 with
    | 0b000#3 => decode000 c w
    | 0b001#3 => decode001 c w
    | 0b010#3 => decodeLdStImm c w
    | 0b011#3 => if flag w 4 then .instr (.undefMedia c (bits w 5 20) (bits w 0 4)) else decodeLdStReg c w
    | 0b100#3 => decodeMultiple c w
    | 0b101#3 => if flag w 24 then .instr (.bl c (bits w 0 24)) else .instr (.b c (bits w 0 24))
    | 0b110#3 => decode110 c w
    | _ => decode111 c w

/-- The instruction of a 32-bit ARM word. -/
def decodeArm (w : Word) : Decoded := decodeArmNat w.toNat

/-- Thumb data-processing register forms: bits [15:10] = 010000 (46_thumb.md R681 to R696). -/
def decodeThumbDp (w : Nat) : Decoded :=
  let rm := bits w 3 3
  let rd := bits w 0 3
  match bits w 6 4 with
  | 0#4 => .instr (.tAnd rm rd)
  | 1#4 => .instr (.tEor rm rd)
  | 2#4 => .instr (.tLsl2 rm rd)
  | 3#4 => .instr (.tLsr2 rm rd)
  | 4#4 => .instr (.tAsr2 rm rd)
  | 5#4 => .instr (.tAdc rm rd)
  | 6#4 => .instr (.tSbc rm rd)
  | 7#4 => .instr (.tRor rm rd)
  | 8#4 => .instr (.tTst rm rd)
  | 9#4 => .instr (.tNeg rm rd)
  | 10#4 => .instr (.tCmp2 rm rd)
  | 11#4 => .instr (.tCmn rm rd)
  | 12#4 => .instr (.tOrr rm rd)
  | 13#4 => .instr (.tMul rm rd)
  | 14#4 => .instr (.tBic rm rd)
  | _ => .instr (.tMvn rm rd)

/-- Thumb high-register forms: bits [15:10] = 010001 (46_thumb.md R700 to R704). Bits [2:0] of BLX (2), fixed at 000,
are taken as a should-be field, as R703 calls those of BX (log 60). -/
def decodeThumbHigh (w : Nat) : Decoded :=
  let rm := bits w 3 3
  let rd := bits w 0 3
  let h1 := flag w 7
  let h2 := flag w 6
  if flag w 9 then
    (if flag w 8 then
      (if h1 then shouldBe (rd == 0#3) (.tBlx2 h2 rm) else shouldBe (rd == 0#3) (.tBx h2 rm))
    else .instr (.tMov3 h1 h2 rm rd))
  else (if flag w 8 then .instr (.tCmp3 h1 h2 rm rd) else .instr (.tAdd4 h1 h2 rm rd))

/-- Bits [15:11] = 10110 (46_thumb.md R724 to R726, R666). -/
def decodeThumb10110 (w : Nat) : Decoded :=
  let x := bits w 0 8
  if flag w 10 then
    (if flag w 9 then (if flag w 8 then .instr (.tUndefB7 x) else .instr (.tUndefB6 x))
    else .instr (.tPush (flag w 8) x))
  else if flag w 9 then (if flag w 8 then .instr (.tUndefB3 x) else .instr (.tUndefB2 x))
  else if flag w 8 then .instr (.tUndefB1 x)
  else (if flag w 7 then .instr (.tSub4 (bits w 0 7)) else .instr (.tAdd7 (bits w 0 7)))

/-- Bits [15:11] = 10111 (46_thumb.md R727, R733, R666). -/
def decodeThumb10111 (w : Nat) : Decoded :=
  let x := bits w 0 8
  if flag w 10 then
    (if flag w 9 then (if flag w 8 then .instr (.tUndefBF x) else .instr (.tBkpt x))
    else .instr (.tPop (flag w 8) x))
  else .instr (.tUndefB8 (bits w 0 10))

/-- Bits [15:11] = 11011: the conditional branches with cond = 1xxx, the undefined point and SWI (R730 to R732). -/
def decodeThumb11011 (w : Nat) : Decoded :=
  let x := bits w 0 8
  if flag w 10 then
    (if flag w 9 then (if flag w 8 then .instr (.tSwi x) else .instr (.tUndefDE x))
    else .instr (.tB1High (flag w 8) x))
  else .instr (.tB1Mid (bits w 8 2) x)

/-- The Thumb decoder (46_thumb.md R660, R750): the formats by bits [15:11]. -/
def decodeThumbNat (w : Nat) : Decoded :=
  let a := bits w 6 5
  let m := bits w 3 3
  let d := bits w 0 3
  let r8 := bits w 8 3
  let i8 := bits w 0 8
  match bits w 11 5 with
  | 0b00000#5 => .instr (.tLsl1 a m d)
  | 0b00001#5 => .instr (.tLsr1 a m d)
  | 0b00010#5 => .instr (.tAsr1 a m d)
  | 0b00011#5 =>
    if flag w 10 then
      (if flag w 9 then .instr (.tSub1 (bits w 6 3) m d) else .instr (.tAdd1 (bits w 6 3) m d))
    else (if flag w 9 then .instr (.tSub3 (bits w 6 3) m d) else .instr (.tAdd3 (bits w 6 3) m d))
  | 0b00100#5 => .instr (.tMov1 r8 i8)
  | 0b00101#5 => .instr (.tCmp1 r8 i8)
  | 0b00110#5 => .instr (.tAdd2 r8 i8)
  | 0b00111#5 => .instr (.tSub2 r8 i8)
  | 0b01000#5 => if flag w 10 then decodeThumbHigh w else decodeThumbDp w
  | 0b01001#5 => .instr (.tLdr3 r8 i8)
  | 0b01010#5 =>
    if flag w 10 then
      (if flag w 9 then .instr (.tLdrsb (bits w 6 3) m d) else .instr (.tStrb2 (bits w 6 3) m d))
    else (if flag w 9 then .instr (.tStrh2 (bits w 6 3) m d) else .instr (.tStr2 (bits w 6 3) m d))
  | 0b01011#5 =>
    if flag w 10 then
      (if flag w 9 then .instr (.tLdrsh (bits w 6 3) m d) else .instr (.tLdrb2 (bits w 6 3) m d))
    else (if flag w 9 then .instr (.tLdrh2 (bits w 6 3) m d) else .instr (.tLdr2 (bits w 6 3) m d))
  | 0b01100#5 => .instr (.tStr1 a m d)
  | 0b01101#5 => .instr (.tLdr1 a m d)
  | 0b01110#5 => .instr (.tStrb1 a m d)
  | 0b01111#5 => .instr (.tLdrb1 a m d)
  | 0b10000#5 => .instr (.tStrh1 a m d)
  | 0b10001#5 => .instr (.tLdrh1 a m d)
  | 0b10010#5 => .instr (.tStr3 r8 i8)
  | 0b10011#5 => .instr (.tLdr4 r8 i8)
  | 0b10100#5 => .instr (.tAdd5 r8 i8)
  | 0b10101#5 => .instr (.tAdd6 r8 i8)
  | 0b10110#5 => decodeThumb10110 w
  | 0b10111#5 => decodeThumb10111 w
  | 0b11000#5 => .instr (.tStmia r8 i8)
  | 0b11001#5 => .instr (.tLdmia r8 i8)
  | 0b11010#5 => .instr (.tB1Low r8 i8)
  | 0b11011#5 => decodeThumb11011 w
  | 0b11100#5 => .instr (.tB2 (bits w 0 11))
  | 0b11101#5 => if flag w 0 then .instr (.tUndefE801 (bits w 1 10)) else .instr (.tBlxSuffix (bits w 1 10))
  | 0b11110#5 => .instr (.tBlPrefix (bits w 0 11))
  | _ => .instr (.tBlSuffix (bits w 0 11))

/-- The instruction of a 16-bit Thumb halfword. -/
def decodeThumb (h : Half) : Decoded := decodeThumbNat h.toNat

/-- The table's row of nbits bits that the decoder reads from the bits w: 32 bits are an ARM word, 16 bits a Thumb
halfword (spec/opcode_table.json); no other length has a row. -/
def decodeTableWord (nbits w : Nat) : Option Instr :=
  let d := if nbits = 32 then decodeArmNat (w % 2 ^ 32) else if nbits = 16 then decodeThumbNat (w % 2 ^ 16)
    else .reject .unallocated
  match d with
  | .instr i => some i
  | .reject _ => none

/-! ## The encoder -/

/-- Append the field x below the bits h. -/
def put {m : Nat} (x : BitVec m) (h : Nat) : Nat := h * 2 ^ m + x.toNat

/-- Append one bit below the bits h. -/
def putBit (b : Bool) (h : Nat) : Nat := put (BitVec.ofBool b) h

/-- The bits of an instruction, from its row of spec/opcode_table.json: an ARM row gives 32 bits, a Thumb row 16. -/
def encodeNat : Instr → Nat
  | .and cond sf rn rd (.imm rot imm8) =>
    cond.toNat |> put 0b001#3 |> put 0b0000#4 |> putBit sf |> put rn |> put rd |> put rot |> put imm8
  | .and cond sf rn rd (.shift amt sh rm) =>
    cond.toNat |> put 0b000#3 |> put 0b0000#4 |> putBit sf |> put rn |> put rd |> put amt |> put sh |> put 0b0#1 |> put rm
  | .and cond sf rn rd (.reg rs sh rm) =>
    cond.toNat |> put 0b000#3 |> put 0b0000#4 |> putBit sf |> put rn |> put rd |> put rs |> put 0b0#1 |> put sh |> put 0b1#1 |> put rm
  | .eor cond sf rn rd (.imm rot imm8) =>
    cond.toNat |> put 0b001#3 |> put 0b0001#4 |> putBit sf |> put rn |> put rd |> put rot |> put imm8
  | .eor cond sf rn rd (.shift amt sh rm) =>
    cond.toNat |> put 0b000#3 |> put 0b0001#4 |> putBit sf |> put rn |> put rd |> put amt |> put sh |> put 0b0#1 |> put rm
  | .eor cond sf rn rd (.reg rs sh rm) =>
    cond.toNat |> put 0b000#3 |> put 0b0001#4 |> putBit sf |> put rn |> put rd |> put rs |> put 0b0#1 |> put sh |> put 0b1#1 |> put rm
  | .sub cond sf rn rd (.imm rot imm8) =>
    cond.toNat |> put 0b001#3 |> put 0b0010#4 |> putBit sf |> put rn |> put rd |> put rot |> put imm8
  | .sub cond sf rn rd (.shift amt sh rm) =>
    cond.toNat |> put 0b000#3 |> put 0b0010#4 |> putBit sf |> put rn |> put rd |> put amt |> put sh |> put 0b0#1 |> put rm
  | .sub cond sf rn rd (.reg rs sh rm) =>
    cond.toNat |> put 0b000#3 |> put 0b0010#4 |> putBit sf |> put rn |> put rd |> put rs |> put 0b0#1 |> put sh |> put 0b1#1 |> put rm
  | .rsb cond sf rn rd (.imm rot imm8) =>
    cond.toNat |> put 0b001#3 |> put 0b0011#4 |> putBit sf |> put rn |> put rd |> put rot |> put imm8
  | .rsb cond sf rn rd (.shift amt sh rm) =>
    cond.toNat |> put 0b000#3 |> put 0b0011#4 |> putBit sf |> put rn |> put rd |> put amt |> put sh |> put 0b0#1 |> put rm
  | .rsb cond sf rn rd (.reg rs sh rm) =>
    cond.toNat |> put 0b000#3 |> put 0b0011#4 |> putBit sf |> put rn |> put rd |> put rs |> put 0b0#1 |> put sh |> put 0b1#1 |> put rm
  | .add cond sf rn rd (.imm rot imm8) =>
    cond.toNat |> put 0b001#3 |> put 0b0100#4 |> putBit sf |> put rn |> put rd |> put rot |> put imm8
  | .add cond sf rn rd (.shift amt sh rm) =>
    cond.toNat |> put 0b000#3 |> put 0b0100#4 |> putBit sf |> put rn |> put rd |> put amt |> put sh |> put 0b0#1 |> put rm
  | .add cond sf rn rd (.reg rs sh rm) =>
    cond.toNat |> put 0b000#3 |> put 0b0100#4 |> putBit sf |> put rn |> put rd |> put rs |> put 0b0#1 |> put sh |> put 0b1#1 |> put rm
  | .adc cond sf rn rd (.imm rot imm8) =>
    cond.toNat |> put 0b001#3 |> put 0b0101#4 |> putBit sf |> put rn |> put rd |> put rot |> put imm8
  | .adc cond sf rn rd (.shift amt sh rm) =>
    cond.toNat |> put 0b000#3 |> put 0b0101#4 |> putBit sf |> put rn |> put rd |> put amt |> put sh |> put 0b0#1 |> put rm
  | .adc cond sf rn rd (.reg rs sh rm) =>
    cond.toNat |> put 0b000#3 |> put 0b0101#4 |> putBit sf |> put rn |> put rd |> put rs |> put 0b0#1 |> put sh |> put 0b1#1 |> put rm
  | .sbc cond sf rn rd (.imm rot imm8) =>
    cond.toNat |> put 0b001#3 |> put 0b0110#4 |> putBit sf |> put rn |> put rd |> put rot |> put imm8
  | .sbc cond sf rn rd (.shift amt sh rm) =>
    cond.toNat |> put 0b000#3 |> put 0b0110#4 |> putBit sf |> put rn |> put rd |> put amt |> put sh |> put 0b0#1 |> put rm
  | .sbc cond sf rn rd (.reg rs sh rm) =>
    cond.toNat |> put 0b000#3 |> put 0b0110#4 |> putBit sf |> put rn |> put rd |> put rs |> put 0b0#1 |> put sh |> put 0b1#1 |> put rm
  | .rsc cond sf rn rd (.imm rot imm8) =>
    cond.toNat |> put 0b001#3 |> put 0b0111#4 |> putBit sf |> put rn |> put rd |> put rot |> put imm8
  | .rsc cond sf rn rd (.shift amt sh rm) =>
    cond.toNat |> put 0b000#3 |> put 0b0111#4 |> putBit sf |> put rn |> put rd |> put amt |> put sh |> put 0b0#1 |> put rm
  | .rsc cond sf rn rd (.reg rs sh rm) =>
    cond.toNat |> put 0b000#3 |> put 0b0111#4 |> putBit sf |> put rn |> put rd |> put rs |> put 0b0#1 |> put sh |> put 0b1#1 |> put rm
  | .tst cond rn (.imm rot imm8) =>
    cond.toNat |> put 0b001#3 |> put 0b1000#4 |> put 0b1#1 |> put rn |> put 0b0000#4 |> put rot |> put imm8
  | .tst cond rn (.shift amt sh rm) =>
    cond.toNat |> put 0b000#3 |> put 0b1000#4 |> put 0b1#1 |> put rn |> put 0b0000#4 |> put amt |> put sh |> put 0b0#1 |> put rm
  | .tst cond rn (.reg rs sh rm) =>
    cond.toNat |> put 0b000#3 |> put 0b1000#4 |> put 0b1#1 |> put rn |> put 0b0000#4 |> put rs |> put 0b0#1 |> put sh |> put 0b1#1 |> put rm
  | .teq cond rn (.imm rot imm8) =>
    cond.toNat |> put 0b001#3 |> put 0b1001#4 |> put 0b1#1 |> put rn |> put 0b0000#4 |> put rot |> put imm8
  | .teq cond rn (.shift amt sh rm) =>
    cond.toNat |> put 0b000#3 |> put 0b1001#4 |> put 0b1#1 |> put rn |> put 0b0000#4 |> put amt |> put sh |> put 0b0#1 |> put rm
  | .teq cond rn (.reg rs sh rm) =>
    cond.toNat |> put 0b000#3 |> put 0b1001#4 |> put 0b1#1 |> put rn |> put 0b0000#4 |> put rs |> put 0b0#1 |> put sh |> put 0b1#1 |> put rm
  | .cmp cond rn (.imm rot imm8) =>
    cond.toNat |> put 0b001#3 |> put 0b1010#4 |> put 0b1#1 |> put rn |> put 0b0000#4 |> put rot |> put imm8
  | .cmp cond rn (.shift amt sh rm) =>
    cond.toNat |> put 0b000#3 |> put 0b1010#4 |> put 0b1#1 |> put rn |> put 0b0000#4 |> put amt |> put sh |> put 0b0#1 |> put rm
  | .cmp cond rn (.reg rs sh rm) =>
    cond.toNat |> put 0b000#3 |> put 0b1010#4 |> put 0b1#1 |> put rn |> put 0b0000#4 |> put rs |> put 0b0#1 |> put sh |> put 0b1#1 |> put rm
  | .cmn cond rn (.imm rot imm8) =>
    cond.toNat |> put 0b001#3 |> put 0b1011#4 |> put 0b1#1 |> put rn |> put 0b0000#4 |> put rot |> put imm8
  | .cmn cond rn (.shift amt sh rm) =>
    cond.toNat |> put 0b000#3 |> put 0b1011#4 |> put 0b1#1 |> put rn |> put 0b0000#4 |> put amt |> put sh |> put 0b0#1 |> put rm
  | .cmn cond rn (.reg rs sh rm) =>
    cond.toNat |> put 0b000#3 |> put 0b1011#4 |> put 0b1#1 |> put rn |> put 0b0000#4 |> put rs |> put 0b0#1 |> put sh |> put 0b1#1 |> put rm
  | .orr cond sf rn rd (.imm rot imm8) =>
    cond.toNat |> put 0b001#3 |> put 0b1100#4 |> putBit sf |> put rn |> put rd |> put rot |> put imm8
  | .orr cond sf rn rd (.shift amt sh rm) =>
    cond.toNat |> put 0b000#3 |> put 0b1100#4 |> putBit sf |> put rn |> put rd |> put amt |> put sh |> put 0b0#1 |> put rm
  | .orr cond sf rn rd (.reg rs sh rm) =>
    cond.toNat |> put 0b000#3 |> put 0b1100#4 |> putBit sf |> put rn |> put rd |> put rs |> put 0b0#1 |> put sh |> put 0b1#1 |> put rm
  | .mov cond sf rd (.imm rot imm8) =>
    cond.toNat |> put 0b001#3 |> put 0b1101#4 |> putBit sf |> put 0b0000#4 |> put rd |> put rot |> put imm8
  | .mov cond sf rd (.shift amt sh rm) =>
    cond.toNat |> put 0b000#3 |> put 0b1101#4 |> putBit sf |> put 0b0000#4 |> put rd |> put amt |> put sh |> put 0b0#1 |> put rm
  | .mov cond sf rd (.reg rs sh rm) =>
    cond.toNat |> put 0b000#3 |> put 0b1101#4 |> putBit sf |> put 0b0000#4 |> put rd |> put rs |> put 0b0#1 |> put sh |> put 0b1#1 |> put rm
  | .bic cond sf rn rd (.imm rot imm8) =>
    cond.toNat |> put 0b001#3 |> put 0b1110#4 |> putBit sf |> put rn |> put rd |> put rot |> put imm8
  | .bic cond sf rn rd (.shift amt sh rm) =>
    cond.toNat |> put 0b000#3 |> put 0b1110#4 |> putBit sf |> put rn |> put rd |> put amt |> put sh |> put 0b0#1 |> put rm
  | .bic cond sf rn rd (.reg rs sh rm) =>
    cond.toNat |> put 0b000#3 |> put 0b1110#4 |> putBit sf |> put rn |> put rd |> put rs |> put 0b0#1 |> put sh |> put 0b1#1 |> put rm
  | .mvn cond sf rd (.imm rot imm8) =>
    cond.toNat |> put 0b001#3 |> put 0b1111#4 |> putBit sf |> put 0b0000#4 |> put rd |> put rot |> put imm8
  | .mvn cond sf rd (.shift amt sh rm) =>
    cond.toNat |> put 0b000#3 |> put 0b1111#4 |> putBit sf |> put 0b0000#4 |> put rd |> put amt |> put sh |> put 0b0#1 |> put rm
  | .mvn cond sf rd (.reg rs sh rm) =>
    cond.toNat |> put 0b000#3 |> put 0b1111#4 |> putBit sf |> put 0b0000#4 |> put rd |> put rs |> put 0b0#1 |> put sh |> put 0b1#1 |> put rm
  | .clz cond rd rm =>
    cond.toNat |> put 0b000#3 |> put 0b1011#4 |> put 0b0#1 |> put 0b1111#4 |> put rd |> put 0b1111#4 |> put 0b0001#4 |> put rm
  | .mul cond sf rd rs rm =>
    cond.toNat |> put 0b000#3 |> put 0b0000#4 |> putBit sf |> put rd |> put 0b0000#4 |> put rs |> put 0b1#1 |> put 0b0#1 |> put 0b0#1 |> put 0b1#1 |> put rm
  | .mla cond sf rd rn rs rm =>
    cond.toNat |> put 0b000#3 |> put 0b0001#4 |> putBit sf |> put rd |> put rn |> put rs |> put 0b1#1 |> put 0b0#1 |> put 0b0#1 |> put 0b1#1 |> put rm
  | .umull cond sf rdHi rdLo rs rm =>
    cond.toNat |> put 0b000#3 |> put 0b0100#4 |> putBit sf |> put rdHi |> put rdLo |> put rs |> put 0b1#1 |> put 0b0#1 |> put 0b0#1 |> put 0b1#1 |> put rm
  | .umlal cond sf rdHi rdLo rs rm =>
    cond.toNat |> put 0b000#3 |> put 0b0101#4 |> putBit sf |> put rdHi |> put rdLo |> put rs |> put 0b1#1 |> put 0b0#1 |> put 0b0#1 |> put 0b1#1 |> put rm
  | .smull cond sf rdHi rdLo rs rm =>
    cond.toNat |> put 0b000#3 |> put 0b0110#4 |> putBit sf |> put rdHi |> put rdLo |> put rs |> put 0b1#1 |> put 0b0#1 |> put 0b0#1 |> put 0b1#1 |> put rm
  | .smlal cond sf rdHi rdLo rs rm =>
    cond.toNat |> put 0b000#3 |> put 0b0111#4 |> putBit sf |> put rdHi |> put rdLo |> put rs |> put 0b1#1 |> put 0b0#1 |> put 0b0#1 |> put 0b1#1 |> put rm
  | .smulXY cond rd rs y x rm =>
    cond.toNat |> put 0b000#3 |> put 0b1011#4 |> put 0b0#1 |> put rd |> put 0b0000#4 |> put rs |> put 0b1#1 |> putBit y |> putBit x |> put 0b0#1 |> put rm
  | .smulWY cond rd rs y rm =>
    cond.toNat |> put 0b000#3 |> put 0b1001#4 |> put 0b0#1 |> put rd |> put 0b0000#4 |> put rs |> put 0b1#1 |> putBit y |> put 0b1#1 |> put 0b0#1 |> put rm
  | .smlaXY cond rd rn rs y x rm =>
    cond.toNat |> put 0b000#3 |> put 0b1000#4 |> put 0b0#1 |> put rd |> put rn |> put rs |> put 0b1#1 |> putBit y |> putBit x |> put 0b0#1 |> put rm
  | .smlaWY cond rd rn rs y rm =>
    cond.toNat |> put 0b000#3 |> put 0b1001#4 |> put 0b0#1 |> put rd |> put rn |> put rs |> put 0b1#1 |> putBit y |> put 0b0#1 |> put 0b0#1 |> put rm
  | .smlalXY cond rdHi rdLo rs y x rm =>
    cond.toNat |> put 0b000#3 |> put 0b1010#4 |> put 0b0#1 |> put rdHi |> put rdLo |> put rs |> put 0b1#1 |> putBit y |> putBit x |> put 0b0#1 |> put rm
  | .qadd cond rn rd rm =>
    cond.toNat |> put 0b000#3 |> put 0b1000#4 |> put 0b0#1 |> put rn |> put rd |> put 0b0000#4 |> put 0b0101#4 |> put rm
  | .qsub cond rn rd rm =>
    cond.toNat |> put 0b000#3 |> put 0b1001#4 |> put 0b0#1 |> put rn |> put rd |> put 0b0000#4 |> put 0b0101#4 |> put rm
  | .qdadd cond rn rd rm =>
    cond.toNat |> put 0b000#3 |> put 0b1010#4 |> put 0b0#1 |> put rn |> put rd |> put 0b0000#4 |> put 0b0101#4 |> put rm
  | .qdsub cond rn rd rm =>
    cond.toNat |> put 0b000#3 |> put 0b1011#4 |> put 0b0#1 |> put rn |> put rd |> put 0b0000#4 |> put 0b0101#4 |> put rm
  | .ldr cond rn rd (.imm u w off12) =>
    cond.toNat |> put 0b010#3 |> put 0b1#1 |> putBit u |> put 0b0#1 |> putBit w |> put 0b1#1 |> put rn |> put rd |> put off12
  | .ldr cond rn rd (.immPost u off12) =>
    cond.toNat |> put 0b010#3 |> put 0b0#1 |> putBit u |> put 0b0#1 |> put 0b0#1 |> put 0b1#1 |> put rn |> put rd |> put off12
  | .ldr cond rn rd (.reg u w amt sh rm) =>
    cond.toNat |> put 0b011#3 |> put 0b1#1 |> putBit u |> put 0b0#1 |> putBit w |> put 0b1#1 |> put rn |> put rd |> put amt |> put sh |> put 0b0#1 |> put rm
  | .ldr cond rn rd (.regPost u amt sh rm) =>
    cond.toNat |> put 0b011#3 |> put 0b0#1 |> putBit u |> put 0b0#1 |> put 0b0#1 |> put 0b1#1 |> put rn |> put rd |> put amt |> put sh |> put 0b0#1 |> put rm
  | .str cond rn rd (.imm u w off12) =>
    cond.toNat |> put 0b010#3 |> put 0b1#1 |> putBit u |> put 0b0#1 |> putBit w |> put 0b0#1 |> put rn |> put rd |> put off12
  | .str cond rn rd (.immPost u off12) =>
    cond.toNat |> put 0b010#3 |> put 0b0#1 |> putBit u |> put 0b0#1 |> put 0b0#1 |> put 0b0#1 |> put rn |> put rd |> put off12
  | .str cond rn rd (.reg u w amt sh rm) =>
    cond.toNat |> put 0b011#3 |> put 0b1#1 |> putBit u |> put 0b0#1 |> putBit w |> put 0b0#1 |> put rn |> put rd |> put amt |> put sh |> put 0b0#1 |> put rm
  | .str cond rn rd (.regPost u amt sh rm) =>
    cond.toNat |> put 0b011#3 |> put 0b0#1 |> putBit u |> put 0b0#1 |> put 0b0#1 |> put 0b0#1 |> put rn |> put rd |> put amt |> put sh |> put 0b0#1 |> put rm
  | .ldrb cond rn rd (.imm u w off12) =>
    cond.toNat |> put 0b010#3 |> put 0b1#1 |> putBit u |> put 0b1#1 |> putBit w |> put 0b1#1 |> put rn |> put rd |> put off12
  | .ldrb cond rn rd (.immPost u off12) =>
    cond.toNat |> put 0b010#3 |> put 0b0#1 |> putBit u |> put 0b1#1 |> put 0b0#1 |> put 0b1#1 |> put rn |> put rd |> put off12
  | .ldrb cond rn rd (.reg u w amt sh rm) =>
    cond.toNat |> put 0b011#3 |> put 0b1#1 |> putBit u |> put 0b1#1 |> putBit w |> put 0b1#1 |> put rn |> put rd |> put amt |> put sh |> put 0b0#1 |> put rm
  | .ldrb cond rn rd (.regPost u amt sh rm) =>
    cond.toNat |> put 0b011#3 |> put 0b0#1 |> putBit u |> put 0b1#1 |> put 0b0#1 |> put 0b1#1 |> put rn |> put rd |> put amt |> put sh |> put 0b0#1 |> put rm
  | .strb cond rn rd (.imm u w off12) =>
    cond.toNat |> put 0b010#3 |> put 0b1#1 |> putBit u |> put 0b1#1 |> putBit w |> put 0b0#1 |> put rn |> put rd |> put off12
  | .strb cond rn rd (.immPost u off12) =>
    cond.toNat |> put 0b010#3 |> put 0b0#1 |> putBit u |> put 0b1#1 |> put 0b0#1 |> put 0b0#1 |> put rn |> put rd |> put off12
  | .strb cond rn rd (.reg u w amt sh rm) =>
    cond.toNat |> put 0b011#3 |> put 0b1#1 |> putBit u |> put 0b1#1 |> putBit w |> put 0b0#1 |> put rn |> put rd |> put amt |> put sh |> put 0b0#1 |> put rm
  | .strb cond rn rd (.regPost u amt sh rm) =>
    cond.toNat |> put 0b011#3 |> put 0b0#1 |> putBit u |> put 0b1#1 |> put 0b0#1 |> put 0b0#1 |> put rn |> put rd |> put amt |> put sh |> put 0b0#1 |> put rm
  | .ldrt cond rn rd (.imm u off12) =>
    cond.toNat |> put 0b010#3 |> put 0b0#1 |> putBit u |> put 0b0#1 |> put 0b1#1 |> put 0b1#1 |> put rn |> put rd |> put off12
  | .ldrt cond rn rd (.reg u amt sh rm) =>
    cond.toNat |> put 0b011#3 |> put 0b0#1 |> putBit u |> put 0b0#1 |> put 0b1#1 |> put 0b1#1 |> put rn |> put rd |> put amt |> put sh |> put 0b0#1 |> put rm
  | .ldrbt cond rn rd (.imm u off12) =>
    cond.toNat |> put 0b010#3 |> put 0b0#1 |> putBit u |> put 0b1#1 |> put 0b1#1 |> put 0b1#1 |> put rn |> put rd |> put off12
  | .ldrbt cond rn rd (.reg u amt sh rm) =>
    cond.toNat |> put 0b011#3 |> put 0b0#1 |> putBit u |> put 0b1#1 |> put 0b1#1 |> put 0b1#1 |> put rn |> put rd |> put amt |> put sh |> put 0b0#1 |> put rm
  | .strt cond rn rd (.imm u off12) =>
    cond.toNat |> put 0b010#3 |> put 0b0#1 |> putBit u |> put 0b0#1 |> put 0b1#1 |> put 0b0#1 |> put rn |> put rd |> put off12
  | .strt cond rn rd (.reg u amt sh rm) =>
    cond.toNat |> put 0b011#3 |> put 0b0#1 |> putBit u |> put 0b0#1 |> put 0b1#1 |> put 0b0#1 |> put rn |> put rd |> put amt |> put sh |> put 0b0#1 |> put rm
  | .strbt cond rn rd (.imm u off12) =>
    cond.toNat |> put 0b010#3 |> put 0b0#1 |> putBit u |> put 0b1#1 |> put 0b1#1 |> put 0b0#1 |> put rn |> put rd |> put off12
  | .strbt cond rn rd (.reg u amt sh rm) =>
    cond.toNat |> put 0b011#3 |> put 0b0#1 |> putBit u |> put 0b1#1 |> put 0b1#1 |> put 0b0#1 |> put rn |> put rd |> put amt |> put sh |> put 0b0#1 |> put rm
  | .strh cond p u w rn rd (.imm immH immL) =>
    cond.toNat |> put 0b000#3 |> putBit p |> putBit u |> put 0b1#1 |> putBit w |> put 0b0#1 |> put rn |> put rd |> put immH |> put 0b1#1 |> put 0b0#1 |> put 0b1#1 |> put 0b1#1 |> put immL
  | .strh cond p u w rn rd (.reg rm) =>
    cond.toNat |> put 0b000#3 |> putBit p |> putBit u |> put 0b0#1 |> putBit w |> put 0b0#1 |> put rn |> put rd |> put 0b0000#4 |> put 0b1#1 |> put 0b0#1 |> put 0b1#1 |> put 0b1#1 |> put rm
  | .ldrh cond p u w rn rd (.imm immH immL) =>
    cond.toNat |> put 0b000#3 |> putBit p |> putBit u |> put 0b1#1 |> putBit w |> put 0b1#1 |> put rn |> put rd |> put immH |> put 0b1#1 |> put 0b0#1 |> put 0b1#1 |> put 0b1#1 |> put immL
  | .ldrh cond p u w rn rd (.reg rm) =>
    cond.toNat |> put 0b000#3 |> putBit p |> putBit u |> put 0b0#1 |> putBit w |> put 0b1#1 |> put rn |> put rd |> put 0b0000#4 |> put 0b1#1 |> put 0b0#1 |> put 0b1#1 |> put 0b1#1 |> put rm
  | .ldrsb cond p u w rn rd (.imm immH immL) =>
    cond.toNat |> put 0b000#3 |> putBit p |> putBit u |> put 0b1#1 |> putBit w |> put 0b1#1 |> put rn |> put rd |> put immH |> put 0b1#1 |> put 0b1#1 |> put 0b0#1 |> put 0b1#1 |> put immL
  | .ldrsb cond p u w rn rd (.reg rm) =>
    cond.toNat |> put 0b000#3 |> putBit p |> putBit u |> put 0b0#1 |> putBit w |> put 0b1#1 |> put rn |> put rd |> put 0b0000#4 |> put 0b1#1 |> put 0b1#1 |> put 0b0#1 |> put 0b1#1 |> put rm
  | .ldrsh cond p u w rn rd (.imm immH immL) =>
    cond.toNat |> put 0b000#3 |> putBit p |> putBit u |> put 0b1#1 |> putBit w |> put 0b1#1 |> put rn |> put rd |> put immH |> put 0b1#1 |> put 0b1#1 |> put 0b1#1 |> put 0b1#1 |> put immL
  | .ldrsh cond p u w rn rd (.reg rm) =>
    cond.toNat |> put 0b000#3 |> putBit p |> putBit u |> put 0b0#1 |> putBit w |> put 0b1#1 |> put rn |> put rd |> put 0b0000#4 |> put 0b1#1 |> put 0b1#1 |> put 0b1#1 |> put 0b1#1 |> put rm
  | .ldrd cond p u w rn rd (.imm immH immL) =>
    cond.toNat |> put 0b000#3 |> putBit p |> putBit u |> put 0b1#1 |> putBit w |> put 0b0#1 |> put rn |> put rd |> put immH |> put 0b1#1 |> put 0b1#1 |> put 0b0#1 |> put 0b1#1 |> put immL
  | .ldrd cond p u w rn rd (.reg rm) =>
    cond.toNat |> put 0b000#3 |> putBit p |> putBit u |> put 0b0#1 |> putBit w |> put 0b0#1 |> put rn |> put rd |> put 0b0000#4 |> put 0b1#1 |> put 0b1#1 |> put 0b0#1 |> put 0b1#1 |> put rm
  | .strd cond p u w rn rd (.imm immH immL) =>
    cond.toNat |> put 0b000#3 |> putBit p |> putBit u |> put 0b1#1 |> putBit w |> put 0b0#1 |> put rn |> put rd |> put immH |> put 0b1#1 |> put 0b1#1 |> put 0b1#1 |> put 0b1#1 |> put immL
  | .strd cond p u w rn rd (.reg rm) =>
    cond.toNat |> put 0b000#3 |> putBit p |> putBit u |> put 0b0#1 |> putBit w |> put 0b0#1 |> put rn |> put rd |> put 0b0000#4 |> put 0b1#1 |> put 0b1#1 |> put 0b1#1 |> put 0b1#1 |> put rm
  | .ldm1 cond p u w rn list =>
    cond.toNat |> put 0b100#3 |> putBit p |> putBit u |> put 0b0#1 |> putBit w |> put 0b1#1 |> put rn |> put list
  | .ldm2 cond p u w rn list =>
    cond.toNat |> put 0b100#3 |> putBit p |> putBit u |> put 0b1#1 |> putBit w |> put 0b1#1 |> put rn |> put 0b0#1 |> put list
  | .ldm3 cond p u w rn list =>
    cond.toNat |> put 0b100#3 |> putBit p |> putBit u |> put 0b1#1 |> putBit w |> put 0b1#1 |> put rn |> put 0b1#1 |> put list
  | .stm1 cond p u w rn list =>
    cond.toNat |> put 0b100#3 |> putBit p |> putBit u |> put 0b0#1 |> putBit w |> put 0b0#1 |> put rn |> put list
  | .stm2 cond p u w rn list =>
    cond.toNat |> put 0b100#3 |> putBit p |> putBit u |> put 0b1#1 |> putBit w |> put 0b0#1 |> put rn |> put list
  | .swp cond rn rd rm =>
    cond.toNat |> put 0b000#3 |> put 0b1000#4 |> put 0b0#1 |> put rn |> put rd |> put 0b0000#4 |> put 0b1#1 |> put 0b0#1 |> put 0b0#1 |> put 0b1#1 |> put rm
  | .swpb cond rn rd rm =>
    cond.toNat |> put 0b000#3 |> put 0b1010#4 |> put 0b0#1 |> put rn |> put rd |> put 0b0000#4 |> put 0b1#1 |> put 0b0#1 |> put 0b0#1 |> put 0b1#1 |> put rm
  | .pldImm u rn off12 =>
    15 |> put 0b010#3 |> put 0b1#1 |> putBit u |> put 0b1#1 |> put 0b0#1 |> put 0b1#1 |> put rn |> put 0b1111#4 |> put off12
  | .pldReg u rn amt sh rm =>
    15 |> put 0b011#3 |> put 0b1#1 |> putBit u |> put 0b1#1 |> put 0b0#1 |> put 0b1#1 |> put rn |> put 0b1111#4 |> put amt |> put sh |> put 0b0#1 |> put rm
  | .b cond imm24 =>
    cond.toNat |> put 0b101#3 |> put 0b0#1 |> put imm24
  | .bl cond imm24 =>
    cond.toNat |> put 0b101#3 |> put 0b1#1 |> put imm24
  | .blx1 h imm24 =>
    15 |> put 0b101#3 |> putBit h |> put imm24
  | .blx2 cond rm =>
    cond.toNat |> put 0b000#3 |> put 0b1001#4 |> put 0b0#1 |> put 0b1111#4 |> put 0b1111#4 |> put 0b1111#4 |> put 0b0011#4 |> put rm
  | .bx cond rm =>
    cond.toNat |> put 0b000#3 |> put 0b1001#4 |> put 0b0#1 |> put 0b1111#4 |> put 0b1111#4 |> put 0b1111#4 |> put 0b0001#4 |> put rm
  | .mrs cond r rd =>
    cond.toNat |> put 0b000#3 |> put 0b1#1 |> put 0b0#1 |> putBit r |> put 0b0#1 |> put 0b0#1 |> put 0b1111#4 |> put rd |> put 0b0000#4 |> put 0b0000#4 |> put 0b0000#4
  | .msrReg cond r mask rm =>
    cond.toNat |> put 0b000#3 |> put 0b1#1 |> put 0b0#1 |> putBit r |> put 0b1#1 |> put 0b0#1 |> put mask |> put 0b1111#4 |> put 0b0000#4 |> put 0b0000#4 |> put rm
  | .msrImm cond r mask rot imm8 =>
    cond.toNat |> put 0b001#3 |> put 0b1#1 |> put 0b0#1 |> putBit r |> put 0b1#1 |> put 0b0#1 |> put mask |> put 0b1111#4 |> put rot |> put imm8
  | .swi cond imm24 =>
    cond.toNat |> put 0b111#3 |> put 0b1#1 |> put imm24
  | .bkpt immHi immLo =>
    14 |> put 0b000#3 |> put 0b1001#4 |> put 0b0#1 |> put immHi |> put 0b0111#4 |> put immLo
  | .cdp cond opc1 crn crd cp opc2 crm =>
    cond.toNat |> put 0b111#3 |> put 0b0#1 |> put opc1 |> put crn |> put crd |> put cp |> put opc2 |> put 0b0#1 |> put crm
  | .mcr cond opc1 crn rd cp opc2 crm =>
    cond.toNat |> put 0b111#3 |> put 0b0#1 |> put opc1 |> put 0b0#1 |> put crn |> put rd |> put cp |> put opc2 |> put 0b1#1 |> put crm
  | .mrc cond opc1 crn rd cp opc2 crm =>
    cond.toNat |> put 0b111#3 |> put 0b0#1 |> put opc1 |> put 0b1#1 |> put crn |> put rd |> put cp |> put opc2 |> put 0b1#1 |> put crm
  | .ldcOffset cond u n w rn crd cp off8 =>
    cond.toNat |> put 0b110#3 |> put 0b1#1 |> putBit u |> putBit n |> putBit w |> put 0b1#1 |> put rn |> put crd |> put cp |> put off8
  | .ldcPost cond u n rn crd cp off8 =>
    cond.toNat |> put 0b110#3 |> put 0b0#1 |> putBit u |> putBit n |> put 0b1#1 |> put 0b1#1 |> put rn |> put crd |> put cp |> put off8
  | .ldcUnindexed cond n rn crd cp option =>
    cond.toNat |> put 0b110#3 |> put 0b0#1 |> put 0b1#1 |> putBit n |> put 0b0#1 |> put 0b1#1 |> put rn |> put crd |> put cp |> put option
  | .stcOffset cond u n w rn crd cp off8 =>
    cond.toNat |> put 0b110#3 |> put 0b1#1 |> putBit u |> putBit n |> putBit w |> put 0b0#1 |> put rn |> put crd |> put cp |> put off8
  | .stcPost cond u n rn crd cp off8 =>
    cond.toNat |> put 0b110#3 |> put 0b0#1 |> putBit u |> putBit n |> put 0b1#1 |> put 0b0#1 |> put rn |> put crd |> put cp |> put off8
  | .stcUnindexed cond n rn crd cp option =>
    cond.toNat |> put 0b110#3 |> put 0b0#1 |> put 0b1#1 |> putBit n |> put 0b0#1 |> put 0b0#1 |> put rn |> put crd |> put cp |> put option
  | .mcrr cond rn rd cp opc crm =>
    cond.toNat |> put 0b110#3 |> put 0b0#1 |> put 0b0#1 |> put 0b1#1 |> put 0b0#1 |> put 0b0#1 |> put rn |> put rd |> put cp |> put opc |> put crm
  | .mrrc cond rn rd cp opc crm =>
    cond.toNat |> put 0b110#3 |> put 0b0#1 |> put 0b0#1 |> put 0b1#1 |> put 0b0#1 |> put 0b1#1 |> put rn |> put rd |> put cp |> put opc |> put crm
  | .mia cond rs acc rm =>
    cond.toNat |> put 0b111#3 |> put 0b0#1 |> put 0b001#3 |> put 0b0#1 |> put 0b0000#4 |> put rs |> put 0b0000#4 |> put acc |> put 0b1#1 |> put rm
  | .miaph cond rs acc rm =>
    cond.toNat |> put 0b111#3 |> put 0b0#1 |> put 0b001#3 |> put 0b0#1 |> put 0b1000#4 |> put rs |> put 0b0000#4 |> put acc |> put 0b1#1 |> put rm
  | .miabb cond rs acc rm =>
    cond.toNat |> put 0b111#3 |> put 0b0#1 |> put 0b001#3 |> put 0b0#1 |> put 0b1100#4 |> put rs |> put 0b0000#4 |> put acc |> put 0b1#1 |> put rm
  | .miabt cond rs acc rm =>
    cond.toNat |> put 0b111#3 |> put 0b0#1 |> put 0b001#3 |> put 0b0#1 |> put 0b1101#4 |> put rs |> put 0b0000#4 |> put acc |> put 0b1#1 |> put rm
  | .miatb cond rs acc rm =>
    cond.toNat |> put 0b111#3 |> put 0b0#1 |> put 0b001#3 |> put 0b0#1 |> put 0b1110#4 |> put rs |> put 0b0000#4 |> put acc |> put 0b1#1 |> put rm
  | .miatt cond rs acc rm =>
    cond.toNat |> put 0b111#3 |> put 0b0#1 |> put 0b001#3 |> put 0b0#1 |> put 0b1111#4 |> put rs |> put 0b0000#4 |> put acc |> put 0b1#1 |> put rm
  | .mar cond rdHi rdLo acc =>
    cond.toNat |> put 0b110#3 |> put 0b0#1 |> put 0b0#1 |> put 0b1#1 |> put 0b0#1 |> put 0b0#1 |> put rdHi |> put rdLo |> put 0b0000#4 |> put 0b0000#4 |> put 0b0#1 |> put acc
  | .mra cond rdHi rdLo acc =>
    cond.toNat |> put 0b110#3 |> put 0b0#1 |> put 0b0#1 |> put 0b1#1 |> put 0b0#1 |> put 0b1#1 |> put rdHi |> put rdLo |> put 0b0000#4 |> put 0b0000#4 |> put 0b0#1 |> put acc
  | .undefMedia cond anyHi anyLo =>
    cond.toNat |> put 0b011#3 |> put anyHi |> put 0b1#1 |> put anyLo
  | .undefMsrImm cond r any =>
    cond.toNat |> put 0b001#3 |> put 0b1#1 |> put 0b0#1 |> putBit r |> put 0b0#1 |> put 0b0#1 |> put any
  | .mrcId cond rd =>
    cond.toNat |> put 0b111#3 |> put 0b0#1 |> put 0b000#3 |> put 0b1#1 |> put 0b0000#4 |> put rd |> put 0b1111#4 |> put 0b000#3 |> put 0b1#1 |> put 0b0000#4
  | .mcrId cond rd =>
    cond.toNat |> put 0b111#3 |> put 0b0#1 |> put 0b000#3 |> put 0b0#1 |> put 0b0000#4 |> put rd |> put 0b1111#4 |> put 0b000#3 |> put 0b1#1 |> put 0b0000#4
  | .mrcCacheType cond rd =>
    cond.toNat |> put 0b111#3 |> put 0b0#1 |> put 0b000#3 |> put 0b1#1 |> put 0b0000#4 |> put rd |> put 0b1111#4 |> put 0b001#3 |> put 0b1#1 |> put 0b0000#4
  | .mcrCacheType cond rd =>
    cond.toNat |> put 0b111#3 |> put 0b0#1 |> put 0b000#3 |> put 0b0#1 |> put 0b0000#4 |> put rd |> put 0b1111#4 |> put 0b001#3 |> put 0b1#1 |> put 0b0000#4
  | .mrcControl cond rd =>
    cond.toNat |> put 0b111#3 |> put 0b0#1 |> put 0b000#3 |> put 0b1#1 |> put 0b0001#4 |> put rd |> put 0b1111#4 |> put 0b000#3 |> put 0b1#1 |> put 0b0000#4
  | .mcrControl cond rd =>
    cond.toNat |> put 0b111#3 |> put 0b0#1 |> put 0b000#3 |> put 0b0#1 |> put 0b0001#4 |> put rd |> put 0b1111#4 |> put 0b000#3 |> put 0b1#1 |> put 0b0000#4
  | .mrcAuxControl cond rd =>
    cond.toNat |> put 0b111#3 |> put 0b0#1 |> put 0b000#3 |> put 0b1#1 |> put 0b0001#4 |> put rd |> put 0b1111#4 |> put 0b001#3 |> put 0b1#1 |> put 0b0000#4
  | .mcrAuxControl cond rd =>
    cond.toNat |> put 0b111#3 |> put 0b0#1 |> put 0b000#3 |> put 0b0#1 |> put 0b0001#4 |> put rd |> put 0b1111#4 |> put 0b001#3 |> put 0b1#1 |> put 0b0000#4
  | .mrcTtb cond rd =>
    cond.toNat |> put 0b111#3 |> put 0b0#1 |> put 0b000#3 |> put 0b1#1 |> put 0b0010#4 |> put rd |> put 0b1111#4 |> put 0b000#3 |> put 0b1#1 |> put 0b0000#4
  | .mcrTtb cond rd =>
    cond.toNat |> put 0b111#3 |> put 0b0#1 |> put 0b000#3 |> put 0b0#1 |> put 0b0010#4 |> put rd |> put 0b1111#4 |> put 0b000#3 |> put 0b1#1 |> put 0b0000#4
  | .mrcDacr cond rd =>
    cond.toNat |> put 0b111#3 |> put 0b0#1 |> put 0b000#3 |> put 0b1#1 |> put 0b0011#4 |> put rd |> put 0b1111#4 |> put 0b000#3 |> put 0b1#1 |> put 0b0000#4
  | .mcrDacr cond rd =>
    cond.toNat |> put 0b111#3 |> put 0b0#1 |> put 0b000#3 |> put 0b0#1 |> put 0b0011#4 |> put rd |> put 0b1111#4 |> put 0b000#3 |> put 0b1#1 |> put 0b0000#4
  | .mrcFsr cond rd =>
    cond.toNat |> put 0b111#3 |> put 0b0#1 |> put 0b000#3 |> put 0b1#1 |> put 0b0101#4 |> put rd |> put 0b1111#4 |> put 0b000#3 |> put 0b1#1 |> put 0b0000#4
  | .mcrFsr cond rd =>
    cond.toNat |> put 0b111#3 |> put 0b0#1 |> put 0b000#3 |> put 0b0#1 |> put 0b0101#4 |> put rd |> put 0b1111#4 |> put 0b000#3 |> put 0b1#1 |> put 0b0000#4
  | .mrcFar cond rd =>
    cond.toNat |> put 0b111#3 |> put 0b0#1 |> put 0b000#3 |> put 0b1#1 |> put 0b0110#4 |> put rd |> put 0b1111#4 |> put 0b000#3 |> put 0b1#1 |> put 0b0000#4
  | .mcrFar cond rd =>
    cond.toNat |> put 0b111#3 |> put 0b0#1 |> put 0b000#3 |> put 0b0#1 |> put 0b0110#4 |> put rd |> put 0b1111#4 |> put 0b000#3 |> put 0b1#1 |> put 0b0000#4
  | .mcrInvIDCacheBtb cond rd =>
    cond.toNat |> put 0b111#3 |> put 0b0#1 |> put 0b000#3 |> put 0b0#1 |> put 0b0111#4 |> put rd |> put 0b1111#4 |> put 0b000#3 |> put 0b1#1 |> put 0b0111#4
  | .mcrInvICacheBtb cond rd =>
    cond.toNat |> put 0b111#3 |> put 0b0#1 |> put 0b000#3 |> put 0b0#1 |> put 0b0111#4 |> put rd |> put 0b1111#4 |> put 0b000#3 |> put 0b1#1 |> put 0b0101#4
  | .mcrInvICacheLine cond rd =>
    cond.toNat |> put 0b111#3 |> put 0b0#1 |> put 0b000#3 |> put 0b0#1 |> put 0b0111#4 |> put rd |> put 0b1111#4 |> put 0b001#3 |> put 0b1#1 |> put 0b0101#4
  | .mcrInvDCache cond rd =>
    cond.toNat |> put 0b111#3 |> put 0b0#1 |> put 0b000#3 |> put 0b0#1 |> put 0b0111#4 |> put rd |> put 0b1111#4 |> put 0b000#3 |> put 0b1#1 |> put 0b0110#4
  | .mcrInvDCacheLine cond rd =>
    cond.toNat |> put 0b111#3 |> put 0b0#1 |> put 0b000#3 |> put 0b0#1 |> put 0b0111#4 |> put rd |> put 0b1111#4 |> put 0b001#3 |> put 0b1#1 |> put 0b0110#4
  | .mcrCleanDCacheLine cond rd =>
    cond.toNat |> put 0b111#3 |> put 0b0#1 |> put 0b000#3 |> put 0b0#1 |> put 0b0111#4 |> put rd |> put 0b1111#4 |> put 0b001#3 |> put 0b1#1 |> put 0b1010#4
  | .mcrDrainWriteBuffer cond rd =>
    cond.toNat |> put 0b111#3 |> put 0b0#1 |> put 0b000#3 |> put 0b0#1 |> put 0b0111#4 |> put rd |> put 0b1111#4 |> put 0b100#3 |> put 0b1#1 |> put 0b1010#4
  | .mcrInvBtb cond rd =>
    cond.toNat |> put 0b111#3 |> put 0b0#1 |> put 0b000#3 |> put 0b0#1 |> put 0b0111#4 |> put rd |> put 0b1111#4 |> put 0b110#3 |> put 0b1#1 |> put 0b0101#4
  | .mcrAllocateDLine cond rd =>
    cond.toNat |> put 0b111#3 |> put 0b0#1 |> put 0b000#3 |> put 0b0#1 |> put 0b0111#4 |> put rd |> put 0b1111#4 |> put 0b101#3 |> put 0b1#1 |> put 0b0010#4
  | .mcrInvIDTlb cond rd =>
    cond.toNat |> put 0b111#3 |> put 0b0#1 |> put 0b000#3 |> put 0b0#1 |> put 0b1000#4 |> put rd |> put 0b1111#4 |> put 0b000#3 |> put 0b1#1 |> put 0b0111#4
  | .mcrInvITlb cond rd =>
    cond.toNat |> put 0b111#3 |> put 0b0#1 |> put 0b000#3 |> put 0b0#1 |> put 0b1000#4 |> put rd |> put 0b1111#4 |> put 0b000#3 |> put 0b1#1 |> put 0b0101#4
  | .mcrInvITlbEntry cond rd =>
    cond.toNat |> put 0b111#3 |> put 0b0#1 |> put 0b000#3 |> put 0b0#1 |> put 0b1000#4 |> put rd |> put 0b1111#4 |> put 0b001#3 |> put 0b1#1 |> put 0b0101#4
  | .mcrInvDTlb cond rd =>
    cond.toNat |> put 0b111#3 |> put 0b0#1 |> put 0b000#3 |> put 0b0#1 |> put 0b1000#4 |> put rd |> put 0b1111#4 |> put 0b000#3 |> put 0b1#1 |> put 0b0110#4
  | .mcrInvDTlbEntry cond rd =>
    cond.toNat |> put 0b111#3 |> put 0b0#1 |> put 0b000#3 |> put 0b0#1 |> put 0b1000#4 |> put rd |> put 0b1111#4 |> put 0b001#3 |> put 0b1#1 |> put 0b0110#4
  | .mcrLockILine cond rd =>
    cond.toNat |> put 0b111#3 |> put 0b0#1 |> put 0b000#3 |> put 0b0#1 |> put 0b1001#4 |> put rd |> put 0b1111#4 |> put 0b000#3 |> put 0b1#1 |> put 0b0001#4
  | .mcrUnlockICache cond rd =>
    cond.toNat |> put 0b111#3 |> put 0b0#1 |> put 0b000#3 |> put 0b0#1 |> put 0b1001#4 |> put rd |> put 0b1111#4 |> put 0b001#3 |> put 0b1#1 |> put 0b0001#4
  | .mrcDCacheLock cond rd =>
    cond.toNat |> put 0b111#3 |> put 0b0#1 |> put 0b000#3 |> put 0b1#1 |> put 0b1001#4 |> put rd |> put 0b1111#4 |> put 0b000#3 |> put 0b1#1 |> put 0b0010#4
  | .mcrDCacheLock cond rd =>
    cond.toNat |> put 0b111#3 |> put 0b0#1 |> put 0b000#3 |> put 0b0#1 |> put 0b1001#4 |> put rd |> put 0b1111#4 |> put 0b000#3 |> put 0b1#1 |> put 0b0010#4
  | .mcrUnlockDCache cond rd =>
    cond.toNat |> put 0b111#3 |> put 0b0#1 |> put 0b000#3 |> put 0b0#1 |> put 0b1001#4 |> put rd |> put 0b1111#4 |> put 0b001#3 |> put 0b1#1 |> put 0b0010#4
  | .mcrLockITlbEntry cond rd =>
    cond.toNat |> put 0b111#3 |> put 0b0#1 |> put 0b000#3 |> put 0b0#1 |> put 0b1010#4 |> put rd |> put 0b1111#4 |> put 0b000#3 |> put 0b1#1 |> put 0b0100#4
  | .mcrLockDTlbEntry cond rd =>
    cond.toNat |> put 0b111#3 |> put 0b0#1 |> put 0b000#3 |> put 0b0#1 |> put 0b1010#4 |> put rd |> put 0b1111#4 |> put 0b000#3 |> put 0b1#1 |> put 0b1000#4
  | .mcrUnlockITlb cond rd =>
    cond.toNat |> put 0b111#3 |> put 0b0#1 |> put 0b000#3 |> put 0b0#1 |> put 0b1010#4 |> put rd |> put 0b1111#4 |> put 0b001#3 |> put 0b1#1 |> put 0b0100#4
  | .mcrUnlockDTlb cond rd =>
    cond.toNat |> put 0b111#3 |> put 0b0#1 |> put 0b000#3 |> put 0b0#1 |> put 0b1010#4 |> put rd |> put 0b1111#4 |> put 0b001#3 |> put 0b1#1 |> put 0b1000#4
  | .mrcPid cond rd =>
    cond.toNat |> put 0b111#3 |> put 0b0#1 |> put 0b000#3 |> put 0b1#1 |> put 0b1101#4 |> put rd |> put 0b1111#4 |> put 0b000#3 |> put 0b1#1 |> put 0b0000#4
  | .mcrPid cond rd =>
    cond.toNat |> put 0b111#3 |> put 0b0#1 |> put 0b000#3 |> put 0b0#1 |> put 0b1101#4 |> put rd |> put 0b1111#4 |> put 0b000#3 |> put 0b1#1 |> put 0b0000#4
  | .mrcIbcr0 cond rd =>
    cond.toNat |> put 0b111#3 |> put 0b0#1 |> put 0b000#3 |> put 0b1#1 |> put 0b1110#4 |> put rd |> put 0b1111#4 |> put 0b000#3 |> put 0b1#1 |> put 0b1000#4
  | .mcrIbcr0 cond rd =>
    cond.toNat |> put 0b111#3 |> put 0b0#1 |> put 0b000#3 |> put 0b0#1 |> put 0b1110#4 |> put rd |> put 0b1111#4 |> put 0b000#3 |> put 0b1#1 |> put 0b1000#4
  | .mrcIbcr1 cond rd =>
    cond.toNat |> put 0b111#3 |> put 0b0#1 |> put 0b000#3 |> put 0b1#1 |> put 0b1110#4 |> put rd |> put 0b1111#4 |> put 0b000#3 |> put 0b1#1 |> put 0b1001#4
  | .mcrIbcr1 cond rd =>
    cond.toNat |> put 0b111#3 |> put 0b0#1 |> put 0b000#3 |> put 0b0#1 |> put 0b1110#4 |> put rd |> put 0b1111#4 |> put 0b000#3 |> put 0b1#1 |> put 0b1001#4
  | .mrcDbr0 cond rd =>
    cond.toNat |> put 0b111#3 |> put 0b0#1 |> put 0b000#3 |> put 0b1#1 |> put 0b1110#4 |> put rd |> put 0b1111#4 |> put 0b000#3 |> put 0b1#1 |> put 0b0000#4
  | .mcrDbr0 cond rd =>
    cond.toNat |> put 0b111#3 |> put 0b0#1 |> put 0b000#3 |> put 0b0#1 |> put 0b1110#4 |> put rd |> put 0b1111#4 |> put 0b000#3 |> put 0b1#1 |> put 0b0000#4
  | .mrcDbr1 cond rd =>
    cond.toNat |> put 0b111#3 |> put 0b0#1 |> put 0b000#3 |> put 0b1#1 |> put 0b1110#4 |> put rd |> put 0b1111#4 |> put 0b000#3 |> put 0b1#1 |> put 0b0011#4
  | .mcrDbr1 cond rd =>
    cond.toNat |> put 0b111#3 |> put 0b0#1 |> put 0b000#3 |> put 0b0#1 |> put 0b1110#4 |> put rd |> put 0b1111#4 |> put 0b000#3 |> put 0b1#1 |> put 0b0011#4
  | .mrcDbcon cond rd =>
    cond.toNat |> put 0b111#3 |> put 0b0#1 |> put 0b000#3 |> put 0b1#1 |> put 0b1110#4 |> put rd |> put 0b1111#4 |> put 0b000#3 |> put 0b1#1 |> put 0b0100#4
  | .mcrDbcon cond rd =>
    cond.toNat |> put 0b111#3 |> put 0b0#1 |> put 0b000#3 |> put 0b0#1 |> put 0b1110#4 |> put rd |> put 0b1111#4 |> put 0b000#3 |> put 0b1#1 |> put 0b0100#4
  | .mrcCpar cond rd =>
    cond.toNat |> put 0b111#3 |> put 0b0#1 |> put 0b000#3 |> put 0b1#1 |> put 0b1111#4 |> put rd |> put 0b1111#4 |> put 0b000#3 |> put 0b1#1 |> put 0b0001#4
  | .mcrCpar cond rd =>
    cond.toNat |> put 0b111#3 |> put 0b0#1 |> put 0b000#3 |> put 0b0#1 |> put 0b1111#4 |> put rd |> put 0b1111#4 |> put 0b000#3 |> put 0b1#1 |> put 0b0001#4
  | .mrcPmnc cond rd =>
    cond.toNat |> put 0b111#3 |> put 0b0#1 |> put 0b000#3 |> put 0b1#1 |> put 0b0000#4 |> put rd |> put 0b1110#4 |> put 0b000#3 |> put 0b1#1 |> put 0b0000#4
  | .mcrPmnc cond rd =>
    cond.toNat |> put 0b111#3 |> put 0b0#1 |> put 0b000#3 |> put 0b0#1 |> put 0b0000#4 |> put rd |> put 0b1110#4 |> put 0b000#3 |> put 0b1#1 |> put 0b0000#4
  | .mrcCcnt cond rd =>
    cond.toNat |> put 0b111#3 |> put 0b0#1 |> put 0b000#3 |> put 0b1#1 |> put 0b0001#4 |> put rd |> put 0b1110#4 |> put 0b000#3 |> put 0b1#1 |> put 0b0000#4
  | .mcrCcnt cond rd =>
    cond.toNat |> put 0b111#3 |> put 0b0#1 |> put 0b000#3 |> put 0b0#1 |> put 0b0001#4 |> put rd |> put 0b1110#4 |> put 0b000#3 |> put 0b1#1 |> put 0b0000#4
  | .mrcPmn0 cond rd =>
    cond.toNat |> put 0b111#3 |> put 0b0#1 |> put 0b000#3 |> put 0b1#1 |> put 0b0010#4 |> put rd |> put 0b1110#4 |> put 0b000#3 |> put 0b1#1 |> put 0b0000#4
  | .mcrPmn0 cond rd =>
    cond.toNat |> put 0b111#3 |> put 0b0#1 |> put 0b000#3 |> put 0b0#1 |> put 0b0010#4 |> put rd |> put 0b1110#4 |> put 0b000#3 |> put 0b1#1 |> put 0b0000#4
  | .mrcPmn1 cond rd =>
    cond.toNat |> put 0b111#3 |> put 0b0#1 |> put 0b000#3 |> put 0b1#1 |> put 0b0011#4 |> put rd |> put 0b1110#4 |> put 0b000#3 |> put 0b1#1 |> put 0b0000#4
  | .mcrPmn1 cond rd =>
    cond.toNat |> put 0b111#3 |> put 0b0#1 |> put 0b000#3 |> put 0b0#1 |> put 0b0011#4 |> put rd |> put 0b1110#4 |> put 0b000#3 |> put 0b1#1 |> put 0b0000#4
  | .mrcCclkcfg cond rd =>
    cond.toNat |> put 0b111#3 |> put 0b0#1 |> put 0b000#3 |> put 0b1#1 |> put 0b0110#4 |> put rd |> put 0b1110#4 |> put 0b000#3 |> put 0b1#1 |> put 0b0000#4
  | .mcrCclkcfg cond rd =>
    cond.toNat |> put 0b111#3 |> put 0b0#1 |> put 0b000#3 |> put 0b0#1 |> put 0b0110#4 |> put rd |> put 0b1110#4 |> put 0b000#3 |> put 0b1#1 |> put 0b0000#4
  | .mrcPwrmode cond rd =>
    cond.toNat |> put 0b111#3 |> put 0b0#1 |> put 0b000#3 |> put 0b1#1 |> put 0b0111#4 |> put rd |> put 0b1110#4 |> put 0b000#3 |> put 0b1#1 |> put 0b0000#4
  | .mcrPwrmode cond rd =>
    cond.toNat |> put 0b111#3 |> put 0b0#1 |> put 0b000#3 |> put 0b0#1 |> put 0b0111#4 |> put rd |> put 0b1110#4 |> put 0b000#3 |> put 0b1#1 |> put 0b0000#4
  | .mrcTx cond rd =>
    cond.toNat |> put 0b111#3 |> put 0b0#1 |> put 0b000#3 |> put 0b1#1 |> put 0b1000#4 |> put rd |> put 0b1110#4 |> put 0b000#3 |> put 0b1#1 |> put 0b0000#4
  | .mcrTx cond rd =>
    cond.toNat |> put 0b111#3 |> put 0b0#1 |> put 0b000#3 |> put 0b0#1 |> put 0b1000#4 |> put rd |> put 0b1110#4 |> put 0b000#3 |> put 0b1#1 |> put 0b0000#4
  | .mrcRx cond rd =>
    cond.toNat |> put 0b111#3 |> put 0b0#1 |> put 0b000#3 |> put 0b1#1 |> put 0b1001#4 |> put rd |> put 0b1110#4 |> put 0b000#3 |> put 0b1#1 |> put 0b0000#4
  | .mcrRx cond rd =>
    cond.toNat |> put 0b111#3 |> put 0b0#1 |> put 0b000#3 |> put 0b0#1 |> put 0b1001#4 |> put rd |> put 0b1110#4 |> put 0b000#3 |> put 0b1#1 |> put 0b0000#4
  | .mrcDcsr cond rd =>
    cond.toNat |> put 0b111#3 |> put 0b0#1 |> put 0b000#3 |> put 0b1#1 |> put 0b1010#4 |> put rd |> put 0b1110#4 |> put 0b000#3 |> put 0b1#1 |> put 0b0000#4
  | .mcrDcsr cond rd =>
    cond.toNat |> put 0b111#3 |> put 0b0#1 |> put 0b000#3 |> put 0b0#1 |> put 0b1010#4 |> put rd |> put 0b1110#4 |> put 0b000#3 |> put 0b1#1 |> put 0b0000#4
  | .mrcTbreg cond rd =>
    cond.toNat |> put 0b111#3 |> put 0b0#1 |> put 0b000#3 |> put 0b1#1 |> put 0b1011#4 |> put rd |> put 0b1110#4 |> put 0b000#3 |> put 0b1#1 |> put 0b0000#4
  | .mcrTbreg cond rd =>
    cond.toNat |> put 0b111#3 |> put 0b0#1 |> put 0b000#3 |> put 0b0#1 |> put 0b1011#4 |> put rd |> put 0b1110#4 |> put 0b000#3 |> put 0b1#1 |> put 0b0000#4
  | .mrcChkpt0 cond rd =>
    cond.toNat |> put 0b111#3 |> put 0b0#1 |> put 0b000#3 |> put 0b1#1 |> put 0b1100#4 |> put rd |> put 0b1110#4 |> put 0b000#3 |> put 0b1#1 |> put 0b0000#4
  | .mcrChkpt0 cond rd =>
    cond.toNat |> put 0b111#3 |> put 0b0#1 |> put 0b000#3 |> put 0b0#1 |> put 0b1100#4 |> put rd |> put 0b1110#4 |> put 0b000#3 |> put 0b1#1 |> put 0b0000#4
  | .mrcChkpt1 cond rd =>
    cond.toNat |> put 0b111#3 |> put 0b0#1 |> put 0b000#3 |> put 0b1#1 |> put 0b1101#4 |> put rd |> put 0b1110#4 |> put 0b000#3 |> put 0b1#1 |> put 0b0000#4
  | .mcrChkpt1 cond rd =>
    cond.toNat |> put 0b111#3 |> put 0b0#1 |> put 0b000#3 |> put 0b0#1 |> put 0b1101#4 |> put rd |> put 0b1110#4 |> put 0b000#3 |> put 0b1#1 |> put 0b0000#4
  | .mrcTxrxctrl cond rd =>
    cond.toNat |> put 0b111#3 |> put 0b0#1 |> put 0b000#3 |> put 0b1#1 |> put 0b1110#4 |> put rd |> put 0b1110#4 |> put 0b000#3 |> put 0b1#1 |> put 0b0000#4
  | .mcrTxrxctrl cond rd =>
    cond.toNat |> put 0b111#3 |> put 0b0#1 |> put 0b000#3 |> put 0b0#1 |> put 0b1110#4 |> put rd |> put 0b1110#4 |> put 0b000#3 |> put 0b1#1 |> put 0b0000#4
  | .tLsl1 imm5 rm rd =>
    0 |> put imm5 |> put rm |> put rd
  | .tLsr1 imm5 rm rd =>
    1 |> put imm5 |> put rm |> put rd
  | .tAsr1 imm5 rm rd =>
    2 |> put imm5 |> put rm |> put rd
  | .tAdd3 rm rn rd =>
    3 |> put 0b0#1 |> put 0b0#1 |> put rm |> put rn |> put rd
  | .tSub3 rm rn rd =>
    3 |> put 0b0#1 |> put 0b1#1 |> put rm |> put rn |> put rd
  | .tAdd1 imm3 rn rd =>
    3 |> put 0b1#1 |> put 0b0#1 |> put imm3 |> put rn |> put rd
  | .tSub1 imm3 rn rd =>
    3 |> put 0b1#1 |> put 0b1#1 |> put imm3 |> put rn |> put rd
  | .tMov1 rd imm8 =>
    4 |> put rd |> put imm8
  | .tCmp1 rn imm8 =>
    5 |> put rn |> put imm8
  | .tAdd2 rd imm8 =>
    6 |> put rd |> put imm8
  | .tSub2 rd imm8 =>
    7 |> put rd |> put imm8
  | .tAnd rm rd =>
    8 |> put 0b0#1 |> put 0b0000#4 |> put rm |> put rd
  | .tEor rm rd =>
    8 |> put 0b0#1 |> put 0b0001#4 |> put rm |> put rd
  | .tLsl2 rs rd =>
    8 |> put 0b0#1 |> put 0b0010#4 |> put rs |> put rd
  | .tLsr2 rs rd =>
    8 |> put 0b0#1 |> put 0b0011#4 |> put rs |> put rd
  | .tAsr2 rs rd =>
    8 |> put 0b0#1 |> put 0b0100#4 |> put rs |> put rd
  | .tAdc rm rd =>
    8 |> put 0b0#1 |> put 0b0101#4 |> put rm |> put rd
  | .tSbc rm rd =>
    8 |> put 0b0#1 |> put 0b0110#4 |> put rm |> put rd
  | .tRor rs rd =>
    8 |> put 0b0#1 |> put 0b0111#4 |> put rs |> put rd
  | .tTst rm rn =>
    8 |> put 0b0#1 |> put 0b1000#4 |> put rm |> put rn
  | .tNeg rm rd =>
    8 |> put 0b0#1 |> put 0b1001#4 |> put rm |> put rd
  | .tCmp2 rm rn =>
    8 |> put 0b0#1 |> put 0b1010#4 |> put rm |> put rn
  | .tCmn rm rn =>
    8 |> put 0b0#1 |> put 0b1011#4 |> put rm |> put rn
  | .tOrr rm rd =>
    8 |> put 0b0#1 |> put 0b1100#4 |> put rm |> put rd
  | .tMul rm rd =>
    8 |> put 0b0#1 |> put 0b1101#4 |> put rm |> put rd
  | .tBic rm rd =>
    8 |> put 0b0#1 |> put 0b1110#4 |> put rm |> put rd
  | .tMvn rm rd =>
    8 |> put 0b0#1 |> put 0b1111#4 |> put rm |> put rd
  | .tAdd4 h1 h2 rm rd =>
    8 |> put 0b1#1 |> put 0b0#1 |> put 0b0#1 |> putBit h1 |> putBit h2 |> put rm |> put rd
  | .tCmp3 h1 h2 rm rn =>
    8 |> put 0b1#1 |> put 0b0#1 |> put 0b1#1 |> putBit h1 |> putBit h2 |> put rm |> put rn
  | .tMov3 h1 h2 rm rd =>
    8 |> put 0b1#1 |> put 0b1#1 |> put 0b0#1 |> putBit h1 |> putBit h2 |> put rm |> put rd
  | .tBx h2 rm =>
    8 |> put 0b1#1 |> put 0b1#1 |> put 0b1#1 |> put 0b0#1 |> putBit h2 |> put rm |> put 0b00#2 |> put 0b0#1
  | .tBlx2 h2 rm =>
    8 |> put 0b1#1 |> put 0b1#1 |> put 0b1#1 |> put 0b1#1 |> putBit h2 |> put rm |> put 0b00#2 |> put 0b0#1
  | .tLdr3 rd imm8 =>
    9 |> put rd |> put imm8
  | .tStr2 rm rn rd =>
    10 |> put 0b0#1 |> put 0b0#1 |> put rm |> put rn |> put rd
  | .tStrh2 rm rn rd =>
    10 |> put 0b0#1 |> put 0b1#1 |> put rm |> put rn |> put rd
  | .tStrb2 rm rn rd =>
    10 |> put 0b1#1 |> put 0b0#1 |> put rm |> put rn |> put rd
  | .tLdrsb rm rn rd =>
    10 |> put 0b1#1 |> put 0b1#1 |> put rm |> put rn |> put rd
  | .tLdr2 rm rn rd =>
    11 |> put 0b0#1 |> put 0b0#1 |> put rm |> put rn |> put rd
  | .tLdrh2 rm rn rd =>
    11 |> put 0b0#1 |> put 0b1#1 |> put rm |> put rn |> put rd
  | .tLdrb2 rm rn rd =>
    11 |> put 0b1#1 |> put 0b0#1 |> put rm |> put rn |> put rd
  | .tLdrsh rm rn rd =>
    11 |> put 0b1#1 |> put 0b1#1 |> put rm |> put rn |> put rd
  | .tStr1 imm5 rn rd =>
    12 |> put imm5 |> put rn |> put rd
  | .tLdr1 imm5 rn rd =>
    13 |> put imm5 |> put rn |> put rd
  | .tStrb1 imm5 rn rd =>
    14 |> put imm5 |> put rn |> put rd
  | .tLdrb1 imm5 rn rd =>
    15 |> put imm5 |> put rn |> put rd
  | .tStrh1 imm5 rn rd =>
    16 |> put imm5 |> put rn |> put rd
  | .tLdrh1 imm5 rn rd =>
    17 |> put imm5 |> put rn |> put rd
  | .tStr3 rd imm8 =>
    18 |> put rd |> put imm8
  | .tLdr4 rd imm8 =>
    19 |> put rd |> put imm8
  | .tAdd5 rd imm8 =>
    20 |> put rd |> put imm8
  | .tAdd6 rd imm8 =>
    21 |> put rd |> put imm8
  | .tAdd7 imm7 =>
    22 |> put 0b0#1 |> put 0b0#1 |> put 0b0#1 |> put 0b0#1 |> put imm7
  | .tSub4 imm7 =>
    22 |> put 0b0#1 |> put 0b0#1 |> put 0b0#1 |> put 0b1#1 |> put imm7
  | .tPush r list =>
    22 |> put 0b1#1 |> put 0b0#1 |> putBit r |> put list
  | .tPop r list =>
    23 |> put 0b1#1 |> put 0b0#1 |> putBit r |> put list
  | .tBkpt imm8 =>
    23 |> put 0b1#1 |> put 0b1#1 |> put 0b0#1 |> put imm8
  | .tUndefB1 x =>
    22 |> put 0b0#1 |> put 0b0#1 |> put 0b1#1 |> put x
  | .tUndefB2 x =>
    22 |> put 0b0#1 |> put 0b1#1 |> put 0b0#1 |> put x
  | .tUndefB3 x =>
    22 |> put 0b0#1 |> put 0b1#1 |> put 0b1#1 |> put x
  | .tUndefB6 x =>
    22 |> put 0b1#1 |> put 0b1#1 |> put 0b0#1 |> put x
  | .tUndefB7 x =>
    22 |> put 0b1#1 |> put 0b1#1 |> put 0b1#1 |> put x
  | .tUndefB8 x =>
    23 |> put 0b0#1 |> put x
  | .tUndefBF x =>
    23 |> put 0b1#1 |> put 0b1#1 |> put 0b1#1 |> put x
  | .tStmia rn list =>
    24 |> put rn |> put list
  | .tLdmia rn list =>
    25 |> put rn |> put list
  | .tB1Low condLo imm8 =>
    26 |> put condLo |> put imm8
  | .tB1Mid condLo imm8 =>
    27 |> put 0b0#1 |> put condLo |> put imm8
  | .tB1High condLo imm8 =>
    27 |> put 0b1#1 |> put 0b0#1 |> putBit condLo |> put imm8
  | .tUndefDE imm8 =>
    27 |> put 0b1#1 |> put 0b1#1 |> put 0b0#1 |> put imm8
  | .tSwi imm8 =>
    27 |> put 0b1#1 |> put 0b1#1 |> put 0b1#1 |> put imm8
  | .tB2 imm11 =>
    28 |> put imm11
  | .tBlxSuffix off10 =>
    29 |> put off10 |> put 0b0#1
  | .tUndefE801 x =>
    29 |> put x |> put 0b1#1
  | .tBlPrefix off11 =>
    30 |> put off11
  | .tBlSuffix off11 =>
    31 |> put off11

/-- The word of an ARM instruction. -/
def encodeArm (i : Instr) : Word := BitVec.ofNat 32 (encodeNat i)

/-- The halfword of a Thumb instruction. -/
def encodeThumb (i : Instr) : Half := BitVec.ofNat 16 (encodeNat i)

end Sys2Proof
end

