-- ==== Sys2Proof/Machine/Regs.lean ====
section
/-!
DEFINITION. The registers: modes and banks, the program counter as an operand, the status registers and their fields,
the fields of the CP15 and CP14 registers that other rules test, and the draw of a free value
(spec/10_state.md R20 to R29, R52 to R81).
-/

namespace Sys2Proof.Machine

/-! ### Modes -/

/-- The mode number, CPSR[4:0] (10_state.md R21). -/
def Mode.code : Mode → BitVec 5
  | .usr => 0b10000#5
  | .fiq => 0b10001#5
  | .irq => 0b10010#5
  | .svc => 0b10011#5
  | .dbg => 0b10101#5
  | .abt => 0b10111#5
  | .und => 0b11011#5
  | .sys => 0b11111#5

/-- The mode with this number; none where the number is illegal (10_state.md R21, U20). -/
def modeOf (m : BitVec 5) : Option Mode :=
  if m = 0b10000#5 then some .usr
  else if m = 0b10001#5 then some .fiq
  else if m = 0b10010#5 then some .irq
  else if m = 0b10011#5 then some .svc
  else if m = 0b10101#5 then some .dbg
  else if m = 0b10111#5 then some .abt
  else if m = 0b11011#5 then some .und
  else if m = 0b11111#5 then some .sys
  else none

/-- The mode of a status word. No write of the CPSR stores an illegal mode number; one reads as User. -/
def modeBits (w : Word) : Mode := (modeOf (w.extractLsb' 0 5)).getD .usr

/-- The current mode (10_state.md R21). -/
def State.mode (s : State) : Mode := modeBits s.cpsr

/-- InAPrivilegedMode: every mode but User. -/
def State.privileged (s : State) : Bool := s.mode != .usr

/-- The current mode is User or System, which have no SPSR (10_state.md R28). -/
def State.lacksSpsr (s : State) : Bool := s.mode == .usr || s.mode == .sys

/-- DEBUG mode or Special Debug State (48_debug_jtag.md R812). -/
def State.inDebug (s : State) : Bool := s.dbgUnit.sds || s.mode == .dbg

/-! ### General registers -/

/-- Where a mode keeps its R13; R14 follows it (10_state.md R21). -/
def Mode.bank : Mode → Nat
  | .usr => 18
  | .sys => 18
  | .fiq => 20
  | .irq => 22
  | .svc => 24
  | .dbg => 26
  | .abt => 28
  | .und => 30

/-- The physical register that R0 to R14 name in a mode (10_state.md R21): 0 to 12 are the shared R0 to R12,
13 to 17 are R8_fiq to R12_fiq, and from 18 on stand the pairs R13, R14. -/
def regIndex (m : Mode) (r : RegNum) : Fin 32 :=
  if r.toNat < 8 then Fin.ofNat 32 r.toNat
  else if r.toNat < 13 then
    if m = .fiq then Fin.ofNat 32 (r.toNat + 5) else Fin.ofNat 32 r.toNat
  else Fin.ofNat 32 (m.bank + (r.toNat - 13))

/-- R0 to R14 as a mode sees them. -/
def State.bankReg (s : State) (m : Mode) (r : RegNum) : Word := s.gpr[(regIndex m r).val]

/-- Write one of R0 to R14 as a mode sees them. -/
def State.setBankReg (s : State) (m : Mode) (r : RegNum) (v : Word) : State :=
  { s with gpr := s.gpr.set (regIndex m r).val v }

/-- T: the machine is in Thumb state (10_state.md R27). -/
def State.thumb (s : State) : Bool := s.cpsr.getLsbD 5

/-- What reading R15 gives: the address of the instruction plus 8, or plus 4 in Thumb state (10_state.md R24). -/
def State.pcRead (s : State) : Word := s.pc + (if s.thumb then 4#32 else 8#32)

/-- R0 to R15 as an operand in the current mode (10_state.md R20, R24). -/
def State.reg (s : State) (r : RegNum) : Word :=
  if r = 15#4 then s.pcRead else s.bankReg s.mode r

/-- Write R0 to R14 in the current mode. No meaning uses it for R15, whose write is a branch; it discards one. -/
def State.setReg (s : State) (r : RegNum) (v : Word) : State :=
  if r = 15#4 then s else s.setBankReg s.mode r v

/-- A Thumb register number R0 to R7. -/
def lowReg (r : BitVec 3) : RegNum := r.zeroExtend 4

/-- The length of an instruction in the current state (10_state.md R23). -/
def State.instrBytes (s : State) : Word := if s.thumb then 2#32 else 4#32

/-- Go on with the next instruction (10_state.md R23). -/
def State.advance (s : State) : State := { s with pc := s.pc + s.instrBytes }

/-! ### Status registers -/

def State.flagN (s : State) : Bool := s.cpsr.getLsbD 31
def State.flagZ (s : State) : Bool := s.cpsr.getLsbD 30
def State.flagC (s : State) : Bool := s.cpsr.getLsbD 29
def State.flagV (s : State) : Bool := s.cpsr.getLsbD 28
def State.flagQ (s : State) : Bool := s.cpsr.getLsbD 27
/-- 1: IRQ disabled (10_state.md R25). -/
def State.maskI (s : State) : Bool := s.cpsr.getLsbD 7
/-- 1: FIQ disabled (10_state.md R25). -/
def State.maskF (s : State) : Bool := s.cpsr.getLsbD 6

/-- A word with one bit set to a value. -/
def setBit (w : Word) (n : Nat) (b : Bool) : Word :=
  if b then w ||| (1#32 <<< n) else w &&& ~~~(1#32 <<< n)

/-- Write N, Z, C and V and leave the rest of the CPSR (10_state.md R26). -/
def State.setNzcv (s : State) (n z c v : Bool) : State :=
  { s with cpsr := (BitVec.ofBool n ++ BitVec.ofBool z ++ BitVec.ofBool c ++ BitVec.ofBool v) ++
      s.cpsr.extractLsb' 0 28 }

/-- Write N, Z and C (10_state.md R26). -/
def State.setNzc (s : State) (n z c : Bool) : State := s.setNzcv n z c s.flagV

/-- Write N and Z from a result (10_state.md R26). -/
def State.setNz (s : State) (r : Word) : State := s.setNzcv r.msb (r == 0#32) s.flagC s.flagV

/-- Set Q when an instruction saturated or overflowed; never clear it (10_state.md R26). -/
def State.orQ (s : State) (q : Bool) : State :=
  { s with cpsr := if q then s.cpsr ||| 0x08000000#32 else s.cpsr }

/-- Write T (10_state.md R27). -/
def State.setThumb (s : State) (t : Bool) : State := { s with cpsr := setBit s.cpsr 5 t }

/-- Where a mode keeps its SPSR; none in User and System mode (10_state.md R28). -/
def Mode.spsrIndex : Mode → Option (Fin 6)
  | .usr => none
  | .sys => none
  | .fiq => some 0
  | .irq => some 1
  | .svc => some 2
  | .abt => some 3
  | .und => some 4
  | .dbg => some 5

/-- The SPSR of the current mode (10_state.md R28). -/
def State.spsrOf (s : State) : Option Word := s.mode.spsrIndex.map fun i => s.spsr[i.val]

/-- Write the SPSR of a mode that has one (10_state.md R28). -/
def State.setSpsr (s : State) (m : Mode) (v : Word) : State :=
  match m.spsrIndex with
  | some i => { s with spsr := s.spsr.set i.val v }
  | none => s

/-! ### Free values -/

/-- Draw a free value: the next one of the run (93_implementation_defined.md, treatment "any value"; log 11). -/
def State.draw (s : State) : Word × State := (Config.freeWord s.freeCtr, { s with freeCtr := s.freeCtr + 1 })

/-- Draw a free number below n, for n > 0. -/
def State.drawBelow (s : State) (n : Nat) : Nat × State := ((Config.freeWord s.freeCtr).toNat % n, s.draw.2)

/-- Leave the ACTIVE power mode: the counters become unpredictable (60_exceptions.md R910; U37; log 44). -/
def State.lowPower (s : State) (m : PowerMode) : State :=
  let w (i : Nat) : Word := Config.freeWord (s.freeCtr + i)
  { s with power := m, freeCtr := s.freeCtr + 3, pmu := { s.pmu with ccnt := w 0, pmn0 := w 1, pmn1 := w 2 } }

/-! ### Fields of CP15 and CP14 that other rules test -/

/-- The ID register (10_state.md R50). -/
def State.idRegister (s : State) : Word := 0x6905210#28 ++ s.productRevision

/-- M: the MMU is enabled (10_state.md R52). -/
def State.mmuOn (s : State) : Bool := s.cp15.control.getLsbD 0
/-- A: alignment checking (10_state.md R52). -/
def State.alignCheck (s : State) : Bool := s.cp15.control.getLsbD 1
/-- C: the data caches are enabled (10_state.md R52). -/
def State.dcacheOn (s : State) : Bool := s.cp15.control.getLsbD 2
/-- B: big endian (10_state.md R52; 20_memory.md R126). -/
def State.bigEndian (s : State) : Bool := s.cp15.control.getLsbD 7
/-- S and R: the access checks (10_state.md R52). -/
def State.systemProt (s : State) : Bool := s.cp15.control.getLsbD 8
def State.romProt (s : State) : Bool := s.cp15.control.getLsbD 9
/-- Z: the branch target buffer is enabled (10_state.md R52). -/
def State.btbOn (s : State) : Bool := s.cp15.control.getLsbD 11
/-- I: the instruction cache is enabled (10_state.md R52). -/
def State.icacheOn (s : State) : Bool := s.cp15.control.getLsbD 12
/-- V: the vectors are at 0xFFFF0000 (10_state.md R52). -/
def State.highVectors (s : State) : Bool := s.cp15.control.getLsbD 13

/-- K: write-buffer coalescing is disabled (10_state.md R53). -/
def State.noCoalesce (s : State) : Bool := s.cp15.auxControl.getLsbD 0
/-- MD: the policy of the mini-data cache (10_state.md R53). -/
def State.miniPolicy (s : State) : BitVec 2 := s.cp15.auxControl.extractLsb' 4 2

/-- GE: all debug functionality is enabled (10_state.md R78; 48_debug_jtag.md R761). -/
def State.debugOn (s : State) : Bool := s.dbgUnit.dcsr.getLsbD 31
/-- H: Halt mode (48_debug_jtag.md R762). -/
def State.haltMode (s : State) : Bool := s.dbgUnit.dcsr.getLsbD 30
/-- The trace buffer records (48_debug_jtag.md R770). -/
def State.tracing (s : State) : Bool := s.debugOn && s.dbgUnit.dcsr.getLsbD 0
/-- Software does not reach DCSR and the breakpoint registers (48_debug_jtag.md R767). -/
def State.debugLocked (s : State) : Bool := s.haltMode && !s.dbgUnit.sds

/-- The PID remap of a virtual address (20_memory.md R124). -/
def State.mva (s : State) (va : Word) : Word :=
  if va.extractLsb' 25 7 = 0#7 then s.cp15.pid.extractLsb' 25 7 ++ va.extractLsb' 0 25 else va

/-- The base of the exception vectors (60_exceptions.md R881). -/
def State.vectorBase (s : State) : Word := if s.highVectors then 0xFFFF0000#32 else 0#32

end Sys2Proof.Machine
end

