-- ==== Sys2Proof/Machine/Memory.lean ====
section
/-!
DEFINITION. Tables, physical memory in its canonical form, the physical map and the write buffer
(spec/20_memory.md R120, R126, R135, R142 to R145; spec/21_mmu_caches_tlb.md R265, R266, R270).

Memory is addressed by the byte lane of the bus: a word at a word-aligned address has its bits [7:0] in the lane of that
address, whatever Control.B is; a byte or halfword access of a big-endian machine uses other lanes (R126; log 35).
-/

namespace Sys2Proof.Machine

/-! ### Tables: lists of pairs sorted by key -/

/-- The entry at a key. -/
def tblGet {α : Type} : List (Nat × α) → Nat → Option α
  | [], _ => none
  | (k', v) :: t, k => if k' = k then some v else tblGet t k

/-- Insert or replace the entry at a key, keeping the keys in rising order. -/
def tblSet {α : Type} : List (Nat × α) → Nat → α → List (Nat × α)
  | [], k, v => [(k, v)]
  | (k', v') :: t, k, v =>
    if k < k' then (k, v) :: (k', v') :: t
    else if k' = k then (k, v) :: t
    else (k', v') :: tblSet t k v

/-- Remove the entry at a key. -/
def tblErase {α : Type} : List (Nat × α) → Nat → List (Nat × α)
  | [], _ => []
  | (k', v) :: t, k => if k' = k then t else (k', v) :: tblErase t k

/-! ### Physical memory -/

/-- The byte at a physical lane address (log 8). -/
def memGet (m : List Host.Cell) (a : Nat) : Byte := (tblGet m a).getD Config.unwrittenByte

/-- Write one byte: a byte equal to what an unlisted address reads as is not listed. -/
def memSet (m : List Host.Cell) (a : Nat) (b : Byte) : List Host.Cell :=
  if b = Config.unwrittenByte then tblErase m a else tblSet m a b

/-- The canonical form from an address on: addresses strictly rising and below 2^32, no byte listed that an unlisted
address reads as. -/
def memWfFrom : Nat → List Host.Cell → Bool
  | _, [] => true
  | lo, (a, b) :: t => decide (lo ≤ a) && decide (a < 2 ^ 32) && (b != Config.unwrittenByte) && memWfFrom (a + 1) t

/-- The canonical form of memory. -/
def Memory.wf (m : List Host.Cell) : Bool := memWfFrom 0 m

/-- The address of the i-th byte from an address on, modulo 2^32 (20_memory.md R121). -/
def laneAddr (a : Word) (i : Nat) : Nat := (a.toNat + i) % 2 ^ 32

/-- Write bytes from a lane address on. -/
def memSetList (m : List Host.Cell) (a : Word) : Nat → List Byte → List Host.Cell
  | _, [] => m
  | i, b :: bs => memSetList (memSet m (laneAddr a i) b) a (i + 1) bs

/-- The i-th byte of a word, from the least significant one. -/
def byteOf (v : Word) (i : Nat) : Byte := v.extractLsb' (8 * i) 8

/-- The low n bytes of a word, the least significant first. -/
def bytesOf (v : Word) (n : Nat) : List Byte := (List.range n).map (byteOf v)

/-- The word whose bytes, the least significant first, are those of a list; absent bytes are zero. -/
def wordOf (bs : List Byte) : Word := bs.getD 3 0#8 ++ bs.getD 2 0#8 ++ bs.getD 1 0#8 ++ bs.getD 0 0#8

/-- The word at a lane address of memory (20_memory.md R126). -/
def memWord (m : List Host.Cell) (a : Word) : Word :=
  wordOf ((List.range 4).map fun i => memGet m (laneAddr a i))

/-- The lanes of an access of n bytes at an aligned address (20_memory.md R126). -/
def laneOf (bigEndian : Bool) (a : Word) (n : Nat) : Word :=
  if bigEndian then (if n = 1 then a ^^^ 3#32 else if n = 2 then a ^^^ 2#32 else a) else a

/-! ### The physical map -/

/-- A region meets the n bytes at an address. -/
def Region.meets (r : Region) (a n : Nat) : Bool := decide (r.base < a + n) && decide (a < r.base + r.size)

/-- A region answers an access of n bytes at an address: it meets it, and the width is one of its own. -/
def Region.answers (r : Region) (a n : Nat) : Bool := r.meets a n && (r.widths.isEmpty || r.widths.contains n)

/-- PhysMap, a function of address and width (20_memory.md R135; 92_eei_decisions.md D5): what the first region says that
answers the access; an error where regions meet it and none answers its width; memory, the parameter's default, where
none meets it (log 9). -/
def mapAt (map : List Region) (a n : Nat) : RegionKind :=
  match map.find? fun r => r.answers a n with
  | some r => r.kind
  | none => if map.any fun r => r.meets a n then .busError else .memory

/-- What answers, instead of memory, for n bytes at a physical address (20_memory.md R135; log 9). -/
def State.regionAt (s : State) (a : Word) (n : Nat) : Option RegionKind :=
  match mapAt s.physMap a.toNat n with
  | .memory => none
  | .busError => some .busError
  | .absent => some .absent
  | .device => some .device

/-- The n bytes at a physical address are storage, for some width of an access (log 9). -/
def State.storesAt (s : State) (a : Word) (n : Nat) : Bool :=
  !(s.physMap.any fun r => r.meets a.toNat n) ||
    s.physMap.any fun r => r.meets a.toNat n && r.kind == .memory

/-! ### The write buffer -/

/-- The byte an entry holds for a lane address. -/
def WbEntry.byteAt (e : WbEntry) (a : Nat) : Option Byte :=
  if a / 16 = e.block.toNat then tblGet e.bytes (a % 16) else none

/-- The newest byte that the buffer holds for a lane address (20_memory.md R140). -/
def wbByte : List WbEntry → Nat → Option Byte
  | [], _ => none
  | e :: es, a =>
    match wbByte es a with
    | some b => some b
    | none => e.byteAt a

/-- The byte the core's own accesses find on the bus side: the newest buffered one over memory (20_memory.md R140). -/
def State.busByte (s : State) (a : Nat) : Byte := (wbByte s.writeBuffer a).getD (memGet s.mem a)

/-- n bytes on the bus side, the lowest lane first. -/
def State.busBytes (s : State) (a : Word) (n : Nat) : List Byte :=
  (List.range n).map fun i => s.busByte (laneAddr a i)

/-- An entry that is not a device's reaches memory: each of its sixteen bytes that is valid. -/
def retireEntry (m : List Host.Cell) (e : WbEntry) : List Host.Cell :=
  if e.device then m
  else
    (List.range 16).foldl (fun m i =>
      match tblGet e.bytes i with
      | some b => memSet m (e.block.toNat * 16 + i) b
      | none => m) m

/-- The write of an entry that reaches a device (20_memory.md R135; log 10). -/
def WbEntry.deviceWrite (e : WbEntry) : Option DeviceAccess :=
  match e.bytes with
  | [] => none
  | (i, b) :: bs =>
    if e.device then
      some { write := true, addr := (e.block ++ 0#4) + BitVec.ofNat 32 i, data := b :: bs.map Prod.snd }
    else none

/-- The n oldest entries reach memory and the devices (20_memory.md R142; log 18). -/
def State.retire (s : State) (n : Nat) : State :=
  { s with
    mem := (s.writeBuffer.take n).foldl retireEntry s.mem
    deviceLog := s.deviceLog ++ (s.writeBuffer.take n).filterMap WbEntry.deviceWrite
    writeBuffer := s.writeBuffer.drop n }

/-- Every entry reaches memory (21_mmu_caches_tlb.md R270). -/
def State.drain (s : State) : State := s.retire s.writeBuffer.length

/-- Where an access is a fence, everything buffered reaches memory before it (20_memory.md R144). -/
def State.fence (s : State) (isFence : Bool) : State := if isFence then s.drain else s

/-- The bytes of an entry after a write into its block at an offset. -/
def mergeBytes : List (Nat × Byte) → Nat → List Byte → List (Nat × Byte)
  | t, _, [] => t
  | t, o, b :: bs => mergeBytes (tblSet t o b) (o + 1) bs

/-- The bytes of an entry are contiguous (21_mmu_caches_tlb.md R266). -/
def contiguous (t : List (Nat × Byte)) : Bool :=
  match t.head?, t.getLast? with
  | some (a, _), some (b, _) => decide (b + 1 - a = t.length)
  | _, _ => true

/-- Merge a write into the newest entry of its block, if both go to memory or both to a device and the union is
contiguous; none where it does not merge (21_mmu_caches_tlb.md R266; log 18). -/
def coalesceInto (device : Bool) : List WbEntry → Word → List Byte → Option (List WbEntry)
  | [], _, _ => none
  | e :: es, a, bs =>
    match coalesceInto device es a bs with
    | some es' => some (e :: es')
    | none =>
      if e.block = a.extractLsb' 4 28 ∧ e.device = device ∧ es.all (fun e' => e'.block != e.block) then
        let t := mergeBytes e.bytes (a.toNat % 16) bs
        if contiguous t then some ({ e with bytes := t } :: es) else none
      else none

/-- Put a write of bytes within one 16-byte block into the write buffer (21_mmu_caches_tlb.md R265, R266): it coalesces
where it may, else it takes an entry, the oldest one leaving if all eight are in use. -/
def State.pushWrite (s : State) (a : Word) (bs : List Byte) (coalesce device : Bool) : State :=
  match if coalesce && !s.noCoalesce then coalesceInto device s.writeBuffer a bs else none with
  | some wb => { s with writeBuffer := wb }
  | none =>
    let s1 := if s.writeBuffer.length < 8 then s else s.retire 1
    { s1 with writeBuffer :=
        s1.writeBuffer ++
          [{ block := a.extractLsb' 4 28, bytes := mergeBytes [] (a.toNat % 16) bs, device := device }] }

/-- Write bytes to memory at once, after everything buffered (20_memory.md R143, R144). -/
def State.writeThrough (s : State) (a : Word) (bs : List Byte) : State :=
  let s1 := s.drain
  { s1 with mem := memSetList s1.mem a 0 bs }

/-! ### Devices -/

/-- Record an access to a device (20_memory.md R135; log 10). -/
def State.logDevice (s : State) (write : Bool) (a : Word) (bs : List Byte) : State :=
  { s with deviceLog := s.deviceLog ++ [{ write := write, addr := a, data := bs }] }

/-- The next n words that devices answer with, from those that the environment supplied, then free ones. -/
def State.deviceWords (s : State) : Nat → List Word × State
  | 0 => ([], s)
  | n + 1 =>
    let (ws, s1) := s.deviceWords n
    match s1.deviceReplies with
    | w :: rest => (ws ++ [w], { s1 with deviceReplies := rest })
    | [] => (ws ++ [s1.draw.1], s1.draw.2)

/-- A device answers a read of n bytes (20_memory.md R135; log 10). -/
def State.deviceRead (s : State) (a : Word) (n : Nat) : List Byte × State :=
  let (ws, s1) := s.deviceWords ((n + 3) / 4)
  let bs := (ws.flatMap fun w => bytesOf w 4).take n
  (bs, s1.logDevice false a bs)

/-- The bytes of a read with those that the write buffer holds for it in their places (20_memory.md R140). -/
def State.withBuffered (s : State) (a : Word) (bs : List Byte) : List Byte :=
  bs.mapIdx fun i b => (wbByte s.writeBuffer (laneAddr a i)).getD b

/-! ### Modified code -/

/-- The byte at a physical lane address as the core's own data accesses leave it: in a dirty half of a data cache line,
else on the bus side (20_memory.md R147). -/
def State.coreByte (s : State) (a : Nat) : Byte :=
  let dirty (l : DLine) : Bool := l.paLine.toNat == a / 32 && (if a % 32 < 16 then l.dirtyLo else l.dirtyHi)
  match ((s.dcache.lines ++ s.miniDc.lines).map Prod.snd).find? dirty with
  | some l => l.data.getD (a % 32) 0#8
  | none => s.busByte a

/-- The notes after bytes have been written from a lane address on: a byte that changes is noted with what memory holds
there, unless it is noted already. -/
def noteBytes (m : List Host.Cell) (a : Word) : List (Nat × Byte) → Nat → List Byte → List (Nat × Byte)
  | t, _, [] => t
  | t, i, b :: bs =>
    let x := laneAddr a i
    noteBytes m a (if (tblGet t x).isSome || memGet m x == b then t else tblSet t x (memGet m x)) (i + 1) bs

/-- Note that these bytes are modified (20_memory.md R147; log 62). -/
def State.noteModified (s : State) (a : Word) (bs : List Byte) : State :=
  { s with modified := noteBytes s.mem a s.modified 0 bs }

/-- Another master writes memory: caches do not notice (20_memory.md R146). What is no storage is not the core's. DESIGN
CHOICE: the widths of the map are those of the core's accesses, and do not bound another master's (log 9). -/
def State.masterWrite (s : State) (pa : Word) (bytes : List Byte) : State :=
  if s.storesAt pa bytes.length then { s.noteModified pa bytes with mem := memSetList s.mem pa 0 bytes }
  else s

/-- Writes of other masters in turn. -/
def State.masterWrites (s : State) (ws : List BusWrite) : State := ws.foldl (fun t w => t.masterWrite w.addr w.data) s

/-- The gap between two words of a transfer, where there is one more word: the writes of other masters that fall into it
(20_memory.md R141; log 38). -/
def State.gap (s : State) (more : Bool) : State :=
  match s.between with
  | [] => s
  | ws :: rest => if more then ({ s with between := rest } : State).masterWrites ws else s

/-- The gap between the load and the store of a swap, into which only a master outside the chip can write; what the
others would write there waits for the next gap (20_memory.md R141; log 38). -/
def State.swapGap (s : State) : State :=
  match s.between with
  | [] => s
  | ws :: rest =>
    ({ s with between := ws.filter (fun w => !w.offChip) :: rest } : State).masterWrites (ws.filter fun w => w.offChip)

/-- Invalidating instructions at the addresses of a set ends the notes of those bytes that have reached memory; what
memory holds is now the old byte of the others (20_memory.md R148; log 62). -/
def State.settle (s : State) (among : Nat → Bool) : State :=
  { s with modified := s.modified.filterMap fun p =>
      if among p.1 then
        if s.coreByte p.1 == memGet s.mem p.1 then none else some (p.1, memGet s.mem p.1)
      else some p }

/-- A byte of the word at a lane address is noted as modified. -/
def State.isModified (s : State) (a : Word) : Bool := s.modified.any fun p => p.1 / 4 == a.toNat / 4

/-- The word at an address before and after its modification. -/
def State.oldWord (s : State) (a : Word) : Word :=
  wordOf ((List.range 4).map fun i => (tblGet s.modified (laneAddr a i)).getD (memGet s.mem (laneAddr a i)))
def State.newWord (s : State) (a : Word) : Word := wordOf ((List.range 4).map fun i => s.coreByte (laneAddr a i))

end Sys2Proof.Machine
end

