-- ==== Sys2Proof/Machine/Mmu.lean ====
section
/-!
DEFINITION. How an instruction can be cut short, the table walk, the two TLBs and the protection check
(spec/21_mmu_caches_tlb.md R180 to R192, R210 to R215; spec/60_exceptions.md R871, R873).
-/

namespace Sys2Proof.Machine

/-- Why an instruction does not complete: an exception it takes, or a stop. -/
inductive Trap where
  /-- A precise data abort: its FSR code, the domain and the fault address where they are valid
  (60_exceptions.md R873). -/
  | dataAbort (code : BitVec 5) (domain : Option (BitVec 4)) (far : Option Word)
  | prefetchAbort (code : BitVec 5)
  | undefined
  | refuse (r : Refusal)
  | fault (f : Fault)
deriving DecidableEq, Repr

/-- A computation over the state that can be cut short; what it did before stays done (20_memory.md R155). -/
abbrev Exec := EStateM Trap State

/-- Stop with a refusal. -/
def refuseWith {α : Type} (r : Refusal) : Exec α := fun s => .error (.refuse r) s

/-- Stop with a fault. -/
def faultWith {α : Type} (f : Fault) : Exec α := fun s => .error (.fault f) s

/-- Carry an Except into Exec. -/
def ofExcept {α : Type} (r : Except Trap α) : Exec α := fun s =>
  match r with
  | .ok a => .ok a s
  | .error t => .error t s

/-- Draw a free value (log 11). -/
def drawWord : Exec Word := fun s => .ok s.draw.1 s.draw.2

/-- Of two imprecise aborts the code of higher priority: an external one before a parity error
(60_exceptions.md R873, R877). -/
def higherAbort (a b : BitVec 5) : BitVec 5 := if a = 0b10110#5 ∨ b = 0b10110#5 then 0b10110#5 else a

/-- Latch an imprecise data abort; one latch, a later error merges into the first (60_exceptions.md R875), and the one of
highest priority is reported (R877). When it is seen is free, but for an access that stalls until complete it is at the
latest the boundary after the third following instruction, also where its error merges (R876; log 16). -/
def State.latchAbort (s : State) (code : BitVec 5) (strong : Bool) : State :=
  let n := (Config.freeWord s.freeCtr).toNat
  let wait := if strong then n % 4 else n
  { s.draw.2 with pendingAbort :=
      match s.pendingAbort with
      | none => some { code := code, wait := wait }
      | some p => some { code := higherAbort p.code code, wait := min p.wait wait } }

/-! ### The table walk -/

/-- The number of address bits inside a page (21_mmu_caches_tlb.md R185). -/
def PageSize.bits : PageSize → Nat
  | .section1M => 20
  | .large64K => 16
  | .small4K => 12
  | .tiny1K => 10

/-- An address with its low bits cut off. -/
def pageBase (size : PageSize) (a : Word) : Word := (a >>> size.bits) <<< size.bits

/-- One word read of the walker (21_mmu_caches_tlb.md R186; log 22): `code` is the external abort of its level. -/
def readDescriptor (a : Word) (code : BitVec 5) (domain : Option (BitVec 4)) (mva : Word) : Exec Word := fun s =>
  match s.regionAt a 4 with
  | none => .ok (memWord s.mem a) s
  | some .device => .ok (wordOf (s.deviceRead a 4).1) (s.deviceRead a 4).2
  | some _ => .error (.dataAbort code domain (some mva)) s

/-- A translation with the same access permission everywhere (21_mmu_caches_tlb.md R183). -/
def oneAp (ap : BitVec 2) : BitVec 8 := ap ++ ap ++ ap ++ ap

/-- The second level of the walk (21_mmu_caches_tlb.md R182, R183): `fine` says which table the descriptor is from. -/
def secondLevel (l2 : Word) (fine : Bool) (domain : BitVec 4) (mva : Word) : Except Trap TlbEntry :=
  let attrs (x : Bool) : Attrs := { x := x, c := l2.getLsbD 3, b := l2.getLsbD 2 }
  let page (size : PageSize) (ap : BitVec 8) (x : Bool) : TlbEntry :=
    { tag := pageBase size mva, size := size, base := pageBase size l2, domain := domain, ap := ap,
      attrs := attrs x }
  match (l2.extractLsb' 0 2).toNat with
  | 0 => .error (.dataAbort 0b00111#5 (some domain) (some mva))
  | 1 => .ok (page .large64K (l2.extractLsb' 4 8) (l2.getLsbD 12))
  | 2 => .ok (page .small4K (l2.extractLsb' 4 8) false)
  | _ => .ok (page (if fine then .tiny1K else .small4K) (oneAp (l2.extractLsb' 4 2)) (l2.getLsbD 6))

/-- The address of the first-level descriptor of an MVA (21_mmu_caches_tlb.md R181). -/
def State.l1Address (s : State) (mva : Word) : Word :=
  s.cp15.ttb.extractLsb' 14 18 ++ mva.extractLsb' 20 12 ++ 0#2

/-- The rest of the walk from a first-level descriptor on. Should-be-zero bits of a descriptor are not examined
(log 70). -/
def walkFrom (l1 mva : Word) : Exec TlbEntry :=
  let domain := l1.extractLsb' 5 4
  if l1.extractLsb' 0 2 = 0#2 then ofExcept (.error (.dataAbort 0b00101#5 none (some mva)))
  else if l1.getLsbD 9 then faultWith .descriptorP
  else if l1.extractLsb' 0 2 = 2#2 then
    pure { tag := pageBase .section1M mva, size := .section1M, base := pageBase .section1M l1, domain := domain,
           ap := oneAp (l1.extractLsb' 10 2),
           attrs := { x := l1.getLsbD 12, c := l1.getLsbD 3, b := l1.getLsbD 2 } }
  else do
    let fine := l1.extractLsb' 0 2 == 3#2
    let a : Word :=
      if fine then l1.extractLsb' 12 20 ++ mva.extractLsb' 10 10 ++ 0#2
      else l1.extractLsb' 10 22 ++ mva.extractLsb' 12 8 ++ 0#2
    let l2 ← readDescriptor a 0b01110#5 (some domain) mva
    ofExcept (secondLevel l2 fine domain mva)

/-- The table walk for an MVA (21_mmu_caches_tlb.md R181 to R187; log 22, 70). -/
def walk (mva : Word) : Exec TlbEntry := do
  let s ← get
  let l1 ← readDescriptor (s.l1Address mva) 0b01100#5 none mva
  walkFrom l1 mva

/-! ### The TLBs -/

/-- The entry covers this MVA (21_mmu_caches_tlb.md R210). -/
def TlbEntry.covers (e : TlbEntry) (mva : Word) : Bool := pageBase e.size e.tag == pageBase e.size mva

/-- The physical address of an MVA in the page (21_mmu_caches_tlb.md R185). -/
def TlbEntry.physical (e : TlbEntry) (mva : Word) : Word := pageBase e.size e.base + (mva - pageBase e.size mva)

/-- The valid entry for an MVA (21_mmu_caches_tlb.md R210). Where two cover it, which R210 leaves open, the one in the
lower slot answers (log 71). -/
def Tlb.lookup (t : Tlb) (mva : Word) : Option TlbEntry := (t.entries.find? fun p => p.2.covers mva).map Prod.snd

/-- The place after a round-robin pointer: past `last` comes the first place that is not locked
(21_mmu_caches_tlb.md R215, R224). -/
def nextPlace (last firstFree rr : Nat) : Nat := if last ≤ rr then firstFree else rr + 1

/-- A walk result enters the TLB (21_mmu_caches_tlb.md R211, R215). -/
def Tlb.insert (t : Tlb) (e : TlbEntry) : Tlb :=
  { t with entries := tblSet t.entries t.rr e, rr := nextPlace 31 t.lock t.rr }

/-- Translate-and-lock puts a translation in (21_mmu_caches_tlb.md R215). -/
def Tlb.insertLocked (t : Tlb) (e : TlbEntry) : Tlb :=
  if t.lock ≤ 30 then { entries := tblSet t.entries t.lock e, rr := 31, lock := t.lock + 1 }
  else { t with entries := tblSet t.entries 31 e, rr := 31 }

/-- Unlock (21_mmu_caches_tlb.md R215). -/
def Tlb.unlock (t : Tlb) : Tlb := { t with lock := 0 }

/-- Invalidate everything that is not locked (21_mmu_caches_tlb.md R213). -/
def Tlb.invalidate (t : Tlb) : Tlb := { t with entries := t.entries.filter fun p => decide (p.1 < t.lock) }

/-- Invalidate the entry for an MVA, locked or not (21_mmu_caches_tlb.md R213). -/
def Tlb.invalidateEntry (t : Tlb) (mva : Word) : Tlb :=
  { t with entries := t.entries.filter fun p => !p.2.covers mva }

/-! ### The protection check -/

/-- The access permission of the sub-page an MVA is in (21_mmu_caches_tlb.md R183). -/
def TlbEntry.apFor (e : TlbEntry) (mva : Word) : BitVec 2 :=
  match e.size with
  | .large64K => e.ap.extractLsb' (2 * (mva.extractLsb' 14 2).toNat) 2
  | .small4K => e.ap.extractLsb' (2 * (mva.extractLsb' 10 2).toNat) 2
  | _ => e.ap.extractLsb' 0 2

/-- The permission table; none where it is unpredictable (21_mmu_caches_tlb.md R192). -/
def permits (ap : BitVec 2) (sBit rBit priv write : Bool) : Option Bool :=
  match ap.toNat with
  | 0 => if sBit && rBit then none
         else if sBit then some (priv && !write)
         else if rBit then some (!write)
         else some false
  | 1 => some priv
  | 2 => some (priv || !write)
  | _ => some true

/-- The domain and permission check of a translation (21_mmu_caches_tlb.md R187 step 2, R192; 10_state.md R55). -/
def checkAccess (s : State) (e : TlbEntry) (mva : Word) (priv write : Bool) : Except Trap Unit :=
  let sec := e.size == .section1M
  match (s.cp15.dacr.extractLsb' (2 * e.domain.toNat) 2).toNat with
  | 1 =>
    match permits (e.apFor mva) s.systemProt s.romProt priv write with
    | none => .error (.fault .reservedPermission)
    | some true => .ok ()
    | some false => .error (.dataAbort (if sec then 0b01101#5 else 0b01111#5) (some e.domain) (some mva))
  | 3 => .ok ()
  | _ => .error (.dataAbort (if sec then 0b01001#5 else 0b01011#5) (some e.domain) (some mva))

/-- The TLB of a kind of access (21_mmu_caches_tlb.md R210). -/
def State.tlb (s : State) (instr : Bool) : Tlb := if instr then s.itlb else s.dtlb

/-- Replace the TLB of a kind of access. -/
def State.setTlb (s : State) (instr : Bool) (t : Tlb) : State :=
  if instr then { s with itlb := t } else { s with dtlb := t }

/-- Count a TLB miss (60_exceptions.md R904, events 0x3 and 0x4). -/
def State.noteTlbMiss (s : State) (instr : Bool) : State :=
  if instr then { s with scratch := { s.scratch with itlbMiss := s.scratch.itlbMiss + 1 } }
  else { s with scratch := { s.scratch with dtlbMiss := s.scratch.dtlbMiss + 1 } }

/-- The translation of an MVA, from the TLB or by a walk that fills it (21_mmu_caches_tlb.md R187 step 1). -/
def findEntry (instr : Bool) (mva : Word) : Exec TlbEntry := do
  let s ← get
  match (s.tlb instr).lookup mva with
  | some e => pure e
  | none =>
    set (s.noteTlbMiss instr)
    let e ← walk mva
    modify fun s => s.setTlb instr ((s.tlb instr).insert e)
    pure e

/-- Translate (21_mmu_caches_tlb.md R187), with the MMU enabled. -/
def translate (instr : Bool) (mva : Word) (priv write : Bool) : Exec (Word × Attrs) := do
  let e ← findEntry instr mva
  let s ← get
  ofExcept (checkAccess s e mva priv write)
  pure (e.physical mva, e.attrs)

/-- The translation an MVA would have now, where it has one, without a change of the state. -/
def State.peek (s : State) (instr : Bool) (mva : Word) : Option TlbEntry :=
  match (s.tlb instr).lookup mva with
  | some e => some e
  | none =>
    match walk mva s with
    | .ok e _ => some e
    | .error _ _ => none

/-- Where an instruction fetch of an MVA would read, where it is translated, and whether its page is cacheable
(20_memory.md R153 step 3). -/
def State.peekFetch (s : State) (mva : Word) : Option (Word × Bool) :=
  if s.mmuOn && !s.dbgUnit.sds then (s.peek true mva).map fun e => (e.physical mva, e.attrs.c) else some (mva, true)

/-- Translate a data address: with the MMU off the physical address is the MVA and the attributes are 0 0 0
(20_memory.md R125, R150 step 4). -/
def translateData (mva : Word) (priv write : Bool) : Exec (Word × Attrs) := do
  let s ← get
  if s.mmuOn then translate false mva priv write
  else pure (mva, { x := false, c := false, b := false })

end Sys2Proof.Machine
end

