-- ==== Sys2Proof/Machine/Caches.lean ====
section
/-!
DEFINITION. The caches: lookup, fill, replacement, locking and eviction, and loads and stores through the data caches
and the write buffer (spec/21_mmu_caches_tlb.md R193 to R201, R220 to R262; spec/20_memory.md R142 to R144).
-/

namespace Sys2Proof.Machine

/-! ### Sets, tags and replacement -/

/-- The set of an MVA in any cache (21_mmu_caches_tlb.md R220, R240). -/
def setOf (mva : Word) : Nat := (mva.extractLsb' 5 5).toNat

/-- The tag of an MVA in any cache. -/
def tagOf (mva : Word) : BitVec 22 := mva.extractLsb' 10 22

/-- The byte of an MVA in its line. -/
def offsetOf (mva : Word) : Nat := (mva.extractLsb' 0 5).toNat

/-- The first address of the line of an address. -/
def lineBase (a : Word) : Word := a.extractLsb' 5 27 ++ 0#5

/-- Write an entry of a table that does not list a default value. -/
def tblPut (t : List (Nat × Nat)) (k v default : Nat) : List (Nat × Nat) :=
  if v = default then tblErase t k else tblSet t k v

/-- The round-robin pointer and the number of locked ways of a set (21_mmu_caches_tlb.md R224). -/
def rrOf (rr : List (Nat × Nat)) (set : Nat) : Nat := (tblGet rr set).getD 31
def lockedOf (locked : List (Nat × Nat)) (set : Nat) : Nat := (tblGet locked set).getD 0

/-- The way a new line takes in a set of 32 ways, and the pointers after it (21_mmu_caches_tlb.md R224, R229, R246,
R260): a locked line takes the first unlocked way while fewer than 28 are locked. Where the pointer goes then is not
stated: it stays, unless it would name a locked way; it then names the first unlocked one (log 53). -/
def placeLine (rr locked : List (Nat × Nat)) (set : Nat) (lock : Bool) : Nat × List (Nat × Nat) × List (Nat × Nat) :=
  let n := lockedOf locked set
  if lock && decide (n < 28) then
    (n, tblPut rr set (max (rrOf rr set) (n + 1)) 31, tblPut locked set (n + 1) 0)
  else (rrOf rr set, tblPut rr set (nextPlace 31 n (rrOf rr set)) 31, locked)

/-! ### Instruction caches -/

/-- The valid line of an MVA in an instruction cache of `ways` ways. -/
def findILine (lines : List (Nat × ILine)) (ways : Nat) (mva : Word) : Option (Nat × ILine) :=
  lines.find? fun p => decide (p.1 / ways = setOf mva) && p.2.tag == tagOf mva

/-- Put a line into the main instruction cache (21_mmu_caches_tlb.md R224, R229). -/
def ICache.install (c : ICache) (mva pa : Word) (words : List Word) (bad : BitVec 8) (lock downloaded : Bool) :
    ICache :=
  let (way, rr, locked) := placeLine c.rr c.locked (setOf mva) lock
  { lines := tblSet c.lines (32 * setOf mva + way)
      { tag := tagOf mva, paLine := pa.extractLsb' 5 27, words := words, bad := bad, downloaded := downloaded },
    rr := rr, locked := locked }

/-- Put a line into the mini instruction cache (48_debug_jtag.md R827). -/
def MiniICache.install (c : MiniICache) (mva : Word) (words : List Word) (bad : BitVec 8) : MiniICache :=
  let way := (tblGet c.rr (setOf mva)).getD 0
  { lines := tblSet c.lines (2 * setOf mva + way)
      { tag := tagOf mva, paLine := 0#27, words := words, bad := bad, downloaded := true },
    rr := tblPut c.rr (setOf mva) (1 - way) 0 }

/-- Invalidate the lines that are not locked (21_mmu_caches_tlb.md R228). -/
def ICache.invalidate (c : ICache) : ICache :=
  { c with lines := c.lines.filter fun p => decide (p.1 % 32 < lockedOf c.locked (p.1 / 32)) }

/-- Invalidate the line of an MVA (21_mmu_caches_tlb.md R228; 48_debug_jtag.md R829). -/
def dropILine (lines : List (Nat × ILine)) (ways : Nat) (mva : Word) : List (Nat × ILine) :=
  lines.filter fun p => !(decide (p.1 / ways = setOf mva) && p.2.tag == tagOf mva)

/-- The words of the line at a physical address, as a fetch reads them: from memory (20_memory.md R147). -/
def lineWords (m : List Host.Cell) (pa : Word) : List Word :=
  (List.range 8).map fun i => memWord m (lineBase pa + BitVec.ofNat 32 (4 * i))

/-- The eight words of 32 bytes. -/
def wordsOf (bs : List Byte) : List Word := (List.range 8).map fun i => wordOf (bs.drop (4 * i))

/-- A line read by the instruction side, from memory or a device; none where the bus answers with an error. -/
def State.readILine (s : State) (pa : Word) : Option (List Word × State) :=
  match s.regionAt (lineBase pa) 32 with
  | none => some (lineWords s.mem pa, s)
  | some .device => some (wordsOf (s.deviceRead (lineBase pa) 32).1, (s.deviceRead (lineBase pa) 32).2)
  | some _ => none

/-! ### Data caches: lines -/

/-- A line of a data cache of `ways` ways, with its slot, is that of an MVA (21_mmu_caches_tlb.md R240, R241). -/
def isDLineOf (ways : Nat) (mva : Word) (p : Nat × DLine) : Bool :=
  decide (p.1 / ways = setOf mva) && p.2.tag == tagOf mva

/-- The valid line of an MVA in the mini-data cache or in the main one, and its slot. -/
def State.lineIn (s : State) (mini : Bool) (mva : Word) : Option (Nat × DLine) :=
  if mini then s.miniDc.lines.find? (isDLineOf 2 mva) else s.dcache.lines.find? (isDLineOf 32 mva)

/-- The valid line of an MVA that an access hits: whether it is in the mini-data cache, its slot, and the line
(21_mmu_caches_tlb.md R241, R250). Where both caches hold one, the main one answers (log 58). -/
def State.findDLine (s : State) (mva : Word) : Option (Bool × Nat × DLine) :=
  match s.lineIn false mva with
  | some p => some (false, p.1, p.2)
  | none => (s.lineIn true mva).map fun p => (true, p.1, p.2)

/-- Replace the line in a slot. -/
def State.setDLine (s : State) (mini : Bool) (slot : Nat) (l : DLine) : State :=
  if mini then { s with miniDc := { s.miniDc with lines := tblSet s.miniDc.lines slot l } }
  else { s with dcache := { s.dcache with lines := tblSet s.dcache.lines slot l } }

/-- Remove the line of an MVA from both data caches, dirty or not, locked or not: its way stays locked
(45_cp15_cp14_operations.md R595). -/
def State.dropDLine (s : State) (mva : Word) : State :=
  { s with dcache := { s.dcache with lines := s.dcache.lines.filter fun p => !isDLineOf 32 mva p },
           miniDc := { s.miniDc with lines := s.miniDc.lines.filter fun p => !isDLineOf 2 mva p } }

/-- n bytes of a line from an offset. -/
def DLine.read (l : DLine) (off n : Nat) : List Byte := (List.range n).map fun i => l.data.getD (off + i) 0#8

/-- Replace the byte at a place of a list. -/
def setAt : List Byte → Nat → Byte → List Byte
  | [], _, _ => []
  | _ :: t, 0, b => b :: t
  | x :: t, n + 1, b => x :: setAt t n b

/-- Write bytes into a line from an offset; their parity is right again. -/
def DLine.write (l : DLine) : Nat → List Byte → DLine
  | _, [] => l
  | off, b :: bs => DLine.write { l with data := setAt l.data off b, bad := l.bad &&& ~~~(1#32 <<< off) } (off + 1) bs

/-- Mark the half of a line that holds an offset as dirty (21_mmu_caches_tlb.md R240). -/
def DLine.dirty (l : DLine) (off : Nat) : DLine :=
  if off < 16 then { l with dirtyLo := true } else { l with dirtyHi := true }

/-- One of n bytes from an offset has wrong parity (21_mmu_caches_tlb.md R248). -/
def DLine.parityError (l : DLine) (off n : Nat) : Bool := (List.range n).any fun i => l.bad.getLsbD (off + i)

/-! ### Page policies -/

/-- The page selects the mini-data cache (21_mmu_caches_tlb.md R195). -/
def Attrs.mini (a : Attrs) : Bool := a.x && a.c && !a.b

/-- Stall until complete (21_mmu_caches_tlb.md R194). -/
def Attrs.strong (a : Attrs) : Bool := !a.x && !a.c && !a.b

/-- An access to such a page is unpredictable (21_mmu_caches_tlb.md R195; U32). -/
def State.reservedAttrs (s : State) (a : Attrs) : Bool :=
  (a.x && !a.c && !a.b) || (a.mini && s.miniPolicy == 3#2)

/-- Data at such a page is cacheable (21_mmu_caches_tlb.md R200). -/
def State.cacheable (s : State) (a : Attrs) : Bool := s.mmuOn && a.c && s.dcacheOn

/-- A load, or a store, of such a page is a fence (20_memory.md R144). -/
def Attrs.fencesLoad (a : Attrs) : Bool := !a.c
def Attrs.fencesStore (a : Attrs) : Bool := !a.c && (a.x == a.b)

/-- Write-through policy (21_mmu_caches_tlb.md R194, R195). DESIGN CHOICE: the policy of the mini-data cache is what
AuxControl.MD says at the access, also for a line that was filled under another one, which R278 leaves open
(log 21). -/
def State.writesThrough (s : State) (a : Attrs) : Bool :=
  (!a.x && a.c && !a.b) || (a.mini && s.miniPolicy == 2#2)

/-- A store that misses allocates a line (21_mmu_caches_tlb.md R194, R195, R197). -/
def State.writeAllocates (s : State) (a : Attrs) : Bool :=
  (a.x && a.c && a.b) || (a.mini && s.miniPolicy == 1#2)

/-! ### Write-back, fill and the two accesses -/

/-- Count a write-back of half a line (60_exceptions.md R904, event 0xC). -/
def State.noteWriteBack (s : State) : State :=
  { s with scratch := { s.scratch with writeBack := s.scratch.writeBack + 1 } }

/-- Write 16 bytes of an evicted or cleaned line back (21_mmu_caches_tlb.md R244, R265; 20_memory.md R135). -/
def writeBackHalf (l : DLine) (hi : Bool) : Exec Unit := do
  let s ← get
  let pa := (l.paLine ++ 0#5) + (if hi then 16#32 else 0#32)
  match s.regionAt pa 16 with
  | some .absent => faultWith .writeBackToAbsent
  | some .busError => set (s.noteWriteBack.latchAbort 0b10110#5 false)
  | kind => set (s.noteWriteBack.pushWrite pa (l.read (if hi then 16 else 0) 16) false (kind == some .device))

/-- Write the dirty halves of a line back. -/
def writeBack (l : DLine) : Exec Unit := do
  if l.dirtyLo then writeBackHalf l false
  if l.dirtyHi then writeBackHalf l true

/-- Allocate a line with these bytes in the cache that a page selects, evicting the line in its place
(21_mmu_caches_tlb.md R244 to R246, R260). A locking fill of the mini-data cache is unpredictable (U9). -/
def allocateLine (mini : Bool) (mva pa : Word) (data : List Byte) : Exec Unit := do
  let s ← get
  let line : DLine := { tag := tagOf mva, paLine := pa.extractLsb' 5 27, data := data, dirtyLo := false,
                        dirtyHi := false, bad := 0#32 }
  let set := setOf mva
  if mini then
    if s.cp15.dcacheLock then refuseWith .lockFunction
    else do
      let way := (tblGet s.miniDc.rr set).getD 0
      match tblGet s.miniDc.lines (2 * set + way) with
      | some old => writeBack old
      | none => pure ()
      modify fun s => { s with miniDc := { lines := tblSet s.miniDc.lines (2 * set + way) line,
                                           rr := tblPut s.miniDc.rr set (1 - way) 0 } }
  else do
    let (way, rr, locked) := placeLine s.dcache.rr s.dcache.locked set s.cp15.dcacheLock
    match tblGet s.dcache.lines (32 * set + way) with
    | some old => writeBack old
    | none => pure ()
    modify fun s => { s with dcache := { lines := tblSet s.dcache.lines (32 * set + way) line,
                                         rr := rr, locked := locked } }

/-- n bytes read by the data side from memory or a device, with what the write buffer holds of them; none where the bus
answers with an error (20_memory.md R135, R140). With coalescing disabled the buffered writes, which are older, reach the
bus before the read (20_memory.md R142; log 18). -/
def busRead (pa : Word) (n : Nat) : Exec (Option (List Byte)) := do
  modify fun s => s.fence s.noCoalesce
  let s ← get
  match s.regionAt pa n with
  | none => pure (some (s.busBytes pa n))
  | some .device => do
    set (s.deviceRead pa n).2
    pure (some (s.withBuffered pa (s.deviceRead pa n).1))
  | some _ => pure none

/-- Fill the line of an address (21_mmu_caches_tlb.md R244, R245); false where the bus answered with an error, which is
latched (60_exceptions.md R874). -/
def fillLine (mini : Bool) (mva pa : Word) (latch : Bool) : Exec Bool := do
  match ← busRead (lineBase pa) 32 with
  | some bs => do
    allocateLine mini mva pa bs
    pure true
  | none => do
    if latch then modify fun s => s.latchAbort 0b10110#5 false
    pure false

/-- Count a data cache access, and whether it missed (60_exceptions.md R904, events 0xA and 0xB). -/
def State.noteAccess (s : State) (miss : Bool) : State :=
  { s with scratch := { s.scratch with dAccess := s.scratch.dAccess + 1,
                                       dMiss := s.scratch.dMiss + (if miss then 1 else 0) } }

/-- A load of n bytes that does not go through a cache (21_mmu_caches_tlb.md R250); none where an error spoilt them. -/
def loadBus (pa : Word) (a : Attrs) (n : Nat) : Exec (Option (List Byte)) := do
  match ← busRead pa n with
  | some bs => pure (some bs)
  | none => do
    modify fun s => s.latchAbort 0b10110#5 a.strong
    pure none

/-- Bytes of a line that was hit (21_mmu_caches_tlb.md R250, R248); none where an error spoilt them. A page that stalls
until complete bounds when the abort is seen also where a line answers (60_exceptions.md R876). DESIGN CHOICE: a load
detects the errors of its own n bytes, no others of the line (log 72). -/
def loadHit (l : DLine) (a : Attrs) (off n : Nat) : Exec (Option (List Byte)) := do
  if l.parityError off n then do
    modify fun s => s.latchAbort 0b11000#5 a.strong
    pure none
  else pure (some (l.read off n))

/-- Load n bytes within a word (21_mmu_caches_tlb.md R250); none where an error, which is latched, spoilt them: the datum
is then unspecified (60_exceptions.md R875). -/
def loadBytes (mva pa : Word) (a : Attrs) (n : Nat) : Exec (Option (List Byte)) := do
  modify fun s => s.fence a.fencesLoad
  let s ← get
  if s.reservedAttrs a then faultWith .reservedAttributes
  else
    match s.findDLine mva with
    | some (_, _, l) => do
      set (s.noteAccess false)
      loadHit l a (offsetOf mva) n
    | none => do
      set (s.noteAccess true)
      if s.cacheable a then do
        let ok ← fillLine a.mini mva pa true
        let s ← get
        match ok, s.findDLine mva with
        | true, some (_, _, l) => pure (some (l.read (offsetOf mva) n))
        | _, _ => pure none
      else loadBus pa a n

/-- Send a store to the bus side: at once to a page with X C B = 0 0 0, else through the write buffer
(21_mmu_caches_tlb.md R251, R266; 20_memory.md R142 to R144). Memory that changes is noted (20_memory.md R147). -/
def storeBus (pa : Word) (a : Attrs) (bs : List Byte) : Exec Unit := do
  let s ← get
  match s.regionAt pa bs.length with
  | none =>
    let s1 := s.noteModified pa bs
    if a.strong then set (s1.writeThrough pa bs) else set (s1.pushWrite pa bs (!a.fencesStore) false)
  | some .device =>
    if a.strong then set (s.drain.logDevice true pa bs) else set (s.pushWrite pa bs (!a.fencesStore) true)
  | some _ => set (s.latchAbort 0b10110#5 a.strong)

/-- A store into a line that is present (21_mmu_caches_tlb.md R251). A line made dirty changes what memory will hold at
the place it was filled from (20_memory.md R147). DESIGN CHOICE: it detects no parity error, which R248 leaves open, and
the parity of its bytes is right again (log 72). -/
def storeHit (mini : Bool) (slot : Nat) (l : DLine) (mva pa : Word) (a : Attrs) (bs : List Byte) : Exec Unit := do
  let s ← get
  let l' := l.write (offsetOf mva) bs
  if s.writesThrough a then do
    set (s.setDLine mini slot l')
    storeBus pa a bs
  else
    set ((s.noteModified (l.paLine ++ mva.extractLsb' 0 5) bs).setDLine mini slot (l'.dirty (offsetOf mva)))

/-- Store bytes within a word (21_mmu_caches_tlb.md R251). -/
def storeBytes (mva pa : Word) (a : Attrs) (bs : List Byte) : Exec Unit := do
  modify fun s => s.fence a.fencesStore
  let s ← get
  if s.reservedAttrs a then faultWith .reservedAttributes
  else
    match s.findDLine mva with
    | some (mini, slot, l) => do
      set (s.noteAccess false)
      storeHit mini slot l mva pa a bs
    | none => do
      set (s.noteAccess true)
      if s.cacheable a && s.writeAllocates a then do
        let ok ← fillLine a.mini mva pa true
        let s ← get
        match ok, s.findDLine mva with
        | true, some (mini, slot, l) => storeHit mini slot l mva pa a bs
        | _, _ => pure ()
      else storeBus pa a bs

/-! ### Functions on whole lines -/

/-- Invalidate the lines of both data caches that are not locked (21_mmu_caches_tlb.md R253). -/
def State.invalidateDCaches (s : State) : State :=
  let kept := s.dcache.lines.filter fun p => decide (p.1 % 32 < lockedOf s.dcache.locked (p.1 / 32))
  { s with dcache := { s.dcache with lines := kept }, miniDc := { s.miniDc with lines := [] } }

/-- Invalidate the main instruction cache and the fetch buffers (21_mmu_caches_tlb.md R228; 20_memory.md R148). -/
def State.invalidateICache (s : State) : State :=
  { s.settle (fun _ => true) with icache := s.icache.invalidate, fetchBuffers := [] }

/-- Invalidate the branch target buffer (21_mmu_caches_tlb.md R275). -/
def State.invalidateBtb (s : State) : State := { s with btb := [] }

/-- Invalidate the line of an MVA in both instruction caches and the fetch buffers
(21_mmu_caches_tlb.md R228; 48_debug_jtag.md R829; 20_memory.md R148). -/
def State.invalidateILine (s : State) (mva : Word) : State :=
  let at_ (a : Nat) : Bool := (s.peekFetch mva).any fun p => a / 32 == p.1.toNat / 32
  { s.settle at_ with
    icache := { s.icache with lines := dropILine s.icache.lines 32 mva }
    miniIc := { s.miniIc with lines := dropILine s.miniIc.lines 2 mva }
    fetchBuffers := s.fetchBuffers.filter fun b => b.line != mva.extractLsb' 5 27 }

/-! ### Fetch -/

/-- The MVA of an instruction address (20_memory.md R153 step 1; 48_debug_jtag.md R766). -/
def State.fetchMva (s : State) (va : Word) : Word := if s.dbgUnit.sds then va else s.mva va

/-- Where the fetch of the next instruction looks: the MVA and, once translated, the physical address and whether its
page is cacheable (20_memory.md R153; 48_debug_jtag.md R766). -/
def fetchPlace : Exec (Word × Word × Bool) := do
  let s ← get
  let mva := s.fetchMva s.pc
  if s.mmuOn && !s.dbgUnit.sds then do
    let (pa, a) ← translate true mva s.privileged false
    pure (mva, pa, a.c)
  else pure (mva, mva, true)

/-- Count an instruction cache miss that reads a line on the bus, whatever it answers (60_exceptions.md R904,
event 0x0). -/
def State.noteIMiss (s : State) : State :=
  { s with scratch := { s.scratch with icacheMiss := s.scratch.icacheMiss + 1 } }

/-- A word of a line, none where its parity is wrong (21_mmu_caches_tlb.md R225). -/
def ILine.word (l : ILine) (mva : Word) : Option Word :=
  let i := offsetOf mva / 4
  if l.bad.getLsbD i then none else some (l.words.getD i 0#32)

/-- One of some words, which nothing fixes where they differ. -/
def oneOf (w : Word) (ws : List Word) : Exec Word := fun s =>
  if ws.all (· == w) then .ok w s else .ok ((w :: ws).getD (s.draw.1.toNat % (ws.length + 1)) w) s.draw.2

/-- An instruction word that may have been modified: as it is held or read, as it was before, as memory holds it, or as
the core has written it (20_memory.md R147; 93_implementation_defined.md U33; log 62). -/
def oldOrNew (pa held : Word) : Exec Word := fun s =>
  let a := pa &&& 0xFFFFFFFC#32
  oneOf held [s.oldWord a, memWord s.mem a, s.newWord a] s

/-- A word held by a cache or a fetch buffer: no memory is compared where the word was read at another physical address,
a false hit (21_mmu_caches_tlb.md R226), or from a device. -/
def heldWord (paLine : BitVec 27) (pa held : Word) : Exec Word := fun s =>
  if paLine != pa.extractLsb' 5 27 || (s.regionAt (lineBase pa) 32).isSome then .ok held s else oldOrNew pa held s

/-- The instruction word at an MVA (20_memory.md R153 step 4): from the mini instruction cache, a fetch buffer, the
instruction cache, or a line read on the bus (21_mmu_caches_tlb.md R221 to R223). -/
def fetchWord (mva pa : Word) (cacheable : Bool) : Exec Word := do
  let s ← get
  let i := offsetOf mva / 4
  let hit (l : ILine) : Exec Word :=
    match l.word mva with
    | some w => if l.downloaded then pure w else heldWord l.paLine pa w
    | none => fun s => .error (.prefetchAbort 0b11000#5) s
  match findILine s.miniIc.lines 2 mva with
  | some p => hit p.2
  | none =>
    match s.fetchBuffers.find? fun b => b.line == mva.extractLsb' 5 27 with
    | some b => heldWord b.paLine pa (b.words.getD i 0#32)
    | none =>
      match findILine s.icache.lines 32 mva with
      | some p => hit p.2
      | none =>
        match s.noteIMiss.readILine pa with
        | none => fun s => .error (.prefetchAbort 0b10110#5) s.noteIMiss
        | some (words, s1) => do
          if s.icacheOn && cacheable then
            set { s1 with icache := s1.icache.install mva pa words 0#8 false false }
          else
            set { s1 with fetchBuffers := s1.fetchBuffers.drop (s1.fetchBuffers.length - 1) ++
                    ([{ line := mva.extractLsb' 5 27, paLine := pa.extractLsb' 5 27, words := words }] :
                      List FetchBuffer) }
          if s.isModified pa then heldWord (pa.extractLsb' 5 27) pa (words.getD i 0#32)
          else pure (words.getD i 0#32)

end Sys2Proof.Machine
end

