-- ==== Sys2Proof/Machine/Flags.lean ====
section
/-!
DEFINITION. The condition codes and the flag computations (spec/30_encoding.md R282, R283; spec/40_data_processing.md
R351; spec/41_multiply_dsp.md R400, R417, R418, R425).
-/

namespace Sys2Proof.Machine

/-- CondPassed: a condition field on the four flags (30_encoding.md R282). The value 1111 is the unconditional space,
which has no conditional instruction. -/
def condHolds (cond : BitVec 4) (n z c v : Bool) : Bool :=
  match cond.toNat with
  | 0 => z
  | 1 => !z
  | 2 => c
  | 3 => !c
  | 4 => n
  | 5 => !n
  | 6 => v
  | 7 => !v
  | 8 => c && !z
  | 9 => !c || z
  | 10 => n == v
  | 11 => n != v
  | 12 => !z && (n == v)
  | 13 => z || (n != v)
  | _ => true

/-- CondPassed on the current flags (30_encoding.md R283). -/
def State.passes (s : State) (cond : BitVec 4) : Bool := condHolds cond s.flagN s.flagZ s.flagC s.flagV

/-- A result with its carry out and signed overflow. -/
structure Sum where
  value : Word
  carry : Bool
  overflow : Bool
deriving DecidableEq, Repr

/-- AddWithCarry (40_data_processing.md R351). -/
def addWithCarry (x y : Word) (cin : Bool) : Sum :=
  let usum := x.toNat + y.toNat + bit cin
  let ssum := x.toInt + y.toInt + (bit cin : Int)
  let r := BitVec.ofNat 32 usum
  { value := r, carry := decide (2 ^ 32 ≤ usum), overflow := decide (r.toInt ≠ ssum) }

/-- Write N and Z from a result, C and V as given (40_data_processing.md R350). -/
def State.setSum (s : State) (r : Sum) : State := s.setNzcv r.value.msb (r.value == 0#32) r.carry r.overflow

/-- Write N and Z from a result and C from the shifter (40_data_processing.md R350). -/
def State.setLogical (s : State) (r : Word) (carry : Bool) : State := s.setNzc r.msb (r == 0#32) carry

/-- Write N and Z from a 64-bit result (41_multiply_dsp.md R400). -/
def State.setNzLong (s : State) (p : BitVec 64) : State := s.setNzcv p.msb (p == 0#64) s.flagC s.flagV

/-- SignedSat32: the saturated value, and whether it saturated (41_multiply_dsp.md R425). -/
def signedSat32 (v : Int) : Word × Bool :=
  if 0x7FFFFFFF < v then (0x7FFFFFFF#32, true)
  else if v < -0x80000000 then (0x80000000#32, true)
  else (BitVec.ofInt 32 v, false)

/-- The low 32 bits of a signed sum, and whether the sum does not fit (41_multiply_dsp.md R417, R418). -/
def wrapSum (v : Int) : Word × Bool := (BitVec.ofInt 32 v, decide ((BitVec.ofInt 32 v).toInt ≠ v))

end Sys2Proof.Machine
end

