-- ==== Sys2Proof/Machine/Ops.lean ====
section
/-!
DEFINITION. The shared operations of the meanings: the trace buffer, taking an exception and a debug exception,
returning from one, writing the PC, the data access primitives, and how a meaning ends
(spec/60_exceptions.md R870 to R885; spec/48_debug_jtag.md R764, R790 to R809; spec/20_memory.md R130, R131, R150 to
R155; spec/43_branch_status_system.md R520).
-/

namespace Sys2Proof.Machine

/-- What a meaning or a step answers. -/
abbrev Result := Host.Outcome State Fault Refusal

/-! ### The trace buffer -/

/-- Append a byte to the ring; a byte 0 is not listed (48_debug_jtag.md R800, R809). -/
def State.traceByte (s : State) (b : Byte) : State :=
  let t := s.trace
  let written := t.written + 1
  { s with
    trace := { t with bytes := if b = 0#8 then tblErase t.bytes t.pos else tblSet t.bytes t.pos b,
                      pos := (t.pos + 1) % 256,
                      written := written,
                      sinceCkpt := t.sinceCkpt.map (· + 1) },
    dbgUnit := { s.dbgUnit with
      traceFull := s.dbgUnit.traceFull || (s.dbgUnit.dcsr.getLsbD 1 && decide (256 - Config.traceReserve ≤ written)) } }

/-- Set the instruction count of the next message. -/
def State.traceCount (s : State) (n : BitVec 4) : State := { s with trace := { s.trace with count := n } }

/-- An instruction that changes no flow of control (48_debug_jtag.md R807). -/
def State.traceInstr (s : State) : State :=
  if s.tracing then
    if s.trace.count = 15#4 then (s.traceByte 0xFF#8).traceCount 0#4
    else s.traceCount (s.trace.count + 1)
  else s

/-- The next branch entry is a checkpoint (48_debug_jtag.md R803; 92_eei_decisions.md, CheckpointPolicy; log 24). -/
def State.checkpointDue (s : State) : Bool :=
  match s.trace.sinceCkpt with
  | none => true
  | some n => decide (Config.checkpointSpacing ≤ n)

/-- Record a checkpoint (48_debug_jtag.md R803). -/
def State.checkpoint (s : State) (target : Word) : State :=
  if s.checkpointDue then
    { s with dbgUnit := { s.dbgUnit with chkpt1 := s.dbgUnit.chkpt0, chkpt0 := target },
             trace := { s.trace with sinceCkpt := some 0 } }
  else s

/-- The message byte of a branch (48_debug_jtag.md R804). -/
def State.branchByte (s : State) (indirect : Bool) : Byte :=
  1#1 ++ BitVec.ofBool s.checkpointDue ++ 0#1 ++ BitVec.ofBool indirect ++ s.trace.count

/-- A taken direct branch (48_debug_jtag.md R807). -/
def State.traceDirect (s : State) (target : Word) : State :=
  if s.tracing then (((s.checkpoint target).traceByte (s.branchByte false)).traceCount 0#4) else s

/-- A taken indirect branch: four address bytes, then the message (48_debug_jtag.md R807, R808). -/
def State.traceIndirect (s : State) (target : Word) : State :=
  if s.tracing then
    ((((((s.checkpoint target).traceByte (byteOf target 3)).traceByte (byteOf target 2)).traceByte
      (byteOf target 1)).traceByte (byteOf target 0)).traceByte (s.branchByte true)).traceCount 0#4
  else s

/-- An exception message: bits [4:2] of the vector offset and the count (48_debug_jtag.md R806, R807). -/
def State.traceVector (s : State) (vvv : BitVec 3) : State :=
  if s.tracing then (s.traceByte (0#1 ++ vvv ++ s.trace.count)).traceCount 0#4 else s

/-! ### Entering a mode -/

/-- Note what the current step does to the flow of control. -/
def State.flowTo (s : State) (f : Flow) : State := { s with scratch := { s.scratch with flow := f } }

/-- The CPSR of a handler: the mode, T = 0, I = 1, F set or kept, the rest kept (60_exceptions.md R880). -/
def entryCpsr (cpsr : Word) (m : Mode) (setF : Bool) : Word :=
  cpsr.extractLsb' 8 24 ++ (1#1 ++ BitVec.ofBool (setF || cpsr.getLsbD 6) ++ 0#1 ++ m.code)

/-- Enter a mode: R14 and the SPSR of the mode, the CPSR, the PC (60_exceptions.md R880; 48_debug_jtag.md R790). -/
def State.enter (s : State) (m : Mode) (link : Word) (setF : Bool) (target : Word) : State :=
  let s1 := (s.setBankReg m 14#4 link).setSpsr m s.cpsr
  { s1 with cpsr := entryCpsr s.cpsr m setF, pc := target, scratch := { s1.scratch with flow := .exception } }

/-! ### Debug exceptions -/

/-- A DCSR with E cleared and a method of entry (48_debug_jtag.md R768, R770). -/
def dcsrOnEntry (dcsr : Word) (moe : BitVec 3) : Word :=
  dcsr.extractLsb' 5 27 ++ moe ++ dcsr.extractLsb' 1 1 ++ 0#1

/-- What both debug entries do to the debug unit (48_debug_jtag.md R790, R795). -/
def State.debugCause (s : State) (moe : BitVec 3) : State :=
  let dcsr := dcsrOnEntry s.dbgUnit.dcsr moe
  { s with dbgUnit := { s.dbgUnit with dcsr := dcsr, extBreak := false, extHeld := false, traceFull := false } }

/-- The Halt-mode debug entry (48_debug_jtag.md R790). -/
def State.haltEntry (s : State) (moe : BitVec 3) (link : Word) : State :=
  let s1 := s.debugCause moe
  ({ s1 with dbgUnit := { s1.dbgUnit with sds := true } }).enter .dbg link true s1.vectorBase

/-- The Monitor-mode debug entry: FSR[9] is set, the domain and the status are undefined (48_debug_jtag.md R790). -/
def State.monitorEntry (s : State) (moe : BitVec 3) (link : Word) (prefetch : Bool) : State :=
  let s1 := (s.debugCause moe).draw.2
  let w := Config.freeWord s.freeCtr
  let fsr : Word := 0#21 ++ w.extractLsb' 10 1 ++ 1#1 ++ 0#1 ++ w.extractLsb' 0 8
  ({ s1 with cp15 := { s1.cp15 with fsr := fsr } }).enter .abt link false
    (s1.vectorBase + (if prefetch then 0x0C#32 else 0x10#32))

/-- A debug exception (48_debug_jtag.md R790, R791): instruction breakpoints (001) and BKPT (011) are prefetch aborts
in Monitor mode, the others data aborts. -/
def State.debugEntry (s : State) (moe : BitVec 3) (link : Word) : State :=
  if s.haltMode then s.haltEntry moe link
  else s.monitorEntry moe link (moe == 0b001#3 || moe == 0b011#3)

/-! ### Exceptions -/

/-- The exceptions with a vector, reset apart (60_exceptions.md R860, R882). -/
inductive Exception where
  | undefined
  | swi
  | prefetchAbort (code : BitVec 5)
  | dataAbort (code : BitVec 5) (domain : Option (BitVec 4)) (far : Option Word)
  | impreciseAbort (code : BitVec 5)
  | irq
  | fiq
deriving DecidableEq, Repr

/-- The mode an exception enters (60_exceptions.md R882). -/
def Exception.mode : Exception → Mode
  | .undefined => .und
  | .swi => .svc
  | .prefetchAbort _ => .abt
  | .dataAbort _ _ _ => .abt
  | .impreciseAbort _ => .abt
  | .irq => .irq
  | .fiq => .fiq

/-- The number of the vector, its offset divided by 4 (60_exceptions.md R881). -/
def Exception.vector : Exception → BitVec 3
  | .undefined => 1#3
  | .swi => 2#3
  | .prefetchAbort _ => 3#3
  | .dataAbort _ _ _ => 4#3
  | .impreciseAbort _ => 4#3
  | .irq => 6#3
  | .fiq => 7#3

/-- The value saved in R14, from the address of the instruction concerned or of the next one
(60_exceptions.md R882). -/
def Exception.link (e : Exception) (pc : Word) (thumb : Bool) : Word :=
  match e with
  | .undefined => pc + (if thumb then 2#32 else 4#32)
  | .swi => pc + (if thumb then 2#32 else 4#32)
  | .dataAbort _ _ _ => pc + 8#32
  | _ => pc + 4#32

/-- Write the FSR with D = 0, and the FAR (60_exceptions.md R871, R873); an invalid domain or fault address is a free
value. -/
def State.reportFault (s : State) (code : BitVec 5) (domain : Option (BitVec 4)) (far : Option Word) : State :=
  let dom := domain.getD ((Config.freeWord s.freeCtr).extractLsb' 0 4)
  let s1 := if domain.isSome then s else s.draw.2
  let addr := far.getD (Config.freeWord s1.freeCtr)
  let s2 := if far.isSome then s1 else s1.draw.2
  { s2 with cp15 := { s2.cp15 with
      fsr := 0#21 ++ code.extractLsb' 4 1 ++ 0#1 ++ 0#1 ++ dom ++ code.extractLsb' 0 4,
      far := addr } }

/-- What an exception leaves in the FSR and the FAR. -/
def Exception.report (e : Exception) (s : State) : State :=
  match e with
  | .prefetchAbort code => s.reportFault code none none
  | .dataAbort code domain far => s.reportFault code domain far
  | .impreciseAbort code => s.reportFault code none none
  | _ => s

/-- The trace message of an exception; a load that aborts is counted, unless it loads the PC
(48_debug_jtag.md R807). DESIGN CHOICE: R807 leaves open whether any other instruction that aborts is counted, and what
one does that would be the sixteenth: here it is counted, and as the sixteenth it appends the roll-over byte 0xFF before
the message, whose count is then 0 (log 24). -/
def Exception.trace (e : Exception) (s : State) : State :=
  match e with
  | .dataAbort _ _ _ => (if s.scratch.loadsPc then s else s.traceInstr).traceVector e.vector
  | _ => s.traceVector e.vector

/-- The exception's vector is trapped: Halt mode, GE = 1, the trap bit set (48_debug_jtag.md R763, R764). -/
def Exception.trapped (e : Exception) (s : State) : Bool :=
  s.haltMode && s.debugOn && s.dbgUnit.dcsr.getLsbD (16 + e.vector.toNat)

/-- TAKING AN EXCEPTION (60_exceptions.md R880): the fault registers, the trace message, R14 and SPSR of the mode, the
CPSR, the PC at the vector; then, if the vector is trapped, the debug exception (48_debug_jtag.md R764). -/
def takeException (e : Exception) (s : State) : State :=
  let s1 := e.trace (e.report s)
  let s2 := s1.enter e.mode (e.link s1.pc s1.thumb) (e == .fiq)
    (s1.vectorBase + (0#27 ++ e.vector ++ 0#2))
  let s3 := { s2 with scratch := { s2.scratch with dataBreak := false } }
  if e.trapped s3 then s3.debugEntry 0b101#3 (s3.pc + 4#32) else s3

/-- A data abort in Special Debug State: the Sticky Abort bit, the FSR and the FAR, and no exception
(48_debug_jtag.md R812). -/
def State.stickyAbort (s : State) (code : BitVec 5) (domain : Option (BitVec 4)) (far : Option Word) : State :=
  let s1 := s.reportFault code domain far
  { s1 with dbgUnit := { s1.dbgUnit with dcsr := s1.dbgUnit.dcsr ||| 0x20#32 } }

/-- The instruction is undefined (60_exceptions.md R883). -/
def undefinedInstr (s : State) : Result :=
  if s.dbgUnit.sds then .refused .exceptionInSds else .next (takeException .undefined s)

/-- How an instruction that was cut short ends. -/
def endTrap (t : Trap) (s : State) : Result :=
  match t with
  | .dataAbort code domain far => .next (takeException (.dataAbort code domain far) s)
  | .prefetchAbort code => .next (takeException (.prefetchAbort code) s)
  | .undefined => undefinedInstr s
  | .refuse r => .refused r
  | .fault f => .fault f

/-- Run the body of a meaning, and go on with its answer. -/
def runThen {α : Type} (x : Exec α) (k : α → State → Result) (s : State) : Result :=
  match x s with
  | .ok v s' => k v s'
  | .error t s' => endTrap t s'

/-- Run the body of a meaning. -/
def runExec (x : Exec Unit) (s : State) : Result := runThen x (fun _ s' => .next s') s

/-! ### Writing the PC, and returning from an exception -/

/-- A taken branch in the same state; T is unchanged (43_branch_status_system.md R520). -/
def State.jump (s : State) (target : Word) (indirect : Bool) : State :=
  { s with pc := target, scratch := { s.scratch with flow := if indirect then .indirect target else .direct target } }

/-- BX, BLX and loads of the PC: bit 0 of the value goes to T (43_branch_status_system.md R520). -/
def State.interwork (s : State) (v : Word) : Result :=
  if v.extractLsb' 0 2 = 2#2 then .refused .unalignedTarget
  else .next ((s.setThumb (v.getLsbD 0)).jump (v &&& 0xFFFFFFFE#32) true)

/-- CPSR <- SPSR: the return from an exception, which also ends Special Debug State
(60_exceptions.md R885; 48_debug_jtag.md R766); none where the mode has no SPSR or the SPSR holds no mode. -/
def State.restoreCpsr (s : State) : Except Refusal State :=
  match s.spsrOf with
  | none => .error .noSpsr
  | some w =>
    if (modeOf (w.extractLsb' 0 5)).isNone then .error .illegalMode
    else .ok { s with cpsr := w, dbgUnit := { s.dbgUnit with sds := false } }

/-- Return from an exception to an address: CPSR <- SPSR, and the PC for the new state; in ARM state an address that is
not word aligned is unpredictable (43_branch_status_system.md R520; U42). -/
def State.exceptionReturn (s : State) (target : Word) : Result :=
  match s.restoreCpsr with
  | .error r => .refused r
  | .ok s1 =>
    if s1.thumb then .next (s1.jump (target &&& 0xFFFFFFFE#32) true)
    else if target.extractLsb' 0 2 ≠ 0#2 then .refused .unalignedTarget
    else .next (s1.jump target true)

/-! ### Data accesses -/

/-- A data breakpoint register of an enable code watches accesses of this kind (48_debug_jtag.md R777). -/
def breakKind (e : BitVec 2) (store : Bool) : Bool :=
  match e.toNat with
  | 0 => false
  | 1 => store
  | 2 => true
  | _ => !store

/-- A data breakpoint watches one of n bytes at an MVA (48_debug_jtag.md R777). -/
def State.dataBreakHit (s : State) (a : Word) (n : Nat) (store : Bool) : Bool :=
  let c := s.cp15.dbcon
  let within (f : Word → Bool) : Bool := (List.range n).any fun i => f (a + BitVec.ofNat 32 i)
  s.debugOn && !s.dbgUnit.sds &&
    (if c.getLsbD 8 then
      breakKind (c.extractLsb' 0 2) store &&
        within fun b => (b &&& ~~~s.cp15.dbr1) == (s.cp15.dbr0 &&& ~~~s.cp15.dbr1)
    else
      (breakKind (c.extractLsb' 0 2) store && within fun b => b == s.cp15.dbr0) ||
      (breakKind (c.extractLsb' 2 2) store && within fun b => b == s.cp15.dbr1))

/-- Note a data breakpoint that an access of this step hits (48_debug_jtag.md R778). -/
def State.noteBreak (s : State) (a : Word) (n : Nat) (store : Bool) : State :=
  { s with scratch := { s.scratch with dataBreak := s.scratch.dataBreak || s.dataBreakHit a n store } }

/-- An alignment fault; bit 1 of its code is unspecified (60_exceptions.md R873). -/
def alignmentFault {α : Type} (mva : Word) : Exec α := fun s =>
  .error (.dataAbort (0b000#3 ++ BitVec.ofBool ((Config.freeWord s.freeCtr).getLsbD 0) ++ 1#1) none (some mva)) s.draw.2

/-- Where an access of n bytes goes (20_memory.md R150 steps 1 to 5): MVA and PA on the byte lanes, aligned, and the
page's attributes. `store` is the kind for the breakpoint unit, `write` for the protection check. -/
def dataPlace (va : Word) (n : Nat) (priv write store : Bool) : Exec (Word × Word × Attrs) := do
  let s ← get
  let mva := s.mva va
  let odd := (n == 2 && mva.getLsbD 0) || (n == 4 && mva.extractLsb' 0 2 != 0#2)
  if odd && s.alignCheck then alignmentFault mva
  else if odd && n == 2 then refuseWith .unalignedHalfword
  else do
    let (pa, attrs) ← translateData mva priv write
    let place (a : Word) : Word := laneOf s.bigEndian (if n = 4 then a &&& 0xFFFFFFFC#32 else a) n
    modify fun s => s.noteBreak (if n = 4 then mva &&& 0xFFFFFFFC#32 else mva) n store
    pure (place mva, place pa, attrs)

/-- In Special Debug State a data abort is only recorded, and the access goes on with this answer
(48_debug_jtag.md R812). -/
def ignoreAbortInSds {α : Type} (x : Exec α) (answer : Exec α) : Exec α := fun s =>
  match x s with
  | .error (.dataAbort code domain far) s1 =>
    if s1.dbgUnit.sds then answer (s1.stickyAbort code domain far)
    else .error (.dataAbort code domain far) s1
  | r => r

/-- The value a load makes of its bytes; where an error spoilt them the whole value is unspecified
(60_exceptions.md R875). -/
def loadedValue (f : List Byte → Word) (bs : Option (List Byte)) : Exec Word :=
  match bs with
  | some bs => pure (f bs)
  | none => drawWord

/-- MemRead that may abort in every state: what f makes of the n bytes (20_memory.md R150). -/
def memReadRaw (f : List Byte → Word) (va : Word) (n : Nat) (priv : Bool) : Exec Word := do
  let (mva, pa, a) ← dataPlace va n priv false false
  let bs ← loadBytes mva pa a n
  loadedValue f bs

/-- What a load makes of its n bytes; in Special Debug State one that aborts gives an unspecified value
(48_debug_jtag.md R812). -/
def memReadAs (f : List Byte → Word) (va : Word) (n : Nat) (priv : Bool) : Exec Word :=
  ignoreAbortInSds (memReadRaw f va n priv) drawWord

/-- MemRead: n bytes as an unsigned value (20_memory.md R150). -/
def memRead (va : Word) (n : Nat) (priv : Bool) : Exec Word := memReadAs wordOf va n priv

/-- MemWrite that may abort in every state: the low n bytes of a value (20_memory.md R151). -/
def memWriteRaw (va : Word) (n : Nat) (priv : Bool) (v : Word) : Exec Unit := do
  let (mva, pa, a) ← dataPlace va n priv true true
  storeBytes mva pa a (bytesOf v n)

/-- MemWrite (20_memory.md R151). -/
def memWrite (va : Word) (n : Nat) (priv : Bool) (v : Word) : Exec Unit :=
  ignoreAbortInSds (memWriteRaw va n priv v) (pure ())

/-- The transfers that must not abort in Special Debug State (48_debug_jtag.md R812; U18). -/
def refuseAbortInSds {α : Type} (x : Exec α) : Exec α := fun s =>
  match x s with
  | .error (.dataAbort code domain far) s1 =>
    if s1.dbgUnit.sds then .error (.refuse .forbiddenInDebug) s1 else .error (.dataAbort code domain far) s1
  | r => r

/-- The rotation of a word loaded from an unaligned address (20_memory.md R131). -/
def rotateLoaded (va v : Word) : Word := v.rotateRight (8 * (va.extractLsb' 0 2).toNat)

/-- MemRead of a word for LDR and LDRT, rotated (42_load_store.md R444). -/
def memReadWord (va : Word) (priv : Bool) : Exec Word := memReadAs (fun bs => rotateLoaded va (wordOf bs)) va 4 priv

/-- Addresses from one on, one word apart, for the registers of a list (20_memory.md R155); U23 where they run past the
top. -/
def checkSpan (start : Word) (count : Nat) : Exec Unit := fun s =>
  if start.toNat / 4 + count ≤ 2 ^ 30 then .ok () s else .error (.fault .addressWrap) s

/-- Words loaded into registers in turn, with what other masters write in between (20_memory.md R141): what was loaded,
and the data abort that ended it, if one did (20_memory.md R155). -/
def loadWords (priv : Bool) : List RegNum → Word → Exec (List (RegNum × Word) × Option Trap)
  | [], _ => pure ([], none)
  | r :: rs, a => fun s =>
    match memReadRaw wordOf a 4 priv s with
    | .ok v s1 =>
      match loadWords priv rs (a + 4#32) (s1.gap !rs.isEmpty) with
      | .ok (vs, t) s2 => .ok ((r, v) :: vs, t) s2
      | .error t s2 => .error t s2
    | .error (.dataAbort code domain far) s1 => .ok ([], some (.dataAbort code domain far)) s1
    | .error t s1 => .error t s1

/-- Words stored in turn, with what other masters write in between (20_memory.md R141, R155). -/
def storeWords (priv : Bool) : List Word → Word → Exec Unit
  | [], _ => pure ()
  | v :: vs, a => do
    refuseAbortInSds (memWriteRaw a 4 priv v)
    modify fun s => s.gap !vs.isEmpty
    storeWords priv vs (a + 4#32)

/-! ### The branch target buffer -/

/-- Where the buffer keeps the branch at an address, and its tag there (21_mmu_caches_tlb.md R272). -/
def btbIndex (pc : Word) : Nat := (pc.extractLsb' 2 7).toNat
def btbTag (pc : Word) : BitVec 24 := pc.extractLsb' 9 23 ++ pc.extractLsb' 1 1

/-- One step of the history toward the outcome (21_mmu_caches_tlb.md R273). -/
def historyStep (h : BitVec 2) (taken : Bool) : BitVec 2 :=
  if taken then (if h = 3#2 then h else h + 1#2) else (if h = 0#2 then h else h - 1#2)

/-- The update when a B or BL at the current PC has executed (21_mmu_caches_tlb.md R273); for a Thumb BL suffix with its
offset field (log 40). DESIGN CHOICE: a buffer that is disabled (Z = 0) changes nothing, not the history of a branch that
it holds either; R273 asks for the enable only for a new entry (log 73). -/
def State.btbUpdate (s : State) (target : Word) (taken : Bool) (suffix : Option (BitVec 11)) : State :=
  let entry (history : BitVec 2) : BtbEntry :=
    { tag := btbTag s.pc, target := target, history := history, suffix := suffix }
  let put (history : BitVec 2) : State := { s with btb := tblSet s.btb (btbIndex s.pc) (entry history) }
  if s.btbOn then
    match tblGet s.btb (btbIndex s.pc) with
    | some e => if e.tag = btbTag s.pc then put (historyStep e.history taken) else if taken then put 2#2 else s
    | none => if taken then put 2#2 else s
  else s

/-- The target that the buffer sends to the instruction side as the next address after the instruction at an address,
instead of the next one in address order: that of an entry whose tag is the address's and whose history says usually taken.
The addresses are those before the PID remap (21_mmu_caches_tlb.md R272). -/
def State.btbTarget (s : State) (pc : Word) : Option Word :=
  if s.btbOn then
    match tblGet s.btb (btbIndex pc) with
    | some e => if e.tag == btbTag pc && e.history.getLsbD 1 then some e.target else none
    | none => none
  else none

/-- A branch instruction executes (60_exceptions.md R904, event 0x5). -/
def State.noteBranch (s : State) : State := { s with scratch := { s.scratch with branch := true } }

/-! ### Ends of meanings -/

/-- The condition fails: nothing but the PC moves on (30_encoding.md R283). -/
def State.skip (s : State) : State :=
  { s with pc := s.pc + s.instrBytes, scratch := { s.scratch with skipped := true } }

/-- Note that the instruction loads the PC (48_debug_jtag.md R807). -/
def State.noteLoadsPc (s : State) : State := { s with scratch := { s.scratch with loadsPc := true } }

/-- Note that R13_dbg stays reliable across this instruction (48_debug_jtag.md R813). -/
def State.keepR13Dbg (s : State) : State := { s with scratch := { s.scratch with keepsR13Dbg := true } }

end Sys2Proof.Machine
end

