-- ==== Sys2Proof/Machine/Boundary.lean ====
section
/-!
DEFINITION. What a step does around the instruction: the events that are taken at the boundary before it, the fetch and
the decoder, and the bookkeeping of trace buffer, performance monitor and debug unit after it
(spec/60_exceptions.md R863, R864, R875, R890, R891, R900 to R905; spec/48_debug_jtag.md R775, R778, R792, R795, R807,
R813; spec/20_memory.md R153).
-/

namespace Sys2Proof.Machine

/-! ### The performance monitor -/

/-- PmuIrqRequest (60_exceptions.md R905). -/
def State.pmuRequest (s : State) : Bool :=
  let p := s.pmu.pmnc
  (p.getLsbD 10 && p.getLsbD 6) || (p.getLsbD 9 && p.getLsbD 5) || (p.getLsbD 8 && p.getLsbD 4)

/-- The levels of the two interrupt inputs (60_exceptions.md R890, R905). -/
def State.irqLevel (s : State) : Bool := s.irqLine || (s.pmuRoute == .irq && s.pmuRequest)
def State.fiqLevel (s : State) : Bool := s.fiqLine || (s.pmuRoute == .fiq && s.pmuRequest)

/-- Set bits of PMNC. -/
def State.orPmnc (s : State) (w : Word) : State := { s with pmu := { s.pmu with pmnc := s.pmu.pmnc ||| w } }

/-- What an instruction adds to a counter of an event: a number, or nothing known (60_exceptions.md R904, U11). -/
inductive Tally where
  | exactly (n : Nat)
  | atLeastZero
  | anything
deriving DecidableEq, Repr

/-- How often an event happened in the step: `executed` says whether an instruction executed, `sameMode` whether the
mode stayed (60_exceptions.md R904; log 23). Software changed the PC by a branch, or by a SWI or BKPT that enters the
mode it came from; of the other exceptions none is software's. -/
def tally (k : Scratch) (executed sameMode : Bool) (event : BitVec 8) : Tally :=
  match event.toNat with
  | 0x0 => .exactly k.icacheMiss
  | 0x1 => .atLeastZero
  | 0x2 => .atLeastZero
  | 0x3 => .exactly k.itlbMiss
  | 0x4 => .exactly k.dtlbMiss
  | 0x5 => .exactly (bit k.branch)
  | 0x6 => .atLeastZero
  | 0x7 => .exactly (bit (executed && (!k.skipped || Config.countsSkipped)))
  | 0x8 => .atLeastZero
  | 0x9 => .atLeastZero
  | 0xA => .exactly k.dAccess
  | 0xB => .exactly k.dMiss
  | 0xC => .exactly k.writeBack
  | 0xD =>
    match k.flow with
    | .direct _ => .exactly (bit sameMode)
    | .indirect _ => .exactly (bit sameMode)
    | .trap => .exactly (bit sameMode)
    | .next => .exactly 0
    | .exception => .exactly 0
  | _ => .anything

/-- A counter after n more events, and whether it rolled over (60_exceptions.md R903). -/
def countUp (c : Word) (n : Nat) : Word × Bool := (BitVec.ofNat 32 (c.toNat + n), decide (2 ^ 32 ≤ c.toNat + n))

/-- A counter after the step, and its overflow flag; the state supplies the free values. -/
def countEvent (t : Tally) (c : Word) (s : State) : Word × Bool × State :=
  match t with
  | .exactly n => ((countUp c n).1, (countUp c n).2, s)
  | .atLeastZero => ((countUp c s.draw.1.toNat).1, (countUp c s.draw.1.toNat).2, s.draw.2)
  | .anything => (s.draw.1, s.draw.2.draw.1.getLsbD 0, s.draw.2.draw.2)

/-- The three counters after a step, if they are enabled; CCNT advances by a free positive amount, with D = 1 by a free
amount (60_exceptions.md R901 to R904; 92_eei_decisions.md D13). -/
def State.countStep (s : State) (executed sameMode : Bool) : State :=
  if s.pmu.pmnc.getLsbD 0 then
    let (c0, o0, s1) := countEvent (tally s.scratch executed sameMode (s.pmu.pmnc.extractLsb' 12 8)) s.pmu.pmn0 s
    let (c1, o1, s2) := countEvent (tally s.scratch executed sameMode (s.pmu.pmnc.extractLsb' 20 8)) s.pmu.pmn1 s1
    let n := s2.draw.1.toNat + (if s.pmu.pmnc.getLsbD 3 then 0 else 1)
    let s3 := s2.draw.2
    ({ s3 with pmu := { s3.pmu with pmn0 := c0, pmn1 := c1, ccnt := (countUp s.pmu.ccnt n).1 } }).orPmnc
      ((if o0 then 0x100#32 else 0#32) ||| (if o1 then 0x200#32 else 0#32) |||
        (if (countUp s.pmu.ccnt n).2 then 0x400#32 else 0#32))
  else s

/-! ### The boundary before an instruction -/

/-- The beginning of a step: a free number of write-buffer entries reaches memory (20_memory.md R142; log 18). -/
def State.beginStep (s : State) : State :=
  let s1 := { s with scratch := Scratch.clear }
  match s1.writeBuffer with
  | [] => s1
  | _ => s1.draw.2.retire (s1.draw.1.toNat % (s1.writeBuffer.length + 1))

/-- Debug breaks are postponed in Abort mode of Monitor mode and in Special Debug State (48_debug_jtag.md R795). -/
def State.breaksPostponed (s : State) : Bool := (!s.haltMode && s.mode == .abt) || s.dbgUnit.sds

/-- Whether the latched imprecise abort is seen at this boundary, and the state if it is not
(60_exceptions.md R875, R876). -/
def State.abortDue (s : State) : Option (BitVec 5) × State :=
  match s.pendingAbort with
  | none => (none, s)
  | some p =>
    if p.wait = 0 then (some p.code, { s with pendingAbort := none })
    else (none, { s with pendingAbort := some { p with wait := p.wait - 1 } })

/-- An external debug break, a FIQ, an IRQ is pending and enabled (48_debug_jtag.md R795; 60_exceptions.md R891). -/
def State.extDue (s : State) : Bool := s.dbgUnit.extBreak && s.debugOn && !s.breaksPostponed
def State.fiqDue (s : State) : Bool := s.fiqLevel && !s.maskF && !s.dbgUnit.sds
def State.irqDue (s : State) : Bool := s.irqLevel && !s.maskI && !s.dbgUnit.sds

/-- Note a postponed external break (48_debug_jtag.md R795). -/
def State.holdBreak (s : State) : State :=
  { s with dbgUnit := { s.dbgUnit with
      extHeld := s.dbgUnit.extBreak && (s.dbgUnit.extHeld || (s.debugOn && s.breaksPostponed)) } }

/-- The debug breaks that are taken at once: a postponed external break that is released, a full trace buffer; of two
breaks the external one is reported (48_debug_jtag.md R795; U16; log 46). -/
def State.breakAtOnce (s : State) : Option (BitVec 3) :=
  if s.extDue && s.dbgUnit.extHeld then some 0b100#3
  else if s.dbgUnit.traceFull && s.debugOn && !s.breaksPostponed then
    some (if s.extDue then 0b100#3 else 0b110#3)
  else none

/-- How many more boundaries go by before the pending asynchronous event is taken: a finite number, drawn when the first
one is seen; none while there is none (60_exceptions.md R891; 48_debug_jtag.md R796; log 15). -/
def State.asyncDelay (s : State) : Option Nat × State :=
  if s.extDue || s.fiqDue || s.irqDue then
    match s.asyncWait with
    | some n => (some n, s)
    | none => (some s.draw.1.toNat, s.draw.2)
  else (none, s)

/-- Take the asynchronous event that is due, the one of highest priority (60_exceptions.md R863). -/
def State.takeAsync (s : State) : State :=
  if s.extDue then s.debugEntry 0b100#3 (s.pc + 4#32)
  else if s.fiqDue then takeException .fiq s
  else takeException .irq s

/-- The asynchronous events at a boundary: the state after the entry, or the state in which the instruction goes on. -/
def asyncEvents (s : State) : State × Bool :=
  match s.asyncDelay with
  | (none, s) => ({ s with asyncWait := none }, false)
  | (some 0, s) => (({ s with asyncWait := none } : State).takeAsync, true)
  | (some (n + 1), s) => ({ s with asyncWait := some n }, false)

/-- The event taken at the boundary before an instruction, in the order of priority (48_debug_jtag.md R792): the state
after its entry, or the state in which the instruction goes on. An imprecise abort in Special Debug State is only
recorded, and is no instruction that the trace counts (48_debug_jtag.md R807, R812). -/
def boundary (s0 : State) : State × Bool :=
  let s1 := s0.holdBreak
  if s1.dbgUnit.resetTrap then
    (({ s1 with dbgUnit := { s1.dbgUnit with resetTrap := false } }).haltEntry 0b000#3 (s1.pc + 4#32), true)
  else
    match s1.abortDue with
    | (some code, s) =>
      if s.dbgUnit.sds then ((s.stickyAbort code none none).flowTo .exception, true)
      else (takeException (.impreciseAbort code) s, true)
    | (none, s) =>
      match s.breakAtOnce with
      | some moe => (s.debugEntry moe (s.pc + 4#32), true)
      | none => asyncEvents s

/-- One instruction breakpoint register matches (48_debug_jtag.md R775). -/
def breakMatches (ibcr mva : Word) (thumb : Bool) : Bool :=
  ibcr.getLsbD 0 &&
    (if thumb then mva.extractLsb' 1 31 == ibcr.extractLsb' 1 31 else mva.extractLsb' 2 30 == ibcr.extractLsb' 2 30)

/-- An instruction breakpoint is enabled at all. -/
def State.breakpointArmed (s : State) : Bool := s.cp15.ibcr0.getLsbD 0 || s.cp15.ibcr1.getLsbD 0

/-- The instruction about to execute has a breakpoint (48_debug_jtag.md R775); in Special Debug State none has. -/
def State.breakpointHit (s : State) : Bool :=
  s.debugOn && !s.dbgUnit.sds &&
    (breakMatches s.cp15.ibcr0 (s.mva s.pc) s.thumb || breakMatches s.cp15.ibcr1 (s.mva s.pc) s.thumb)

/-! ### Fetch and decode -/

/-- The prefetch abort that a fault of the instruction side raises (60_exceptions.md R871; log 22). -/
def fetchTrap : Trap → Trap
  | .dataAbort code _ _ =>
    if code = 0b01100#5 ∨ code = 0b01110#5 then .prefetchAbort 0b10110#5 else .prefetchAbort 0b10000#5
  | t => t

/-- Fetch(PC): the word that holds the next instruction (20_memory.md R153). -/
def fetch (s : State) : EStateM.Result Trap State Word :=
  let x : Exec Word := do
    let (mva, pa, cacheable) ← fetchPlace
    fetchWord mva pa cacheable
  match x s with
  | .ok w s1 => .ok w s1
  | .error t s1 => .error (fetchTrap t) s1

/-- The halfword of a fetched word that a Thumb PC names (20_memory.md R126, R153 step 5). -/
def State.halfOf (s : State) (w : Word) : Half :=
  if xor (s.pc.getLsbD 1) s.bigEndian then w.extractLsb' 16 16 else w.extractLsb' 0 16

/-- The decoder on a fetched word, in the current state (10_state.md R27). -/
def State.decodeFetched (s : State) (w : Word) : Decoded :=
  if s.thumb then decodeThumb (s.halfOf w) else decodeArm w

/-- The condition field of a fetched word passes; Thumb words have none, and 1111 is the unconditional space
(30_encoding.md R281). -/
def State.fetchedPasses (s : State) (w : Word) : Bool := s.thumb || s.passes (w.extractLsb' 28 4)

/-- A word that is no instruction (30_encoding.md R303, R304; 92_eei_decisions.md D2, D19). -/
def rejectWord (s : State) (w : Word) (r : Reject) : Result :=
  if s.fetchedPasses w then
    match r with
    | .shouldBe => .refused .shouldBeFields
    | .bkptCondition => .refused .bkptCondition
    | .unallocated => undefinedInstr s
  else .next s.skip

/-- The target that the branch target buffer must hold for this instruction, if it is a B or BL whose target its word
and address fix (21_mmu_caches_tlb.md R273). -/
def State.predictable (s : State) (i : Instr) : Option Word :=
  match i with
  | .b _ imm => some (s.pc + 8#32 + ((imm.signExtend 32) <<< 2))
  | .bl _ imm => some (s.pc + 8#32 + ((imm.signExtend 32) <<< 2))
  | .tB1Low _ imm => some (s.pc + 4#32 + ((imm.signExtend 32) <<< 1))
  | .tB1Mid _ imm => some (s.pc + 4#32 + ((imm.signExtend 32) <<< 1))
  | .tB1High _ imm => some (s.pc + 4#32 + ((imm.signExtend 32) <<< 1))
  | .tB2 imm => some (s.pc + 4#32 + ((imm.signExtend 32) <<< 1))
  | _ => none

/-- The entry of the branch target buffer is of this instruction, or of none where there is no instruction. The second
half of a Thumb BL takes its target from R14, so that its offset field is compared (log 40). -/
def BtbEntry.isOf (e : BtbEntry) (s : State) : Option Instr → Bool
  | none => false
  | some (.tBlSuffix off11) => e.suffix == some off11
  | some i => e.suffix.isNone && s.predictable i == some e.target

/-- The branch target buffer holds something else about the address of this instruction, or of a word that is none
(21_mmu_caches_tlb.md R274, R275; 10_state.md R94; U33). -/
def State.btbStale (s : State) (i : Option Instr) : Bool :=
  s.btbOn && (tblGet s.btb (btbIndex s.pc)).any fun e => e.tag == btbTag s.pc && !e.isOf s i

/-! ### After an instruction -/

/-- Record the flow of control of the step in the trace buffer (48_debug_jtag.md R807). -/
def State.traceFlow (s : State) : State :=
  match s.scratch.flow with
  | .next => s.traceInstr
  | .direct t => s.traceDirect t
  | .indirect t => s.traceIndirect t
  | .exception => s
  | .trap => s

/-- The debug exception of a data breakpoint, before the next instruction (48_debug_jtag.md R778). -/
def State.dataBreakEntry (s : State) : State :=
  if s.scratch.dataBreak then s.debugEntry 0b010#3 (s.pc + 4#32) else s

/-- R13_dbg changes to a free value, unless the instruction keeps it (48_debug_jtag.md R813; log 36): DEBUG mode was or
is current. -/
def State.scrambleR13Dbg (s : State) (wasDbg : Bool) : State :=
  if (wasDbg || s.mode == .dbg) && !(s.scratch.keepsR13Dbg && wasDbg && s.mode == .dbg) then
    s.draw.2.setBankReg .dbg 13#4 s.draw.1
  else s

/-- The end of a step that began in state s: trace, counters, data breakpoint, R13_dbg. A write of a counter is itself
counted, on top of the value written, where the monitor is enabled before and after it (log 23). -/
def endStep (s : State) (executed : Bool) (t : State) : State :=
  let t1 := if s.tracing then t.traceFlow else t
  let t2 := if s.pmu.pmnc.getLsbD 0 then t1.countStep executed (s.mode == t1.mode) else t1
  t2.dataBreakEntry.scrambleR13Dbg (s.mode == .dbg)

/-- The instruction at s left the PC past the top of the address space without a branch (10_state.md R23; U21). -/
def ranPastTop (s t : State) : Bool := t.scratch.flow == .next && decide (t.pc.toNat < s.pc.toNat)

/-- What a step answers once the instruction at s has answered. DESIGN CHOICE: an instruction that aborts or takes an
exception is counted as executed for event 0x7, which 60_exceptions.md R904 leaves open (log 23). -/
def endInstr (s : State) (r : Result) : Result :=
  match r with
  | .next t => if ranPastTop s t then .fault .pcWrap else .next (endStep s true t)
  | .fault f => .fault f
  | .refused r => .refused r

/-- What a step answers once an event or a fetch abort at s has been taken. -/
def endEntry (s : State) (r : Result) : Result :=
  match r with
  | .next t => .next (endStep s false { t with bankHazard := false })
  | .fault f => .fault f
  | .refused r => .refused r

/-- A fetch that failed (60_exceptions.md R870; 48_debug_jtag.md R766). -/
def fetchFailed (t : Trap) (s : State) : Result :=
  match t with
  | .prefetchAbort code =>
    if s.dbgUnit.sds then .fault .fetchAbortInSds else .next (takeException (.prefetchAbort code) s)
  | t => endTrap t s

end Sys2Proof.Machine
end

