-- ==== Sys2Proof/Machine/Operands.lean ====
section
/-!
DEFINITION. The operand forms: the shifter operand, addressing modes 2, 3 and 4, branch offsets
(spec/30_encoding.md R287 to R291, R295 to R299).
-/

namespace Sys2Proof.Machine

/-! ### Shifts -/

/-- The shift functions for every amount (30_encoding.md R291). -/
def lsl (x : Word) (n : Nat) : Word := x <<< n
def lsr (x : Word) (n : Nat) : Word := x >>> n
def asr (x : Word) (n : Nat) : Word := x.sshiftRight n
def ror (x : Word) (n : Nat) : Word := x.rotateRight (n % 32)

/-- RRX (30_encoding.md R291). -/
def rrx (x : Word) (c : Bool) : Word := BitVec.ofBool c ++ x.extractLsb' 1 31

/-- An operand with the shifter's carry out. -/
structure Shifted where
  value : Word
  carry : Bool
deriving DecidableEq, Repr

/-- The rotated immediate (30_encoding.md R287). -/
def immOperand (rot : BitVec 4) (imm8 : BitVec 8) (c : Bool) : Shifted :=
  let v := ror (imm8.zeroExtend 32) (2 * rot.toNat)
  { value := v, carry := if rot = 0#4 then c else v.msb }

/-- A value shifted by an immediate amount (30_encoding.md R288). -/
def immShift (sh : BitVec 2) (amt : BitVec 5) (x : Word) (c : Bool) : Shifted :=
  let n := amt.toNat
  match sh.toNat with
  | 0 => if n = 0 then { value := x, carry := c } else { value := lsl x n, carry := x.getLsbD (32 - n) }
  | 1 => if n = 0 then { value := 0#32, carry := x.msb } else { value := lsr x n, carry := x.getLsbD (n - 1) }
  | 2 => if n = 0 then { value := asr x 31, carry := x.msb } else { value := asr x n, carry := x.getLsbD (n - 1) }
  | _ => if n = 0 then { value := rrx x c, carry := x.getLsbD 0 } else { value := ror x n, carry := x.getLsbD (n - 1) }

/-- A value shifted by a register amount, n = Rs[7:0] (30_encoding.md R289). -/
def regShift (sh : BitVec 2) (n : Nat) (x : Word) (c : Bool) : Shifted :=
  if n = 0 then { value := x, carry := c }
  else
    match sh.toNat with
    | 0 => if n < 32 then { value := lsl x n, carry := x.getLsbD (32 - n) }
           else { value := 0#32, carry := decide (n = 32) && x.getLsbD 0 }
    | 1 => if n < 32 then { value := lsr x n, carry := x.getLsbD (n - 1) }
           else { value := 0#32, carry := decide (n = 32) && x.msb }
    | 2 => if n < 32 then { value := asr x n, carry := x.getLsbD (n - 1) }
           else { value := asr x 31, carry := x.msb }
    | _ => if n % 32 = 0 then { value := x, carry := x.msb }
           else { value := ror x (n % 32), carry := x.getLsbD (n % 32 - 1) }

/-- The shifter operand of a data-processing instruction (30_encoding.md R285). -/
def State.operand2 (s : State) (o : Op2) : Shifted :=
  match o with
  | .imm rot imm8 => immOperand rot imm8 s.flagC
  | .shift amt sh rm => immShift sh amt (s.reg rm) s.flagC
  | .reg rs sh rm => regShift sh ((s.reg rs).extractLsb' 0 8).toNat (s.reg rm) s.flagC

/-- The registers of the form shifted by a register are not R15 (30_encoding.md R289, U43). -/
def op2Allowed (o : Op2) (rn rd : RegNum) : Bool :=
  match o with
  | .reg rs _ rm => rs != 15#4 && rm != 15#4 && rn != 15#4 && rd != 15#4
  | _ => true

/-- The form uses RRX (48_debug_jtag.md R813). -/
def op2Rrx (o : Op2) : Bool :=
  match o with
  | .shift amt sh _ => amt == 0#5 && sh == 3#2
  | _ => false

/-! ### Addresses of loads and stores -/

/-- An address computed from a base: where the access is, what the base becomes, whether it is written back
(30_encoding.md R296). -/
structure Address where
  at_ : Word
  wb : Word
  writes : Bool
deriving DecidableEq, Repr

/-- The offset of a scaled register; its carry is ignored (30_encoding.md R295). -/
def State.scaled (s : State) (amt : BitVec 5) (sh : BitVec 2) (rm : RegNum) : Word :=
  (immShift sh amt (s.reg rm) s.flagC).value

/-- The base plus the offset, or minus it. -/
def offsetBy (u : Bool) (base off : Word) : Word := if u then base + off else base - off

/-- The address of P and W (30_encoding.md R296). -/
def address (p w : Bool) (base moved : Word) : Address :=
  { at_ := if p then moved else base, wb := moved, writes := !p || w }

/-- Addressing mode 2 (30_encoding.md R295, R296). -/
def State.mode2 (s : State) (rn : RegNum) (am : Mode2) : Address :=
  match am with
  | .imm u w off => address true w (s.reg rn) (offsetBy u (s.reg rn) (off.zeroExtend 32))
  | .reg u w amt sh rm => address true w (s.reg rn) (offsetBy u (s.reg rn) (s.scaled amt sh rm))
  | .immPost u off => address false false (s.reg rn) (offsetBy u (s.reg rn) (off.zeroExtend 32))
  | .regPost u amt sh rm => address false false (s.reg rn) (offsetBy u (s.reg rn) (s.scaled amt sh rm))

/-- The register offset of addressing mode 2, if it has one, and whether it writes back. -/
def mode2Rm (am : Mode2) : Option RegNum :=
  match am with
  | .imm _ _ _ => none
  | .reg _ _ _ _ rm => some rm
  | .immPost _ _ => none
  | .regPost _ _ _ rm => some rm

def mode2Writes (am : Mode2) : Bool :=
  match am with
  | .imm _ w _ => w
  | .reg _ w _ _ _ => w
  | .immPost _ _ => true
  | .regPost _ _ _ _ => true

/-- The form uses RRX (48_debug_jtag.md R812). -/
def mode2Rrx (am : Mode2) : Bool :=
  match am with
  | .reg _ _ amt sh _ => amt == 0#5 && sh == 3#2
  | .regPost _ amt sh _ => amt == 0#5 && sh == 3#2
  | _ => false

/-- The post-indexed addressing of the user-access forms (30_encoding.md R296). -/
def State.userMode2 (s : State) (rn : RegNum) (o : Offset2) : Address :=
  match o with
  | .imm u off => address false true (s.reg rn) (offsetBy u (s.reg rn) (off.zeroExtend 32))
  | .reg u amt sh rm => address false true (s.reg rn) (offsetBy u (s.reg rn) (s.scaled amt sh rm))

def offset2Rm (o : Offset2) : Option RegNum :=
  match o with
  | .imm _ _ => none
  | .reg _ _ _ rm => some rm

def offset2Rrx (o : Offset2) : Bool :=
  match o with
  | .reg _ amt sh _ => amt == 0#5 && sh == 3#2
  | _ => false

/-- Addressing mode 3 (30_encoding.md R297). -/
def State.mode3 (s : State) (p u w : Bool) (rn : RegNum) (o : Offset3) : Address :=
  let off : Word :=
    match o with
    | .imm h l => (h ++ l).zeroExtend 32
    | .reg rm => s.reg rm
  address p w (s.reg rn) (offsetBy u (s.reg rn) off)

def offset3Rm (o : Offset3) : Option RegNum :=
  match o with
  | .imm _ _ => none
  | .reg rm => some rm

/-- Why a single transfer with these registers is unpredictable (42_load_store.md R440; 30_encoding.md R305): R15 as
Rm or as a base that is written back; Rd or Rm the base that is written back (U43, U44). -/
def transferRefusal (rn rd : RegNum) (rm : Option RegNum) (writes : Bool) : Option Refusal :=
  if rm = some 15#4 then some .r15Operand
  else if writes && rn == 15#4 then some .r15Operand
  else if writes && (rd == rn || rm == some rn) then some .registerOverlap
  else none

/-! ### Register lists -/

/-- The registers of a list, rising (30_encoding.md R298). -/
def listRegs (list : BitVec 16) : List RegNum :=
  (List.range 16).filterMap fun i => if list.getLsbD i then some (BitVec.ofNat 4 i) else none

/-- First address and write-back value of addressing mode 4 for n registers (30_encoding.md R298). -/
def mode4 (p u : Bool) (base : Word) (n : Nat) : Word × Word :=
  let len := BitVec.ofNat 32 (4 * n)
  if u then (if p then base + 4#32 else base, base + len)
  else (if p then base - len else base - len + 4#32, base - len)

/-! ### Branches -/

/-- The target of B, BL and BLX (1): the address of the instruction + 8 + 4 * offset (30_encoding.md R299). -/
def State.branchTarget (s : State) (imm24 : BitVec 24) : Word :=
  s.pc + 8#32 + ((imm24.signExtend 32) <<< 2)

end Sys2Proof.Machine
end

