-- ==== Sys2Proof/Machine/DataProcessing.lean ====
section
/-!
DEFINITION. The meanings of the data-processing instructions and CLZ (spec/40_data_processing.md).
-/

namespace Sys2Proof.Machine

/-- An instruction with a condition: nothing but the PC moves on where it fails (30_encoding.md R281, R283). -/
def State.when (s : State) (cond : BitVec 4) (body : Result) : Result := if s.passes cond then body else .next s.skip

/-- A data-processing instruction, executed or not, leaves R13_dbg reliable, but for RRX (48_debug_jtag.md R813). -/
def State.dpBegin (s : State) (op2 : Op2) : State := if op2Rrx op2 then s else s.keepR13Dbg

/-- The end of a data-processing instruction with a destination: the register and, with S, the flags; or a branch, with
S the return from an exception (40_data_processing.md R350, R352). -/
def dpWrite (sf : Bool) (rd : RegNum) (value : Word) (flags : State → State) (s : State) : Result :=
  if rd = 15#4 then
    if sf then s.exceptionReturn value
    else if value.extractLsb' 0 2 ≠ 0#2 then .refused .unalignedTarget
    else .next (s.jump value true)
  else .next (if sf then flags (s.setReg rd value) else s.setReg rd value).advance

/-- An arithmetic instruction: f of Rn, the shifter operand and C (40_data_processing.md R350, R351). -/
def arithOp (cond : BitVec 4) (sf : Bool) (rn rd : RegNum) (op2 : Op2) (f : Word → Word → Bool → Sum) (s : State) :
    Result :=
  (s.dpBegin op2).when cond
    (if op2Allowed op2 rn rd then
      let r := f (s.reg rn) (s.operand2 op2).value s.flagC
      dpWrite sf rd r.value (fun t => t.setSum r) (s.dpBegin op2)
    else .refused .r15Operand)

/-- A logical instruction: f of Rn and the shifter operand; C is the shifter's (40_data_processing.md R350, R351). -/
def logicalOp (cond : BitVec 4) (sf : Bool) (rn rd : RegNum) (op2 : Op2) (f : Word → Word → Word) (s : State) :
    Result :=
  (s.dpBegin op2).when cond
    (if op2Allowed op2 rn rd then
      let o := s.operand2 op2
      let r := f (s.reg rn) o.value
      dpWrite sf rd r (fun t => t.setLogical r o.carry) (s.dpBegin op2)
    else .refused .r15Operand)

/-- A comparison by an arithmetic function: only flags (40_data_processing.md R350). -/
def arithTest (cond : BitVec 4) (rn : RegNum) (op2 : Op2) (f : Word → Word → Sum) (s : State) : Result :=
  (s.dpBegin op2).when cond
    (if op2Allowed op2 rn 0#4 then
      .next ((s.dpBegin op2).setSum (f (s.reg rn) (s.operand2 op2).value)).advance
    else .refused .r15Operand)

/-- A comparison by a logical function: only flags (40_data_processing.md R350). -/
def logicalTest (cond : BitVec 4) (rn : RegNum) (op2 : Op2) (f : Word → Word → Word) (s : State) : Result :=
  (s.dpBegin op2).when cond
    (if op2Allowed op2 rn 0#4 then
      .next ((s.dpBegin op2).setLogical (f (s.reg rn) (s.operand2 op2).value) (s.operand2 op2).carry).advance
    else .refused .r15Operand)

/-- AND (R360). -/
def execAnd (cond : BitVec 4) (sf : Bool) (rn rd : RegNum) (op2 : Op2) (s : State) : Result :=
  logicalOp cond sf rn rd op2 (fun a b => a &&& b) s

/-- EOR (R361). -/
def execEor (cond : BitVec 4) (sf : Bool) (rn rd : RegNum) (op2 : Op2) (s : State) : Result :=
  logicalOp cond sf rn rd op2 (fun a b => a ^^^ b) s

/-- SUB (R362). -/
def execSub (cond : BitVec 4) (sf : Bool) (rn rd : RegNum) (op2 : Op2) (s : State) : Result :=
  arithOp cond sf rn rd op2 (fun a b _ => addWithCarry a (~~~b) true) s

/-- RSB (R363). -/
def execRsb (cond : BitVec 4) (sf : Bool) (rn rd : RegNum) (op2 : Op2) (s : State) : Result :=
  arithOp cond sf rn rd op2 (fun a b _ => addWithCarry (~~~a) b true) s

/-- ADD (R364). -/
def execAdd (cond : BitVec 4) (sf : Bool) (rn rd : RegNum) (op2 : Op2) (s : State) : Result :=
  arithOp cond sf rn rd op2 (fun a b _ => addWithCarry a b false) s

/-- ADC (R365). -/
def execAdc (cond : BitVec 4) (sf : Bool) (rn rd : RegNum) (op2 : Op2) (s : State) : Result :=
  arithOp cond sf rn rd op2 (fun a b c => addWithCarry a b c) s

/-- SBC (R366). -/
def execSbc (cond : BitVec 4) (sf : Bool) (rn rd : RegNum) (op2 : Op2) (s : State) : Result :=
  arithOp cond sf rn rd op2 (fun a b c => addWithCarry a (~~~b) c) s

/-- RSC (R367). -/
def execRsc (cond : BitVec 4) (sf : Bool) (rn rd : RegNum) (op2 : Op2) (s : State) : Result :=
  arithOp cond sf rn rd op2 (fun a b c => addWithCarry (~~~a) b c) s

/-- TST (R368). -/
def execTst (cond : BitVec 4) (rn : RegNum) (op2 : Op2) (s : State) : Result :=
  logicalTest cond rn op2 (fun a b => a &&& b) s

/-- TEQ (R369). -/
def execTeq (cond : BitVec 4) (rn : RegNum) (op2 : Op2) (s : State) : Result :=
  logicalTest cond rn op2 (fun a b => a ^^^ b) s

/-- CMP (R370). -/
def execCmp (cond : BitVec 4) (rn : RegNum) (op2 : Op2) (s : State) : Result :=
  arithTest cond rn op2 (fun a b => addWithCarry a (~~~b) true) s

/-- CMN (R371). -/
def execCmn (cond : BitVec 4) (rn : RegNum) (op2 : Op2) (s : State) : Result :=
  arithTest cond rn op2 (fun a b => addWithCarry a b false) s

/-- ORR (R372). -/
def execOrr (cond : BitVec 4) (sf : Bool) (rn rd : RegNum) (op2 : Op2) (s : State) : Result :=
  logicalOp cond sf rn rd op2 (fun a b => a ||| b) s

/-- MOV (R373); the Rn field is should-be-zero. -/
def execMov (cond : BitVec 4) (sf : Bool) (rd : RegNum) (op2 : Op2) (s : State) : Result :=
  logicalOp cond sf 0#4 rd op2 (fun _ b => b) s

/-- BIC (R374). -/
def execBic (cond : BitVec 4) (sf : Bool) (rn rd : RegNum) (op2 : Op2) (s : State) : Result :=
  logicalOp cond sf rn rd op2 (fun a b => a &&& ~~~b) s

/-- MVN (R375); the Rn field is should-be-zero. -/
def execMvn (cond : BitVec 4) (sf : Bool) (rd : RegNum) (op2 : Op2) (s : State) : Result :=
  logicalOp cond sf 0#4 rd op2 (fun _ b => ~~~b) s

/-- The number of leading zeros (40_data_processing.md R380). -/
def leadingZeros (v : Word) : Word := if v = 0#32 then 32#32 else BitVec.ofNat 32 (31 - Nat.log2 v.toNat)

/-- CLZ (R380). -/
def execClz (cond : BitVec 4) (rd rm : RegNum) (s : State) : Result :=
  s.when cond
    (if rd = 15#4 ∨ rm = 15#4 then .refused .r15Operand
    else .next (s.setReg rd (leadingZeros (s.reg rm))).advance)

end Sys2Proof.Machine
end

