-- ==== Sys2Proof/Machine/BranchStatus.lean ====
section
/-!
DEFINITION. The meanings of the branches, the status register instructions, SWI, BKPT and the undefined encodings
(spec/43_branch_status_system.md; spec/30_encoding.md R303).
-/

namespace Sys2Proof.Machine

/-! ### Branches -/

/-- A direct branch that the branch target buffer knows: B and BL (21_mmu_caches_tlb.md R273), with the offset field of
a Thumb BL suffix. -/
def directBranch (taken : Bool) (target : Word) (suffix : Option (BitVec 11)) (link : State → State) (s : State) :
    Result :=
  let s1 := s.noteBranch.btbUpdate target taken suffix
  if taken then .next ((link s1).jump target false) else .next s1.skip

/-- The link register gets the address of the next instruction (43_branch_status_system.md R501). -/
def State.linkNext (s : State) : State := s.setReg 14#4 (s.pc + 4#32)

/-- B (R500). -/
def execB (cond : BitVec 4) (imm24 : BitVec 24) (s : State) : Result :=
  directBranch (s.passes cond) (s.branchTarget imm24) none (fun t => t) s

/-- BL (R501). -/
def execBl (cond : BitVec 4) (imm24 : BitVec 24) (s : State) : Result :=
  directBranch (s.passes cond) (s.branchTarget imm24) none State.linkNext s

/-- BLX (1) (R502). It is traced as an indirect branch (48_debug_jtag.md R805; log 47). -/
def execBlx1 (h : Bool) (imm24 : BitVec 24) (s : State) : Result :=
  .next ((s.noteBranch.linkNext.setThumb true).jump
    (s.branchTarget imm24 + (if h then 2#32 else 0#32)) true)

/-- BLX (2) (R503): the target is read before R14 is written. It counts as a branch whether or not its condition passes
(60_exceptions.md R904). -/
def execBlx2 (cond : BitVec 4) (rm : RegNum) (s : State) : Result :=
  s.noteBranch.when cond
    (if rm = 15#4 then .refused .r15Operand
    else s.noteBranch.linkNext.interwork (s.reg rm))

/-- BX (R504), counted as BLX (2) is. -/
def execBx (cond : BitVec 4) (rm : RegNum) (s : State) : Result :=
  s.noteBranch.when cond (s.noteBranch.interwork (s.reg rm))

/-! ### Status registers -/

/-- MRS (R510). -/
def execMrs (cond : BitVec 4) (r : Bool) (rd : RegNum) (s : State) : Result :=
  s.when cond
    (if rd = 15#4 then .refused .r15Operand
    else if r then
      match s.spsrOf with
      | some w => .next (s.setReg rd w).advance
      | none => .refused .noSpsr
    else .next (s.setReg rd s.cpsr).advance)

/-- byte_mask (43_branch_status_system.md R511). -/
def byteMask (mask : BitVec 4) : Word :=
  (if mask.getLsbD 0 then 0x000000FF#32 else 0#32) ||| (if mask.getLsbD 1 then 0x0000FF00#32 else 0#32) |||
  (if mask.getLsbD 2 then 0x00FF0000#32 else 0#32) ||| (if mask.getLsbD 3 then 0xFF000000#32 else 0#32)

/-- The bits under a mask replaced. -/
def mergeBits (old new mask : Word) : Word := (old &&& ~~~mask) ||| (new &&& mask)

/-- MSR to the CPSR (R511): refused where it changes T, names no mode, or enters User mode while debugging
(48_debug_jtag.md R766). -/
def writeCpsr (mask : BitVec 4) (operand : Word) (s : State) : Result :=
  let m := byteMask mask
  if s.privileged then
    let w := mergeBits s.cpsr operand m
    if w.getLsbD 5 ≠ s.cpsr.getLsbD 5 then .refused .thumbBitChange
    else if (modeOf (w.extractLsb' 0 5)).isNone then .refused .illegalMode
    else if s.inDebug && modeBits w == .usr then .refused .userInDebug
    else .next { s with cpsr := w, pc := s.pc + s.instrBytes }
  else .next { s with cpsr := mergeBits s.cpsr operand (m &&& 0xF8000000#32), pc := s.pc + s.instrBytes }

/-- MSR to the SPSR (R511). -/
def writeSpsr (mask : BitVec 4) (operand : Word) (s : State) : Result :=
  match s.spsrOf with
  | some w => .next (s.setSpsr s.mode (mergeBits w operand (byteMask mask))).advance
  | none => .refused .noSpsr

/-- MSR of a register (R511). -/
def execMsrReg (cond : BitVec 4) (r : Bool) (mask : BitVec 4) (rm : RegNum) (s : State) : Result :=
  s.when cond
    (if rm = 15#4 then .refused .r15Operand
    else if r then writeSpsr mask (s.reg rm) s else writeCpsr mask (s.reg rm) s)

/-- MSR of an immediate (R511; 30_encoding.md R294). -/
def execMsrImm (cond : BitVec 4) (r : Bool) (mask rot : BitVec 4) (imm8 : BitVec 8) (s : State) : Result :=
  s.when cond
    (let operand := (immOperand rot imm8 false).value
     if r then writeSpsr mask operand s else writeCpsr mask operand s)

/-! ### Software interrupt, breakpoint, undefined encodings -/

/-- A software interrupt, in either state (60_exceptions.md R884). -/
def softwareInterrupt (s : State) : Result :=
  if s.dbgUnit.sds then .refused .exceptionInSds else .next ((takeException .swi s).flowTo .trap)

/-- A software breakpoint, in either state: a NOP while debugging is disabled (48_debug_jtag.md R779). DESIGN CHOICE: that
holds in Special Debug State too, as after a reset vector trap with DCSR.GE = 0; U14, which lets a BKPT in that state stop,
does not speak of GE (log 74). -/
def softwareBreakpoint (s : State) : Result :=
  if !s.debugOn then .next s.advance
  else if s.dbgUnit.sds then .refused .exceptionInSds
  else .next ((s.debugEntry 0b011#3 (s.pc + 4#32)).flowTo .trap)

/-- SWI (R515): the immediate is not examined. -/
def execSwi (cond : BitVec 4) (_imm24 : BitVec 24) (s : State) : Result := s.when cond (softwareInterrupt s)

/-- BKPT (R516): the immediate is ignored. -/
def execBkpt (_immHi : BitVec 12) (_immLo : BitVec 4) (s : State) : Result := softwareBreakpoint s

/-- The architecturally undefined space (30_encoding.md R303 point 1). -/
def execUndefMedia (cond : BitVec 4) (_anyHi : BitVec 20) (_anyLo : BitVec 4) (s : State) : Result :=
  s.when cond (undefinedInstr s)

/-- The undefined points of the MSR immediate space (30_encoding.md R303 point 2). -/
def execUndefMsrImm (cond : BitVec 4) (_r : Bool) (_any : BitVec 20) (s : State) : Result :=
  s.when cond (undefinedInstr s)

end Sys2Proof.Machine
end

