-- ==== Sys2Proof/Machine/LoadStore.lean ====
section
/-!
DEFINITION. The meanings of the loads and stores, load and store multiple, swap and preload
(spec/42_load_store.md).
-/

namespace Sys2Proof.Machine

/-! ### Single transfers -/

/-- The write-back of a base register (30_encoding.md R296). -/
def State.updateBase (s : State) (rn : RegNum) (ad : Address) : State :=
  if ad.writes then s.setReg rn ad.wb else s

/-- A load into R0 to R14: the access, then the write-back, then Rd (42_load_store.md R440). -/
def loadReg (rn rd : RegNum) (ad : Address) (read : Word → Exec Word) (s : State) : Result :=
  runThen (read ad.at_) (fun v t => .next ((t.updateBase rn ad).setReg rd v).advance) s

/-- A load into R15 (42_load_store.md R442). -/
def loadPc (rn : RegNum) (ad : Address) (read : Word → Exec Word) (s : State) : Result :=
  runThen (read ad.at_) (fun v t => (t.updateBase rn ad).interwork v) s.noteLoadsPc

/-- A store: the access, then the write-back (42_load_store.md R440). -/
def storeReg (rn : RegNum) (ad : Address) (write : Word → Exec Unit) (s : State) : Result :=
  runThen (write ad.at_) (fun _ t => .next (t.updateBase rn ad).advance) s

/-- Refuse, or go on. -/
def orRefuse (r : Option Refusal) (body : Result) : Result :=
  match r with
  | some r => .refused r
  | none => body

/-- Rd must not be R15 (42_load_store.md R442; U43). -/
def rdRefusal (rd : RegNum) (r : Option Refusal) : Option Refusal := if rd = 15#4 then some .r15Operand else r

/-- LDR (R444). -/
def execLdr (cond : BitVec 4) (rn rd : RegNum) (am : Mode2) (s : State) : Result :=
  s.when cond (orRefuse (transferRefusal rn rd (mode2Rm am) (mode2Writes am))
    (if s.inDebug && (rd == 15#4 || mode2Rrx am) then .refused .forbiddenInDebug
    else if rd = 15#4 then
      if (s.mode2 rn am).at_.extractLsb' 0 2 ≠ 0#2 ∧ s.alignCheck = false then .refused .unalignedTarget
      else loadPc rn (s.mode2 rn am) (fun a => memReadWord a s.privileged) s
    else loadReg rn rd (s.mode2 rn am) (fun a => memReadWord a s.privileged) s))

/-- STR (R445). -/
def execStr (cond : BitVec 4) (rn rd : RegNum) (am : Mode2) (s : State) : Result :=
  s.when cond (orRefuse (transferRefusal rn rd (mode2Rm am) (mode2Writes am))
    (storeReg rn (s.mode2 rn am) (fun a => memWrite a 4 s.privileged (s.reg rd)) s))

/-- LDRB (R446). -/
def execLdrb (cond : BitVec 4) (rn rd : RegNum) (am : Mode2) (s : State) : Result :=
  s.when cond (orRefuse (rdRefusal rd (transferRefusal rn rd (mode2Rm am) (mode2Writes am)))
    (loadReg rn rd (s.mode2 rn am) (fun a => memRead a 1 s.privileged) s))

/-- STRB (R447). -/
def execStrb (cond : BitVec 4) (rn rd : RegNum) (am : Mode2) (s : State) : Result :=
  s.when cond (orRefuse (rdRefusal rd (transferRefusal rn rd (mode2Rm am) (mode2Writes am)))
    (storeReg rn (s.mode2 rn am) (fun a => memWrite a 1 s.privileged (s.reg rd)) s))

/-! ### User-access transfers -/

/-- LDRT (R452). -/
def execLdrt (cond : BitVec 4) (rn rd : RegNum) (off : Offset2) (s : State) : Result :=
  s.when cond (orRefuse (rdRefusal rd (transferRefusal rn rd (offset2Rm off) true))
    (loadReg rn rd (s.userMode2 rn off) (fun a => memReadWord a false) s))

/-- LDRBT (R453). -/
def execLdrbt (cond : BitVec 4) (rn rd : RegNum) (off : Offset2) (s : State) : Result :=
  s.when cond (orRefuse (rdRefusal rd (transferRefusal rn rd (offset2Rm off) true))
    (loadReg rn rd (s.userMode2 rn off) (fun a => memRead a 1 false) s))

/-- STRT (R454). -/
def execStrt (cond : BitVec 4) (rn rd : RegNum) (off : Offset2) (s : State) : Result :=
  s.when cond (orRefuse (rdRefusal rd (transferRefusal rn rd (offset2Rm off) true))
    (storeReg rn (s.userMode2 rn off) (fun a => memWrite a 4 false (s.reg rd)) s))

/-- STRBT (R455). -/
def execStrbt (cond : BitVec 4) (rn rd : RegNum) (off : Offset2) (s : State) : Result :=
  s.when cond (orRefuse (rdRefusal rd (transferRefusal rn rd (offset2Rm off) true))
    (storeReg rn (s.userMode2 rn off) (fun a => memWrite a 1 false (s.reg rd)) s))

/-! ### Halfword, signed and doubleword transfers -/

/-- Why a transfer with addressing mode 3 is unpredictable (30_encoding.md R296; U43, U44, U46). -/
def mode3Refusal (p w : Bool) (rn rd : RegNum) (off : Offset3) : Option Refusal :=
  if !p && w then some .addressingMode
  else rdRefusal rd (transferRefusal rn rd (offset3Rm off) (!p || w))

/-- LDRH (R460). -/
def execLdrh (cond : BitVec 4) (p u w : Bool) (rn rd : RegNum) (off : Offset3) (s : State) : Result :=
  s.when cond (orRefuse (mode3Refusal p w rn rd off)
    (loadReg rn rd (s.mode3 p u w rn off) (fun a => memRead a 2 s.privileged) s))

/-- STRH (R461). -/
def execStrh (cond : BitVec 4) (p u w : Bool) (rn rd : RegNum) (off : Offset3) (s : State) : Result :=
  s.when cond (orRefuse (mode3Refusal p w rn rd off)
    (storeReg rn (s.mode3 p u w rn off) (fun a => memWrite a 2 s.privileged (s.reg rd)) s))

/-- Bytes, one or two, as a signed number. -/
def signedOf (n : Nat) (bs : List Byte) : Word :=
  if n = 1 then ((wordOf bs).extractLsb' 0 8).signExtend 32 else ((wordOf bs).extractLsb' 0 16).signExtend 32

/-- MemRead of n bytes as a signed value. -/
def memReadSigned (va : Word) (n : Nat) (priv : Bool) : Exec Word := memReadAs (signedOf n) va n priv

/-- LDRSB (R462). -/
def execLdrsb (cond : BitVec 4) (p u w : Bool) (rn rd : RegNum) (off : Offset3) (s : State) : Result :=
  s.when cond (orRefuse (mode3Refusal p w rn rd off)
    (loadReg rn rd (s.mode3 p u w rn off) (fun a => memReadSigned a 1 s.privileged) s))

/-- LDRSH (R463). -/
def execLdrsh (cond : BitVec 4) (p u w : Bool) (rn rd : RegNum) (off : Offset3) (s : State) : Result :=
  s.when cond (orRefuse (mode3Refusal p w rn rd off)
    (loadReg rn rd (s.mode3 p u w rn off) (fun a => memReadSigned a 2 s.privileged) s))

/-- Why a doubleword transfer is unpredictable (42_load_store.md R464, R465; U44): R14 as Rd, or the base that is
written back or the offset register inside the pair. -/
def doubleRefusal (p w : Bool) (rn rd : RegNum) (off : Offset3) : Option Refusal :=
  let inPair (r : RegNum) : Bool := r == rd || r == rd + 1#4
  if !p && w then some .addressingMode
  else if rd = 14#4 then some .r15Operand
  else if (!p || w) && inPair rn then some .registerOverlap
  else if (offset3Rm off).any inPair then some .registerOverlap
  else transferRefusal rn rd (offset3Rm off) (!p || w)

/-- The 64-bit alignment check, whatever Control.A is (20_memory.md R130; log 27). -/
def checkDouble (va : Word) : Exec Unit := do
  let s ← get
  if va.extractLsb' 0 3 ≠ 0#3 then alignmentFault (s.mva va) else pure ()

/-- A load of several registers of the bank m that aborted: each register before the faulting word, but for the base
and R15, is overwritten or not (20_memory.md R155; log 41). -/
def abortLoad {α : Type} (m : Mode) (rn : RegNum) (vs : List (RegNum × Word)) (t : Trap) : Exec α := fun s =>
  let overwritten (p : RegNum × Word) : Bool :=
    s.draw.1.getLsbD p.1.toNat && p.1 != 15#4 && regIndex m p.1 != regIndex s.mode rn
  .error t ((vs.filter overwritten).foldl (fun s p => s.setBankReg m p.1 p.2) s.draw.2)

/-- Write loaded values to the registers of the current mode. -/
def State.setRegs (s : State) (vs : List (RegNum × Word)) : State := vs.foldl (fun s p => s.setReg p.1 p.2) s

/-- The two registers of a doubleword with unspecified values. -/
def freePair (rd : RegNum) : Exec (List (RegNum × Word)) := do
  let x ← drawWord
  let y ← drawWord
  pure [(rd, x), (rd + 1#4, y)]

/-- The two words of a doubleword load (R464). In Special Debug State the first word that aborts ends it: FSR and FAR are
that word's, and both registers are unspecified (48_debug_jtag.md R812). -/
def loadDouble (priv : Bool) (m : Mode) (rn rd : RegNum) (va : Word) : Exec (List (RegNum × Word)) :=
  ignoreAbortInSds (do
    checkDouble va
    let (vs, t) ← loadWords priv [rd, rd + 1#4] va
    match t with
    | some t => abortLoad m rn vs t
    | none => pure vs) (freePair rd)

/-- LDRD (R464). -/
def execLdrd (cond : BitVec 4) (p u w : Bool) (rn rd : RegNum) (off : Offset3) (s : State) : Result :=
  s.when cond
    (if rd.getLsbD 0 then undefinedInstr s
    else orRefuse (doubleRefusal p w rn rd off)
      (let ad := s.mode3 p u w rn off
       runThen (loadDouble s.privileged s.mode rn rd ad.at_)
        (fun vs t => .next ((t.updateBase rn ad).setRegs vs).advance) s))

/-- STRD (R465). -/
def execStrd (cond : BitVec 4) (p u w : Bool) (rn rd : RegNum) (off : Offset3) (s : State) : Result :=
  s.when cond
    (if rd.getLsbD 0 then undefinedInstr s
    else orRefuse (doubleRefusal p w rn rd off)
      (storeReg rn (s.mode3 p u w rn off) (fun a => do
        refuseAbortInSds (checkDouble a)
        storeWords s.privileged [s.reg rd, s.reg (rd + 1#4)] a) s))

/-! ### Load and store multiple -/

/-- Why a load or store multiple is unpredictable (42_load_store.md R470, R473; U44): an empty list, R15 as base. -/
def listRefusal (rn : RegNum) (regs : List RegNum) : Option Refusal :=
  if regs.isEmpty then some .registerOverlap else if rn = 15#4 then some .r15Operand else none

/-- A load multiple of registers of a bank: every word in turn, then the base, then what is done with the values
(42_load_store.md R470). -/
def loadMultiple (bank : Mode) (p u w : Bool) (rn : RegNum) (regs : List RegNum)
    (k : List (RegNum × Word) → State → Result) (s : State) : Result :=
  let m := mode4 p u (s.reg rn) regs.length
  runThen (do
      checkSpan m.1 regs.length
      let (vs, t) ← loadWords s.privileged regs m.1
      match t with
      | some t => abortLoad bank rn vs t
      | none => pure vs)
    (fun vs t => k vs (if w then t.setReg rn m.2 else t))
    (if regs.contains 15#4 then s.noteLoadsPc else s)

/-- The loaded value of R15. -/
def pcValue (vs : List (RegNum × Word)) : Option Word := (vs.find? fun p => p.1 == 15#4).map Prod.snd

/-- LDM (1) (R470). -/
def execLdm1 (cond : BitVec 4) (p u w : Bool) (rn : RegNum) (list : BitVec 16) (s : State) : Result :=
  s.when cond (orRefuse (listRefusal rn (listRegs list))
    (if w && (listRegs list).contains rn then .refused .registerOverlap
    else if s.inDebug then .refused .forbiddenInDebug
    else loadMultiple s.mode p u w rn (listRegs list) (fun vs t =>
      match pcValue vs with
      | some v => (t.setRegs vs).interwork v
      | none => .next (t.setRegs vs).advance) s))

/-- LDM (2), user registers (R471). -/
def execLdm2 (cond : BitVec 4) (p u w : Bool) (rn : RegNum) (list : BitVec 15) (s : State) : Result :=
  s.when cond (orRefuse (listRefusal rn (listRegs (list.zeroExtend 16)))
    (if w || s.lacksSpsr then .refused .userBankTransfer
    else if s.inDebug then .refused .forbiddenInDebug
    else loadMultiple .usr p u false rn (listRegs (list.zeroExtend 16)) (fun vs t =>
      let t : State := vs.foldl (fun (t : State) p => t.setBankReg .usr p.1 p.2) t
      .next ({ t with bankHazard := true } : State).advance) s))

/-- LDM (3), exception return (R472): R15 is in the list. -/
def execLdm3 (cond : BitVec 4) (p u w : Bool) (rn : RegNum) (list : BitVec 15) (s : State) : Result :=
  let regs := listRegs (1#1 ++ list)
  s.when cond (orRefuse (listRefusal rn regs)
    (if w && regs.contains rn then .refused .registerOverlap
    else if s.inDebug then .refused .forbiddenInDebug
    else if s.lacksSpsr then .refused .noSpsr
    else loadMultiple s.mode p u w rn regs (fun vs t =>
      (t.setRegs vs).exceptionReturn ((pcValue vs).getD 0#32)) s))

/-- A store multiple: the words of the registers in turn, then the base (42_load_store.md R473). A base in the list
that is written back and is not the lowest register is stored as a free value. -/
def storeMultiple (p u w : Bool) (rn : RegNum) (regs : List RegNum) (value : RegNum → Word) (s : State) : Result :=
  let m := mode4 p u (s.reg rn) regs.length
  let spoilt := w && regs.contains rn && regs.head? != some rn
  let s1 := if spoilt then s.draw.2 else s
  let words := regs.map fun r => if spoilt && r == rn then s.draw.1 else value r
  runThen (do
      checkSpan m.1 regs.length
      storeWords s1.privileged words m.1)
    (fun _ t => .next (if w then t.setReg rn m.2 else t).advance) s1

/-- STM (1) (R473). -/
def execStm1 (cond : BitVec 4) (p u w : Bool) (rn : RegNum) (list : BitVec 16) (s : State) : Result :=
  s.when cond (orRefuse (listRefusal rn (listRegs list))
    (storeMultiple p u w rn (listRegs list) (fun r => s.reg r) s))

/-- STM (2), user registers (R473). -/
def execStm2 (cond : BitVec 4) (p u w : Bool) (rn : RegNum) (list : BitVec 16) (s : State) : Result :=
  s.when cond (orRefuse (listRefusal rn (listRegs list))
    (if w || s.lacksSpsr then .refused .userBankTransfer
    else storeMultiple p u false rn (listRegs list) (fun r => if r = 15#4 then s.pcRead else s.bankReg .usr r) s))

/-! ### Swap and preload -/

/-- A swap of an MVA exchanges with memory: no line answers its load, and its store goes to the bus side. A swap that a
line answers is atomic for the core only, since masters do not see the cache (20_memory.md R141). -/
def State.swapsMemory (s : State) (mva : Word) (a : Attrs) : Bool :=
  (s.findDLine mva).isNone && (!s.cacheable a || s.writesThrough a)

/-- The two accesses of a swap of n bytes: both permissions first, then the load, then the store, which only a master
outside the chip can divide: where the swap exchanges with memory, its store is there before the instruction ends, on a
bufferable page too (42_load_store.md R474; 20_memory.md R141; log 38). -/
def swapAccess (va : Word) (n : Nat) (priv : Bool) (v : Word) : Exec Word := do
  let _ ← dataPlace va n priv false true
  let (mva, pa, a) ← dataPlace va n priv true true
  let s ← get
  let inMemory := s.swapsMemory mva a
  let bs ← loadBytes mva pa a n
  modify State.swapGap
  storeBytes mva pa a (bytesOf v n)
  modify fun s => s.fence inMemory
  loadedValue wordOf bs

/-- A swap (42_load_store.md R474, R475; U43, U44). -/
def swapOp (cond : BitVec 4) (rn rd rm : RegNum) (n : Nat) (value : Word → Word) (s : State) : Result :=
  s.when cond
    (if rn = 15#4 ∨ rd = 15#4 ∨ rm = 15#4 then .refused .r15Operand
    else if rn = rm ∨ rn = rd then .refused .registerOverlap
    else if s.inDebug then .refused .forbiddenInDebug
    else runThen (swapAccess (s.reg rn) n s.privileged (s.reg rm))
      (fun v t => .next (t.setReg rd (value v)).advance) s)

/-- SWP (R474). -/
def execSwp (cond : BitVec 4) (rn rd rm : RegNum) (s : State) : Result :=
  swapOp cond rn rd rm 4 (fun v => rotateLoaded (s.reg rn) v) s

/-- SWPB (R475). -/
def execSwpb (cond : BitVec 4) (rn rd rm : RegNum) (s : State) : Result :=
  swapOp cond rn rd rm 1 (fun v => v) s

/-- The page of a preload: what the data TLB holds for it, if the access is allowed (42_load_store.md R476). DESIGN
CHOICE: a permission that 21_mmu_caches_tlb.md R192 leaves unpredictable (AP = 00, S = 1, R = 1) drops the preload, which
never faults (log 64). -/
def preloadPage (s : State) (mva : Word) : Option TlbEntry :=
  if s.mmuOn then
    match s.dtlb.lookup mva with
    | none => none
    | some e =>
      match checkAccess s e mva s.privileged false with
      | .ok _ => some e
      | .error _ => none
  else none

/-- The line fill of PLD, where there is one (42_load_store.md R476). To a cacheable page it is an access of the data
cache, and a miss where it fills a line (60_exceptions.md R904, events 0xA and 0xB; log 23). -/
def preload (va : Word) : Exec Unit := do
  let s ← get
  let mva := s.mva va
  match preloadPage s mva with
  | none => pure ()
  | some e =>
    if !s.cacheable e.attrs then pure ()
    else if (s.findDLine mva).isSome then set (s.noteAccess false)
    else if s.reservedAttrs e.attrs then faultWith .reservedAttributes
    else do
      set (s.noteAccess true)
      let _ ← fillLine e.attrs.mini mva (e.physical mva) false

/-- PLD, immediate offset (R476). -/
def execPldImm (u : Bool) (rn : RegNum) (off12 : BitVec 12) (s : State) : Result :=
  runThen (preload (offsetBy u (s.reg rn) (off12.zeroExtend 32))) (fun _ t => .next t.advance) s

/-- PLD, scaled register offset (R476). -/
def execPldReg (u : Bool) (rn : RegNum) (amt : BitVec 5) (sh : BitVec 2) (rm : RegNum) (s : State) : Result :=
  if rm = 15#4 then .refused .r15Operand
  else runThen (preload (offsetBy u (s.reg rn) (s.scaled amt sh rm))) (fun _ t => .next t.advance) s

end Sys2Proof.Machine
end

