-- ==== Sys2Proof/Machine/Outside.lean ====
section
/-!
DEFINITION. What happens to the machine from outside: the two resets, the debugger's operations and the TAP, other bus
masters and devices, and the fetch side that runs ahead (spec/70_reset_and_hazards.md R940 to R949;
spec/48_debug_jtag.md R772, R815 to R848; spec/20_memory.md R135, R146, R153).
-/

namespace Sys2Proof.Machine

/-! ### Resets -/

/-- LDIC mode: the JTAG instruction is ldic (48_debug_jtag.md R830). -/
def State.ldicMode (s : State) : Bool := s.jtag.ir == 0b00111#5

/-- The DCSR after a processor reset: H and the trap bits stay (48_debug_jtag.md R772). -/
def dcsrReset (dcsr : Word) : Word := dcsr &&& 0x40DF0000#32

/-- DBG_REG after a reset: bits 34, 1 and 0 from `kept`, the others free (10_state.md R100; 48_debug_jtag.md R837;
log 30). -/
def dbgRegReset (kept : BitVec 35) (free : Word) : BitVec 35 :=
  kept.extractLsb' 34 1 ++ free ++ kept.extractLsb' 0 2

/-- The core after a processor reset: what reset gives, over what it leaves alone (70_reset_and_hazards.md R941 to
R947; 48_debug_jtag.md R830). Registers without a reset value keep theirs. In LDIC mode the main instruction cache keeps
its lines, unlocked, and its round-robin pointers are at way 31 as always (70_reset_and_hazards.md R945; log 33). DESIGN
CHOICE: the two fetch buffers are empty, in LDIC mode too, of which the spec says nothing (log 19). DESIGN CHOICE: where
the mini instruction cache is invalidated (48_debug_jtag.md R829) its round-robin pointers are at way 0, and so are those
of the mini-data cache after every processor reset; where it is kept, its pointers are too (log 7). -/
def State.processorReset (s : State) : State :=
  let r := State.reset
  { s.draw.2 with
    jtag := { s.jtag with dbgReg := dbgRegReset s.jtag.dbgReg s.draw.1 }
    pc := r.pc
    cpsr := s.cpsr.extractLsb' 8 24 ++ 0xD3#8
    cp15 := { s.cp15 with
      control := r.cp15.control, auxControl := r.cp15.auxControl, dcacheLock := false, pid := r.cp15.pid,
      ibcr0 := s.cp15.ibcr0 &&& 0xFFFFFFFE#32, ibcr1 := s.cp15.ibcr1 &&& 0xFFFFFFFE#32,
      dbcon := r.cp15.dbcon, cpar := r.cp15.cpar }
    pmu := { s.pmu with pmnc := s.pmu.pmnc &&& 0xFFFFFF8E#32 }
    dbgUnit := { s.dbgUnit with
      dcsr := dcsrReset s.dbgUnit.dcsr, txrxctrl := 0#32, sds := false, extHeld := false,
      traceFull := false, resetTrap := false }
    trace := { s.trace with count := 0#4, written := 0, sinceCkpt := none }
    itlb := { s.itlb with rr := 31, lock := 0 }
    dtlb := { s.dtlb with rr := 31, lock := 0 }
    icache := { r.icache with lines := if s.ldicMode then s.icache.lines else [] }
    miniIc := if s.ldicMode || s.haltMode then s.miniIc else r.miniIc
    fetchBuffers := []
    dcache := r.dcache
    miniDc := r.miniDc
    writeBuffer := []
    btb := []
    modified := []
    pendingAbort := none
    asyncWait := none
    bankHazard := false
    power := .active }

/-- Update what is held in reset after the pin or hold_rst changed: the reset pin puts the core into reset, where
hold_rst keeps it; at the release a reset vector trap may be due (70_reset_and_hazards.md R940;
48_debug_jtag.md R764). DESIGN CHOICE: as long as the pin is asserted the reset values are applied, and the caches
invalidated, again whenever the debugger writes its bits of DCSR and at a JTAG reset, by the modes in force then (R830);
while hold_rst alone holds the core nothing is applied until the release (log 33). -/
def State.updateReset (s : State) : State :=
  if s.resetPin then { s.processorReset with inReset := true }
  else if s.inReset && !s.dbgUnit.holdRst then
    { s.processorReset with
      inReset := false,
      dbgUnit := { s.processorReset.dbgUnit with resetTrap := s.haltMode && s.dbgUnit.dcsr.getLsbD 16 } }
  else s

/-- n free bits. -/
def State.drawBits (s : State) (n : Nat) : List Bool × State :=
  ((List.range n).map fun i => (Config.freeWord (s.freeCtr + i / 32)).getLsbD (i % 32),
   { s with freeCtr := s.freeCtr + (n + 31) / 32 })

/-- JTAG reset (70_reset_and_hazards.md R943; 48_debug_jtag.md R816, R837): DBG_REG[33:2] and the boundary-scan register
become free (10_state.md R100; 48_debug_jtag.md R820; log 30, 32). -/
def State.jtagReset (s : State) : State :=
  let (w, s1) := s.draw
  let (cells, s2) := s1.drawBits s.jtag.boundary.length
  let (latch, s3) := s2.drawBits s.jtag.boundaryLatch.length
  ({ s3 with
    jtag := { s.jtag with tap := .testLogicReset, ir := 0b11110#5, dbgReg := dbgRegReset 0#35 w, ldicPkts := [],
                          ldicDrain := 0, boundary := cells, boundaryLatch := latch, tdo := none }
    dbgUnit := { s.dbgUnit with dcsr := s.dbgUnit.dcsr &&& ~~~0x40DF0000#32, holdRst := false, extBreak := false,
                                extHeld := false } }).updateReset

/-- nBATT_FAULT or nVDD_FAULT is low (48_debug_jtag.md R816). -/
def State.powerFault (s : State) : Bool := s.battFault || s.vddFault

/-- What follows from the levels of nBATT_FAULT, nVDD_FAULT and the reset pin: a power fault puts the device into sleep
(48_debug_jtag.md R816), and the way out of sleep is a processor reset together with a JTAG reset
(70_reset_and_hazards.md R949; log 29). -/
def State.updatePins (s : State) : State :=
  if s.powerFault then (if s.power == .sleep then s else s.lowPower .sleep)
  else if s.power == .sleep then (if s.resetPin then s.jtagReset else s)
  else s.updateReset

/-! ### The registers a debugger reaches -/

/-- RR, OV, D and TR of TXRXCTRL (10_state.md R81). -/
def State.rr (s : State) : Bool := s.dbgUnit.txrxctrl.getLsbD 31
def State.tr (s : State) : Bool := s.dbgUnit.txrxctrl.getLsbD 28
def State.setLink (s : State) (n : Nat) (b : Bool) : State :=
  { s with dbgUnit := { s.dbgUnit with txrxctrl := setBit s.dbgUnit.txrxctrl n b } }

/-- The debugger writes its bits of DCSR, requests a break, sets hold_rst (48_debug_jtag.md R771, R823, R838). -/
def State.hostDcsr (s : State) (v : Word) (brk hold : Bool) : State :=
  ({ s with dbgUnit := { s.dbgUnit with
      dcsr := (s.dbgUnit.dcsr &&& ~~~0x40DF0000#32) ||| (v &&& 0x40DF0000#32),
      extBreak := s.dbgUnit.extBreak || brk, holdRst := hold } }).updateReset

/-- The debugger writes RX (48_debug_jtag.md R782, R836). -/
def State.hostRx (s : State) (data : Word) : State :=
  let s1 := if s.rr then s.setLink 30 true else s
  let s2 := s1.setLink 31 true
  { s2 with dbgUnit := { s2.dbgUnit with rx := data } }

/-- DCSR as read: reserved bits are undefined (10_state.md R78). -/
def State.readDcsr (s : State) : Word × State :=
  ((s.dbgUnit.dcsr &&& 0xC0DF003F#32) ||| (s.draw.1 &&& 0x3F20FFC0#32), s.draw.2)

/-- One LDIC function (48_debug_jtag.md R827); a load of a line that is already valid is unpredictable (U26). -/
def ldicApply (s : State) (f : LdicFunction) (va : Word) (words : List Word) (bad : BitVec 8) : Result :=
  let valid := (findILine s.icache.lines 32 va).isSome || (findILine s.miniIc.lines 2 va).isSome
  match f with
  | .invalidateLine =>
    .next { s with icache := { s.icache with lines := dropILine s.icache.lines 32 va },
                   miniIc := { s.miniIc with lines := dropILine s.miniIc.lines 2 va } }
  | .invalidateMini => .next { s with miniIc := { s.miniIc with lines := [] } }
  | .loadMain =>
    if valid then .refused .hostProtocol
    else .next { s with icache := s.icache.install va 0#32 words bad false true }
  | .loadMini =>
    if valid then .refused .hostProtocol
    else .next { s with miniIc := s.miniIc.install va words bad }

/-! ### The TAP -/

/-- The next state of the TAP controller (48_debug_jtag.md R821). -/
def TapState.next (t : TapState) (tms : Bool) : TapState :=
  match t with
  | .testLogicReset => if tms then .testLogicReset else .runTestIdle
  | .runTestIdle => if tms then .selectDr else .runTestIdle
  | .selectDr => if tms then .selectIr else .captureDr
  | .captureDr => if tms then .exit1Dr else .shiftDr
  | .shiftDr => if tms then .exit1Dr else .shiftDr
  | .exit1Dr => if tms then .updateDr else .pauseDr
  | .pauseDr => if tms then .exit2Dr else .pauseDr
  | .exit2Dr => if tms then .updateDr else .shiftDr
  | .updateDr => if tms then .selectDr else .runTestIdle
  | .selectIr => if tms then .testLogicReset else .captureIr
  | .captureIr => if tms then .exit1Ir else .shiftIr
  | .shiftIr => if tms then .exit1Ir else .shiftIr
  | .exit1Ir => if tms then .updateIr else .pauseIr
  | .pauseIr => if tms then .exit2Ir else .pauseIr
  | .exit2Ir => if tms then .updateIr else .shiftIr
  | .updateIr => if tms then .selectDr else .runTestIdle

/-- The test data registers (48_debug_jtag.md R819, R820). -/
inductive DataReg where
  | dbgSr
  | ldic
  | ident
  | boundary
  | bypass
  | none
deriving DecidableEq, Repr

/-- The register an instruction selects (48_debug_jtag.md R818); none for the private and unused codes. -/
def dataRegOf (ir : BitVec 5) : DataReg :=
  if ir = 0b00010#5 ∨ ir = 0b01001#5 ∨ ir = 0b10000#5 then .dbgSr
  else if ir = 0b00111#5 then .ldic
  else if ir = 0b11110#5 then .ident
  else if ir = 0b00000#5 ∨ ir = 0b00001#5 then .boundary
  else if ir = 0b00100#5 ∨ ir = 0b01000#5 ∨ ir = 0b11111#5 then .bypass
  else .none

/-- Capture_DR of the debug shift register (48_debug_jtag.md R823, R824, R836); bits that are not stated are free. -/
def State.captureDebug (s : State) : State :=
  let w := Config.freeWord s.freeCtr
  if s.jtag.ir = 0b01001#5 then
    let (dcsr, s1) := s.draw.2.readDcsr
    { s1 with jtag := { s1.jtag with dbgSr := w.extractLsb' 0 1 ++ dcsr ++ 0#1 ++ 1#1 ++ w.extractLsb' 1 1 } }
  else if s.jtag.ir = 0b10000#5 then
    let s1 := if Config.clearsTrAtUpdate then s.draw.2 else s.draw.2.setLink 28 false
    { s1 with jtag := { s1.jtag with
        dbgSr := w.extractLsb' 0 1 ++ s.dbgUnit.tx ++ w.extractLsb' 1 2 ++ BitVec.ofBool s.tr, txCaptured := s.tr } }
  else
    let v := Config.freeWord (s.freeCtr + 1)
    let s1 := s.draw.2.draw.2
    { s1 with jtag := { s1.jtag with dbgSr := w.extractLsb' 0 3 ++ v ++ BitVec.ofBool s.rr } }

/-- Update_DR of the debug shift register (48_debug_jtag.md R823, R824, R836). DESIGN CHOICE: of a FLUSH and a valid write
in one scan, whose order R836 does not state, the FLUSH comes first, as its listing writes them: OV stays, and RR ends set
(log 30). -/
def State.updateDebug (s : State) : State :=
  let sr := s.jtag.dbgSr
  let s1 := { s with jtag := { s.jtag with dbgReg := sr.extractLsb' 1 35 } }
  let data := sr.extractLsb' 3 32
  if s.jtag.ir = 0b01001#5 then s1.hostDcsr data (sr.getLsbD 2) (sr.getLsbD 1)
  else if s.jtag.ir = 0b10000#5 then
    if Config.clearsTrAtUpdate && s.jtag.txCaptured then s1.setLink 28 false else s1
  else
    let d := if Config.flushIsBit1 then sr.getLsbD 2 else sr.getLsbD 1
    let flush := if Config.flushIsBit1 then sr.getLsbD 1 else sr.getLsbD 2
    let s2 := s1.setLink 29 d
    let s3 := if flush then s2.setLink 31 false else s2
    if sr.getLsbD 35 && !s.jtag.dbgReg.getLsbD 34 then
      let s4 := s3.hostRx data
      { s4 with jtag := { s4.jtag with dbgReg := 0#1 ++ s4.jtag.dbgReg.extractLsb' 0 34 } }
    else s3

/-- The parity bit of a word for LDIC: even parity (48_debug_jtag.md R828; 92_eei_decisions.md, LdicParity). -/
def evenParity (w : Word) : Bool := (List.range 32).foldl (fun p i => xor p (w.getLsbD i)) false

/-- The words of the data packets, and which have a wrong parity bit. -/
def packetWords (ps : List (BitVec 33)) : List Word := ps.map fun p => p.extractLsb' 0 32
def packetBad : List (BitVec 33) → Nat → BitVec 8
  | [], _ => 0#8
  | p :: ps, i =>
    (if p.getLsbD 32 = evenParity (p.extractLsb' 0 32) then 0#8 else 1#8 <<< i) ||| packetBad ps (i + 1)

/-- For how many TCKs after an Update_DR the packet in LDIC_SR2 is on its way (48_debug_jtag.md R826). -/
def ldicDrainTime : Nat := 15

/-- LDIC_SR2 has not drained: ldic must stay in force (48_debug_jtag.md R826; U26). -/
def Jtag.ldicBusy (j : Jtag) : Bool := decide (0 < j.ldicDrain)

/-- Update_DR of LDIC: the packet goes to LDIC_REG and LDIC_SR2 at once, and a complete function is performed
(48_debug_jtag.md R826 to R828; log 30). It must not come before the last packet is through (U26). DESIGN CHOICE: bits
[5:3] of the first packet, which R828 does not describe, have no effect (log 30). -/
def State.updateLdic (s : State) : Result :=
  let p := s.jtag.ldicSr
  let ps := s.jtag.ldicPkts ++ [p]
  let j : Jtag := { s.jtag with ldicReg := p, ldicSr2 := p, ldicDrain := ldicDrainTime }
  let hold : State := { s with jtag := { j with ldicPkts := ps } }
  let done : State := { s with jtag := { j with ldicPkts := [] } }
  if 0 < s.jtag.ldicDrain then .refused .hostProtocol
  else match ps with
  | [] => .next s
  | p :: data =>
    let va : Word := p.extractLsb' 6 27 ++ 0#5
    match (p.extractLsb' 0 3).toNat with
    | 0 => ldicApply done .invalidateLine va [] 0#8
    | 1 => ldicApply done .invalidateMini va [] 0#8
    | 2 => if data.length < 8 then .next hold else ldicApply done .loadMain va (packetWords data) (packetBad data 0)
    | 3 => if data.length < 8 then .next hold else ldicApply done .loadMini va (packetWords data) (packetBad data 0)
    | _ => .refused .hostProtocol

/-- Drive TDO (48_debug_jtag.md R815). -/
def State.tdoTo (s : State) (b : Bool) : State := { s with jtag := { s.jtag with tdo := some b } }

/-- Shift_DR: the selected register moves one bit toward TDO (48_debug_jtag.md R820 to R822). -/
def State.shiftDr (s : State) (tdi : Bool) : State :=
  let j := s.jtag
  match dataRegOf j.ir with
  | .dbgSr =>
    ({ s with jtag := { j with dbgSr := BitVec.ofBool tdi ++ j.dbgSr.extractLsb' 1 35 } }).tdoTo (j.dbgSr.getLsbD 0)
  | .ldic =>
    ({ s with jtag := { j with ldicSr := BitVec.ofBool tdi ++ j.ldicSr.extractLsb' 1 32 } }).tdoTo (j.ldicSr.getLsbD 0)
  | .ident =>
    ({ s with jtag := { j with idShift := BitVec.ofBool tdi ++ j.idShift.extractLsb' 1 31 } }).tdoTo
      (j.idShift.getLsbD 0)
  | .boundary =>
    match j.boundary with
    | [] => s.tdoTo tdi
    | b :: bs => ({ s with jtag := { j with boundary := bs ++ [tdi] } }).tdoTo b
  | .bypass => ({ s with jtag := { j with bypass := tdi } }).tdoTo j.bypass
  | .none => s

/-- Capture_DR of the selected register (48_debug_jtag.md R819, R820, R826). The cells of the boundary-scan register
take the pins' states, which are outside the model (log 32). -/
def State.captureDr (s : State) : State :=
  match dataRegOf s.jtag.ir with
  | .dbgSr => s.captureDebug
  | .ldic =>
    let s1 := s.draw.2.draw.2
    { s1 with jtag := { s1.jtag with
        ldicSr := Config.freeWord s.freeCtr ++ (Config.freeWord (s.freeCtr + 1)).extractLsb' 0 1 } }
  | .ident => { s with jtag := { s.jtag with idShift := Config.jtagIdCode } }
  | .boundary =>
    let (cells, s1) := s.drawBits s.jtag.boundary.length
    { s1 with jtag := { s.jtag with boundary := cells } }
  | .bypass => { s with jtag := { s.jtag with bypass := false } }
  | .none => s

/-- A new instruction comes into force: a private or unused code is refused, and so is leaving ldic too early
(48_debug_jtag.md R817, R818, R826; U26). DESIGN CHOICE: the packets of a function that is not complete are dropped where
ldic is left, of which the spec says nothing (log 30). -/
def State.latchIr (s : State) (ir : BitVec 5) : Result :=
  if dataRegOf ir = .none || (s.jtag.ldicBusy && ir != 0b00111#5) then .refused .hostProtocol
  else .next { s with jtag := { s.jtag with
    ir := ir, ldicPkts := if ir = 0b00111#5 then s.jtag.ldicPkts else [] } }

/-- nTRST goes low: a JTAG reset, which takes ldic out of the JTAG IR and so must not come before LDIC_SR2 has drained
(70_reset_and_hazards.md R943; 48_debug_jtag.md R826; U26). -/
def State.assertTrst (s : State) : Result := if s.jtag.ldicBusy then .refused .hostProtocol else .next s.jtagReset

/-- Update_DR of the selected register (48_debug_jtag.md R819, R822, R826): the boundary-scan cells go to their update
registers. -/
def State.updateDr (s : State) : Result :=
  match dataRegOf s.jtag.ir with
  | .dbgSr => .next s.updateDebug
  | .ldic => s.updateLdic
  | .boundary => .next { s with jtag := { s.jtag with boundaryLatch := s.jtag.boundary } }
  | .ident => .next s
  | .bypass => .next s
  | .none => .next s

/-- One rising edge of TCK (48_debug_jtag.md R817, R821): the action of the present state, then the move. TDO is inactive
but for shifts (R815), and LDIC_SR2 drains (R826). -/
def tckEdge (s0 : State) (tms tdi : Bool) : Result :=
  let s : State := { s0 with jtag := { s0.jtag with tdo := none, ldicDrain := s0.jtag.ldicDrain - 1 } }
  let move (s : State) : State := { s with jtag := { s.jtag with tap := s.jtag.tap.next tms } }
  let entered (s : State) : Result :=
    let s1 := move s
    match s1.jtag.tap with
    | .testLogicReset => s1.latchIr 0b11110#5
    | .updateDr => s1.updateDr
    | .updateIr => s1.latchIr s1.jtag.irShift
    | _ => .next s1
  match s.jtag.tap with
  | .captureDr => entered s.captureDr
  | .shiftDr => entered (s.shiftDr tdi)
  | .captureIr => entered { s with jtag := { s.jtag with irShift := 0b00001#5 } }
  | .shiftIr =>
    entered (({ s with jtag := { s.jtag with
      irShift := BitVec.ofBool tdi ++ s.jtag.irShift.extractLsb' 1 4 } }).tdoTo (s.jtag.irShift.getLsbD 0))
  | _ => entered s

/-! ### Outside events -/

/-- Give the host a reply. -/
def State.reply (s : State) (f : Bool) (v : Word) : State := { s with hostReply := { flag := f, value := v } }

/-- A parity bit goes wrong in the instruction caches at an MVA (21_mmu_caches_tlb.md R225). -/
def flipILine (lines : List (Nat × ILine)) (ways : Nat) (mva : Word) : List (Nat × ILine) :=
  lines.map fun p =>
    if decide (p.1 / ways = setOf mva) && p.2.tag == tagOf mva then
      (p.1, { p.2 with bad := p.2.bad ^^^ (1#8 <<< (offsetOf mva / 4)) })
    else p

/-- The event is an operation of the debugger, which sleep powers down (48_debug_jtag.md R816). -/
def HostOp.viaJtag : HostOp → Bool
  | .resetPin _ => false
  | .lines _ _ => false
  | .flipInstrParity _ => false
  | .flipDataParity _ => false
  | .trstPin _ => false
  | .faultPins _ _ => false
  | .wake => false
  | .masterWrite _ _ => false
  | .masterBetween _ => false
  | .deviceReply _ => false
  | .fetchAhead _ => false
  | _ => true

/-- The address that the fetch side comes to n instructions after the one at the PC: after each the target that the
branch target buffer sends, where it hits, else the next in address order (21_mmu_caches_tlb.md R272). -/
def State.fetchPath (s : State) : Nat → Word
  | 0 => s.pc
  | n + 1 => (s.btbTarget (s.fetchPath n)).getD (s.fetchPath n + s.instrBytes)

/-- How many instructions the fetch side runs ahead of the PC: those of 128 bytes (20_memory.md R153; log 19). -/
def State.aheadLimit (s : State) : Nat := if s.thumb then 64 else 32

/-- The fetch side reads at the address that it comes to n instructions after the PC, within the distance that the core
runs ahead: what a fetch there does to TLB, caches, fetch buffers, devices and the monitor, also where it fails, but no
abort. A predicted target is thus read whether or not the branch turns out taken (20_memory.md R137, R153;
21_mmu_caches_tlb.md R272, R274; log 19). -/
def State.fetchAhead (s : State) (n : Nat) : State :=
  let there : State := { s with pc := s.fetchPath n, scratch := Scratch.clear }
  if s.inReset || s.power != .active || decide (s.aheadLimit < n) then s
  else
    match fetch there with
    | .ok _ t => { t.countStep false true with pc := s.pc, scratch := s.scratch }
    | .error (.prefetchAbort _) t => { t.countStep false true with pc := s.pc, scratch := s.scratch }
    | .error _ _ => s

/-- The outside event a step performs (48_debug_jtag.md R848; log 30). In sleep, and while nTRST is held low, the
debugger's operations do nothing (R816; 70_reset_and_hazards.md R943). -/
def outsideEvent (op : HostOp) (s : State) : Result :=
  if (s.power == .sleep || s.trstPin) && op.viaJtag then .next s else
  match op with
  | .resetPin a => .next ({ s with resetPin := a }).updatePins
  | .faultPins batt vdd => .next ({ s with battFault := batt, vddFault := vdd }).updatePins
  | .trst => s.assertTrst
  | .trstPin a =>
    if a && !s.trstPin && s.power != .sleep then ({ s with trstPin := a }).assertTrst else .next { s with trstPin := a }
  | .lines irq fiq => .next { s with irqLine := irq, fiqLine := fiq }
  | .wake => .next { s with power := if s.power == .idle then .active else s.power }
  | .masterWrite pa bytes => .next (s.masterWrite pa bytes)
  | .masterBetween ws => .next { s with between := s.between ++ [ws] }
  | .deviceReply ws => .next { s with deviceReplies := s.deviceReplies ++ ws }
  | .fetchAhead n => .next (s.fetchAhead n)
  | .flipInstrParity mva =>
    .next { s with icache := { s.icache with lines := flipILine s.icache.lines 32 mva },
                   miniIc := { s.miniIc with lines := flipILine s.miniIc.lines 2 mva } }
  | .flipDataParity mva =>
    match s.findDLine mva with
    | some (mini, slot, l) => .next (s.setDLine mini slot { l with bad := l.bad ^^^ (1#32 <<< offsetOf mva) })
    | none => .next s
  | .readDcsr => .next (s.readDcsr.2.reply false s.readDcsr.1)
  | .writeDcsr v brk hold => .next (s.hostDcsr v brk hold)
  | .readTx => .next ((s.setLink 28 false).reply s.tr s.dbgUnit.tx)
  | .pollRr => .next (s.reply s.rr 0#32)
  | .writeRx data d => .next ((s.setLink 29 d).hostRx data)
  | .setD d => .next (s.setLink 29 d)
  | .flushRx => .next (s.setLink 31 false)
  | .ldic f va words bad => ldicApply s f va words bad
  | .idcode => .next (s.reply false Config.jtagIdCode)
  | .tck tms tdi => tckEdge s tms tdi

end Sys2Proof.Machine
end

