-- ==== Sys2Proof/Machine/SystemRegs.lean ====
section
/-!
DEFINITION. What each register and function of CP15 and CP14 does when it is read and written
(spec/45_cp15_cp14_operations.md R580 to R642; spec/10_state.md R50 to R82). Effects take place at once
(R582; 92_eei_decisions.md D21; log 17). A bit that reads as unpredictable is a free value at every read (R581; log 11);
a 1 written to a write-as-zero bit is dropped (U3; log 12).
-/

namespace Sys2Proof.Machine

/-- A value whose bits under a mask are free (45_cp15_cp14_operations.md R581). -/
def freeUnder (mask v : Word) : Exec Word := do
  let w ← drawWord
  pure ((v &&& ~~~mask) ||| (w &&& mask))

/-- Replace CP15's registers. -/
def setCp15 (f : Cp15 → Cp15) : Exec Unit := modify fun s => { s with cp15 := f s.cp15 }

/-- Replace the performance monitor's registers. -/
def setPmu (f : Pmu → Pmu) : Exec Unit := modify fun s => { s with pmu := f s.pmu }

/-- Replace the debug registers. -/
def setDebug (f : Debug → Debug) : Exec Unit := modify fun s => { s with dbgUnit := f s.dbgUnit }

/-! ### CP15: plain registers -/

/-- R584. -/
def readId : Exec Word := do
  let s ← get
  pure s.idRegister

def readControl : Exec Word := do
  let s ← get
  freeUnder 0xFFFFC000#32 s.cp15.control

/-- R586; M = 0 with C = 1 is unpredictable (U30). -/
def writeControl (v : Word) : Exec Unit :=
  if v.getLsbD 2 && !v.getLsbD 0 then refuseWith .cacheWithoutMmu
  else setCp15 fun c => { c with control := (v &&& 0x3B87#32) ||| 0x78#32 }

def readAuxControl : Exec Word := do
  let s ← get
  freeUnder 0xFFFFFFCC#32 s.cp15.auxControl

/-- R587; P = 1 has no defined effect (U31). -/
def writeAuxControl (v : Word) : Exec Unit :=
  if v.getLsbD 1 then refuseWith .auxControlP
  else setCp15 fun c => { c with auxControl := v &&& 0x31#32 }

def readTtb : Exec Word := do
  let s ← get
  freeUnder 0x3FFF#32 s.cp15.ttb

def writeTtb (v : Word) : Exec Unit := setCp15 fun c => { c with ttb := v &&& 0xFFFFC000#32 }

def readDacr : Exec Word := do
  let s ← get
  pure s.cp15.dacr

def writeDacr (v : Word) : Exec Unit := setCp15 fun c => { c with dacr := v }

def readFsr : Exec Word := do
  let s ← get
  freeUnder 0xFFFFF800#32 (s.cp15.fsr &&& 0x6FF#32)

def writeFsr (v : Word) : Exec Unit := setCp15 fun c => { c with fsr := v &&& 0x6FF#32 }

def readFar : Exec Word := do
  let s ← get
  pure s.cp15.far

def writeFar (v : Word) : Exec Unit := setCp15 fun c => { c with far := v }

/-! ### CP15 register 7: cache functions -/

/-- The bytes of a line as a clean reads them: those with a parity error are free (21_mmu_caches_tlb.md R248). -/
def cleanedBytes (l : DLine) : Exec (List Byte) := do
  let w ← drawWord
  pure (l.data.mapIdx fun i b => if l.bad.getLsbD i then byteOf w (i % 4) else b)

/-- A half of the line is dirty (21_mmu_caches_tlb.md R240). -/
def DLine.isDirty (l : DLine) : Bool := l.dirtyLo || l.dirtyHi

/-- The dirty halves of a line go to the write buffer, the line stays and is clean (R596). A parity error is latched
(log 55). -/
def cleanLine (mini : Bool) (slot : Nat) (l : DLine) : Exec Unit :=
  if l.isDirty then do
    if l.parityError (if l.dirtyLo then 0 else 16) (if l.dirtyLo && l.dirtyHi then 32 else 16) then do
      modify fun s => s.latchAbort 0b11000#5 false
      let bs ← cleanedBytes l
      writeBack { l with data := bs }
    else writeBack l
    modify fun s => s.setDLine mini slot { l with dirtyLo := false, dirtyHi := false }
  else pure ()

/-- Clean the line of an MVA in one of the two data caches, if it holds it. -/
def cleanIn (mini : Bool) (mva : Word) : Exec Unit := do
  let s ← get
  match s.lineIn mini mva with
  | none => pure ()
  | some (slot, l) => cleanLine mini slot l

/-- R596: the line of an MVA is cleaned in both data caches. Where it is dirty in both, whose halves go first is free
(log 58). -/
def cleanDLine (mva : Word) : Exec Unit := do
  let s ← get
  if (s.lineIn false mva).any (·.2.isDirty) && (s.lineIn true mva).any (·.2.isDirty) then do
    let w ← drawWord
    cleanIn (w.getLsbD 0) mva
    cleanIn (!w.getLsbD 0) mva
  else do
    cleanIn false mva
    cleanIn true mva

/-- R595: the line goes from both data caches, dirty or not. -/
def invalidateDLine (mva : Word) : Exec Unit := modify fun s => s.dropDLine mva

/-- Draw n free words, and give their bytes. -/
def drawBytes : Nat → Exec (List Byte)
  | 0 => pure []
  | n + 1 => do
    let w ← drawWord
    let rest ← drawBytes n
    pure (bytesOf w 4 ++ rest)

/-- A translation without a permission check (R590, R600); with the MMU off the physical address is the MVA. -/
def translateOnly (instr : Bool) (mva : Word) : Exec Word := do
  let s ← get
  if s.mmuOn then do
    let e ← findEntry instr mva
    pure (e.physical mva)
  else pure mva

/-- What an aborting translation becomes. -/
def onAbort {α : Type} (x : Exec α) (t : Trap) : Exec α := fun s =>
  match x s with
  | .error (.dataAbort _ _ _) s1 => .error t s1
  | r => r

/-- What a translation fault becomes (60_exceptions.md R873, row 3); a bus error on the walk stays the abort it is. -/
def onTranslationFault {α : Type} (x : Exec α) (t : Trap) : Exec α := fun s =>
  match x s with
  | .error (.dataAbort code domain far) s1 =>
    .error (if code = 0b00101#5 ∨ code = 0b00111#5 then t else .dataAbort code domain far) s1
  | r => r

/-- R600: pending accesses complete; the line is valid, clean, and its 32 bytes are free. It works with the data cache
off as well (R590). An address without a valid descriptor is unpredictable (R600, U9); a bus error on the table walk is
the precise abort of 60_exceptions.md R874, which Special Debug State only records (48_debug_jtag.md R812). -/
def allocateDLine (v : Word) : Exec Unit := do
  modify State.drain
  let s ← get
  let m := lineBase v
  match s.lineIn false m with
  | some _ => pure ()
  | none =>
    ignoreAbortInSds (do
      let pa ← onTranslationFault (translateOnly false m) (.refuse .lockFunction)
      let bs ← drawBytes 8
      allocateLine false m pa bs) (pure ())

/-! ### CP15 registers 9 and 10: locking -/

/-- Lock Abort: a precise data abort whose domain and address are invalid (60_exceptions.md R873). -/
def lockAbort : Trap := .dataAbort 0b10100#5 none none

/-- A lock abort in Special Debug State is only recorded (48_debug_jtag.md R812). -/
def locking (x : Exec Unit) : Exec Unit := ignoreAbortInSds (onAbort x lockAbort) (pure ())

/-- The page of an instruction address is cacheable (R153 step 3); an address without a translation is in no page. -/
def State.cacheableCode (s : State) (va : Word) : Bool := (s.peekFetch (s.fetchMva va)).any Prod.snd

/-- The instruction cache holds nothing but locked and downloaded lines, and lines of sets that can lock no more: it has
been invalidated, and no cacheable code has been fetched since (21_mmu_caches_tlb.md R229). -/
def ICache.invalidated (c : ICache) : Bool :=
  c.lines.all fun p =>
    p.2.downloaded || decide (p.1 % 32 < lockedOf c.locked (p.1 / 32)) || decide (28 ≤ lockedOf c.locked (p.1 / 32))

/-- The requirements on locking instruction lines hold: the cache enabled and invalidated, exceptions disabled, and the
locking code in non-cacheable memory, which means that the MMU is enabled, and at least 128 bytes from a cacheable page
(21_mmu_caches_tlb.md R229; log 54). -/
def State.mayLockCode (s : State) : Bool :=
  s.icacheOn && s.icache.invalidated && s.maskI && s.maskF && s.mmuOn && !s.cacheableCode s.pc &&
    !s.cacheableCode (s.pc - 128#32) && !s.cacheableCode (s.pc + 128#32)

/-- The translation of a line to lock: as an instruction fetch, from a cacheable page (R610;
21_mmu_caches_tlb.md R229). -/
def lockPlace (m : Word) : Exec Word := do
  let s ← get
  let (pa, a) ← translate true m s.privileged false
  if a.c then pure pa else refuseWith .lockFunction

/-- R610; a breach of the requirements, and a line that is resident, are unpredictable (U9). DESIGN CHOICE: the read of
the line is no instruction cache miss for event 0x0, which 60_exceptions.md R904 leaves open (log 23). -/
def lockILine (v : Word) : Exec Unit := do
  let s ← get
  let m := lineBase v
  if !s.mayLockCode || (findILine s.icache.lines 32 m).isSome then refuseWith .lockFunction
  else locking do
    let pa ← lockPlace m
    let s ← get
    match s.readILine pa with
    | none => fun s => .error lockAbort s
    | some (words, t) => set { t with icache := t.icache.install m pa words 0#8 true false }

/-- R611. -/
def unlockICache : Exec Unit := do
  let s ← get
  if s.icacheOn then set { s with icache := { s.icache with locked := [] } } else refuseWith .lockFunction

/-- R612: L in bit 0. -/
def readDCacheLock : Exec Word := do
  let s ← get
  freeUnder 0xFFFFFFFE#32 (if s.cp15.dcacheLock then 1#32 else 0#32)

/-- R612; with the data cache off a lock function has an undefined effect (R609, U9). -/
def writeDCacheLock (v : Word) : Exec Unit := do
  let s ← get
  if s.dcacheOn then setCp15 fun c => { c with dcacheLock := v.getLsbD 0 } else refuseWith .lockFunction

/-- R613. -/
def unlockDCache : Exec Unit := do
  let s ← get
  if s.dcacheOn then set { s with dcache := { s.dcache with locked := [] } } else refuseWith .lockFunction

/-- R615, R616: the walk alone is checked (92_eei_decisions.md D22). DESIGN CHOICE: the walk is no TLB miss for events
0x3 and 0x4, which 60_exceptions.md R904 leaves open (log 23). -/
def lockTlbEntry (instr : Bool) (mva : Word) : Exec Unit := do
  let s ← get
  if !s.mmuOn || ((s.tlb instr).lookup mva).isSome then refuseWith .lockFunction
  else locking do
    let e ← walk mva
    modify fun s => s.setTlb instr ((s.tlb instr).insertLocked e)

/-- R617, R618. -/
def unlockTlb (instr : Bool) : Exec Unit := do
  let s ← get
  if s.mmuOn then set (s.setTlb instr (s.tlb instr).unlock) else refuseWith .lockFunction

/-- R604, R605, R607. -/
def invalidateTlb (instr : Bool) : Exec Unit := modify fun s => s.setTlb instr (s.tlb instr).invalidate

/-- R606, R608. -/
def invalidateTlbEntry (instr : Bool) (mva : Word) : Exec Unit :=
  modify fun s => s.setTlb instr ((s.tlb instr).invalidateEntry mva)

/-! ### CP15 registers 13 to 15 -/

def readPid : Exec Word := do
  let s ← get
  pure s.cp15.pid

/-- R621: any write invalidates the branch target buffer. -/
def writePid (v : Word) : Exec Unit := modify fun s =>
  { s.invalidateBtb with cp15 := { s.cp15 with pid := v &&& 0xFE000000#32 } }

/-- A register that software does not reach in Halt mode outside Special Debug State: the read gives a free value
(48_debug_jtag.md R767; U13). -/
def readLocked (f : State → Word) : Exec Word := do
  let s ← get
  if s.debugLocked then drawWord else pure (f s)

/-- The write is a no-op there (48_debug_jtag.md R767; U13). -/
def writeLocked (x : Exec Unit) : Exec Unit := do
  let s ← get
  if s.debugLocked then pure () else x

def readIbcr0 : Exec Word := readLocked fun s => s.cp15.ibcr0
def writeIbcr0 (v : Word) : Exec Unit := writeLocked (setCp15 fun c => { c with ibcr0 := v })
def readIbcr1 : Exec Word := readLocked fun s => s.cp15.ibcr1
def writeIbcr1 (v : Word) : Exec Unit := writeLocked (setCp15 fun c => { c with ibcr1 := v })
def readDbr0 : Exec Word := readLocked fun s => s.cp15.dbr0
def writeDbr0 (v : Word) : Exec Unit := writeLocked (setCp15 fun c => { c with dbr0 := v })
def readDbr1 : Exec Word := readLocked fun s => s.cp15.dbr1
def writeDbr1 (v : Word) : Exec Unit := writeLocked (setCp15 fun c => { c with dbr1 := v })
def readDbcon : Exec Word := readLocked fun s => s.cp15.dbcon
def writeDbcon (v : Word) : Exec Unit := writeLocked (setCp15 fun c => { c with dbcon := v &&& 0x10F#32 })

def readCpar : Exec Word := do
  let s ← get
  freeUnder 0xFFFF0000#32 (s.cp15.cpar &&& 0x3FFF#32)

def writeCpar (v : Word) : Exec Unit := setCp15 fun c => { c with cpar := v &&& 0x3FFF#32 }

/-! ### CP14: performance monitor, clock and power -/

def readPmnc : Exec Word := do
  let s ← get
  freeUnder 0xF0000886#32 s.pmu.pmnc

/-- R631: flags are cleared by ones; C and P are actions. -/
def writePmnc (v : Word) : Exec Unit := setPmu fun p =>
  { p with
    pmnc := (v &&& 0x0FFFF079#32) ||| (p.pmnc &&& ~~~v &&& 0x700#32)
    ccnt := if v.getLsbD 2 then 0#32 else p.ccnt
    pmn0 := if v.getLsbD 1 then 0#32 else p.pmn0
    pmn1 := if v.getLsbD 1 then 0#32 else p.pmn1 }

def readCcnt : Exec Word := do
  let s ← get
  pure s.pmu.ccnt
def writeCcnt (v : Word) : Exec Unit := setPmu fun p => { p with ccnt := v }
def readPmn0 : Exec Word := do
  let s ← get
  pure s.pmu.pmn0
def writePmn0 (v : Word) : Exec Unit := setPmu fun p => { p with pmn0 := v }
def readPmn1 : Exec Word := do
  let s ← get
  pure s.pmu.pmn1
def writePmn1 (v : Word) : Exec Unit := setPmu fun p => { p with pmn1 := v }

def readCclkcfg : Exec Word := do
  let s ← get
  freeUnder 0xFFFFFFF0#32 (s.pmu.cclkcfg.zeroExtend 32)

/-- R634: the value is stored, and nothing else happens (92_eei_decisions.md D12). -/
def writeCclkcfg (v : Word) : Exec Unit := setPmu fun p => { p with cclkcfg := v.extractLsb' 0 4 }

/-- R635: M always reads zero. -/
def readPwrmode : Exec Word := freeUnder 0xFFFFFFFC#32 0#32

/-- Leave the ACTIVE mode. -/
def enterPowerMode (m : PowerMode) : Exec Unit := modify fun s => s.lowPower m

/-- R635; 2 is reserved (U12). -/
def writePwrmode (v : Word) : Exec Unit :=
  match (v.extractLsb' 0 2).toNat with
  | 0 => pure ()
  | 1 => enterPowerMode .idle
  | 2 => refuseWith .reservedPowerMode
  | _ => enterPowerMode .sleep

/-! ### CP14: debug -/

def readTx : Exec Word := do
  let s ← get
  pure s.dbgUnit.tx

/-- R636: TR is set. -/
def writeTx (v : Word) : Exec Unit := do
  setDebug fun d => { d with tx := v }
  modify fun s => s.setLink 28 true

/-- R637: RR is cleared. -/
def readRx : Exec Word := do
  let s ← get
  set (s.setLink 31 false)
  pure s.dbgUnit.rx

/-- R637: ignored. -/
def writeRx (_v : Word) : Exec Unit := pure ()

def readDcsrReg : Exec Word := do
  let s ← get
  if s.debugLocked then drawWord
  else do
    set s.readDcsr.2
    pure s.readDcsr.1

/-- The trace buffer starts to record: no message has been written, and the next branch entry is a checkpoint
(48_debug_jtag.md R802, R803). -/
def State.startTrace (s : State) (was : Bool) : State :=
  if s.tracing && !was then { s with trace := { s.trace with count := 0#4, written := 0, sinceCkpt := none } } else s

/-- R638: only GE, SA, MOE, M and E are written. -/
def writeDcsrReg (v : Word) : Exec Unit := writeLocked (do
  let s ← get
  setDebug fun d => { d with dcsr := (d.dcsr &&& ~~~0x8000003F#32) ||| (v &&& 0x8000003F#32) }
  modify fun t => t.startTrace s.tracing)

/-- The bytes of the trace buffer from free values, byte n - 1 down to 0 in front of a list. -/
def freeRing (ctr : Nat) : Nat → List (Nat × Byte) → List (Nat × Byte)
  | 0, acc => acc
  | n + 1, acc =>
    let b := byteOf (Config.freeWord (ctr + n / 4)) (n % 4)
    freeRing ctr n (if b = 0#8 then acc else (n, b) :: acc)

/-- An access that the trace buffer does not allow: its contents, its pointers and the checkpoint registers become free
(U10). -/
def spoilTrace : Exec Unit := modify fun s =>
  let w (i : Nat) : Word := Config.freeWord (s.freeCtr + 64 + i)
  { s with
    trace := { bytes := freeRing s.freeCtr 256 [], pos := (w 0).toNat % 256, count := (w 1).extractLsb' 0 4,
               written := (w 1).toNat % 257, sinceCkpt := s.trace.sinceCkpt }
    dbgUnit := { s.dbgUnit with chkpt0 := w 2, chkpt1 := w 3 }
    freeCtr := s.freeCtr + 68 }

/-- Spoil the trace buffer if it is recording (U10). -/
def whileTracing : Exec Unit := do
  let s ← get
  if s.tracing then spoilTrace else pure ()

/-- R639: the oldest byte, which is cleared. -/
def readTbreg : Exec Word := do
  whileTracing
  let s ← get
  let b := (tblGet s.trace.bytes s.trace.pos).getD 0#8
  set { s with trace := { s.trace with bytes := tblErase s.trace.bytes s.trace.pos, pos := (s.trace.pos + 1) % 256 } }
  pure (b.zeroExtend 32)

/-- R639: unpredictable for the trace buffer (U10). -/
def writeTbreg (_v : Word) : Exec Unit := spoilTrace

def readChkpt0 : Exec Word := do
  whileTracing
  let s ← get
  pure s.dbgUnit.chkpt0

/-- R640. -/
def writeChkpt0 (v : Word) : Exec Unit := do
  let s ← get
  if s.tracing then spoilTrace else setDebug fun d => { d with chkpt0 := v }

def readChkpt1 : Exec Word := do
  whileTracing
  let s ← get
  pure s.dbgUnit.chkpt1

/-- R640. -/
def writeChkpt1 (v : Word) : Exec Unit := do
  let s ← get
  if s.tracing then spoilTrace else setDebug fun d => { d with chkpt1 := v }

def readTxrxctrl : Exec Word := do
  let s ← get
  pure (s.dbgUnit.txrxctrl &&& 0xF0000000#32)

/-- R641: only OV is written. -/
def writeTxrxctrl (v : Word) : Exec Unit := modify fun s => s.setLink 30 (v.getLsbD 30)

/-! ### Moves between a register and a coprocessor register -/

/-- The value read goes to Rd, or to the flags where Rd is R15 (44_coprocessor.md R545). -/
def State.setMoved (s : State) (rd : RegNum) (v : Word) : State :=
  if rd = 15#4 then s.setNzcv (v.getLsbD 31) (v.getLsbD 30) (v.getLsbD 29) (v.getLsbD 28) else s.setReg rd v

/-- MRC of a CP15 or CP14 register (44_coprocessor.md R543, R547; 48_debug_jtag.md R813). -/
def moveFrom (cond : BitVec 4) (rd : RegNum) (read : Exec Word) (s : State) : Result :=
  s.keepR13Dbg.when cond
    (if s.privileged then runThen read (fun v t => .next (t.setMoved rd v).keepR13Dbg.advance) s
    else undefinedInstr s)

/-- MCR to a CP15 or CP14 register (44_coprocessor.md R543, R546; 48_debug_jtag.md R813). -/
def moveTo (cond : BitVec 4) (rd : RegNum) (write : Word → Exec Unit) (s : State) : Result :=
  s.keepR13Dbg.when cond
    (if s.privileged then
      if rd = 15#4 then .refused .r15Operand
      else runThen (write (s.reg rd)) (fun _ t => .next t.keepR13Dbg.advance) s
    else undefinedInstr s)

end Sys2Proof.Machine
end

