-- ==== Sys2Proof/Machine/Coprocessor.lean ====
section
/-!
DEFINITION. The meanings of the coprocessor instructions: the generic forms, LDC and STC to CP14, and the eight
instructions of CP0 (spec/44_coprocessor.md).
-/

namespace Sys2Proof.Machine

/-! ### Who may reach which coprocessor -/

/-- CP0Allowed (R542). -/
def State.cp0Allowed (s : State) : Bool := s.cp15.cpar.getLsbD 0

/-- CDP, MCRR and MRRC: undefined but for CP0 where it is allowed, whose other encodings are unpredictable
(R541 to R544, R549; U8). -/
def noSuchTransfer (cp : BitVec 4) (s : State) : Result :=
  if cp = 0#4 ∧ s.cp0Allowed then .refused .cp0Encoding else undefinedInstr s

/-- MCR and MRC that no table lists (R541 to R544, R549; 45_cp15_cp14_operations.md R624, R630). -/
def unlistedMove (cp : BitVec 4) (why : Refusal) (s : State) : Result :=
  if cp = 0#4 then if s.cp0Allowed then .refused .cp0Encoding else undefinedInstr s
  else if (cp = 14#4 ∨ cp = 15#4) ∧ s.privileged then .refused why
  else undefinedInstr s

/-- CDP (R549). -/
def execCdp (cond : BitVec 4) (_opc1 _crn _crd cp : BitVec 4) (_opc2 : BitVec 3) (_crm : BitVec 4) (s : State) :
    Result :=
  s.when cond (noSuchTransfer cp s)

/-- MCR outside the tables (R546, R549; U4, U5). -/
def execMcr (cond : BitVec 4) (_opc1 : BitVec 3) (_crn _rd cp : BitVec 4) (_opc2 : BitVec 3) (_crm : BitVec 4)
    (s : State) : Result :=
  s.keepR13Dbg.when cond (unlistedMove cp .reservedCoprocessorRegister s)

/-- MRC outside the tables (R547, R549): a read of a function register (U6), or of none (U4, U5). -/
def execMrc (cond : BitVec 4) (_opc1 : BitVec 3) (crn _rd cp : BitVec 4) (_opc2 : BitVec 3) (_crm : BitVec 4)
    (s : State) : Result :=
  let function := cp == 15#4 && (crn == 7#4 || crn == 8#4 || crn == 9#4 || crn == 10#4)
  s.keepR13Dbg.when cond (unlistedMove cp (if function then .writeOnlyRegister else .reservedCoprocessorRegister) s)

/-- MCRR that is not MAR (R549). -/
def execMcrr (cond : BitVec 4) (_rn _rd cp _opc _crm : BitVec 4) (s : State) : Result :=
  s.when cond (noSuchTransfer cp s)

/-- MRRC that is not MRA (R549). -/
def execMrrc (cond : BitVec 4) (_rn _rd cp _opc _crm : BitVec 4) (s : State) : Result :=
  s.when cond (noSuchTransfer cp s)

/-! ### LDC and STC -/

/-- CoprocRead of a CP14 register by number (45_cp15_cp14_operations.md R630 to R641). -/
def readCp14 (crd : BitVec 4) : Exec Word :=
  match crd.toNat with
  | 0 => readPmnc
  | 1 => readCcnt
  | 2 => readPmn0
  | 3 => readPmn1
  | 6 => readCclkcfg
  | 7 => readPwrmode
  | 8 => readTx
  | 9 => readRx
  | 10 => readDcsrReg
  | 11 => readTbreg
  | 12 => readChkpt0
  | 13 => readChkpt1
  | 14 => readTxrxctrl
  | _ => refuseWith .reservedCoprocessorRegister

/-- CoprocWrite of a CP14 register by number (45_cp15_cp14_operations.md R630 to R641). -/
def writeCp14 (crd : BitVec 4) (v : Word) : Exec Unit :=
  match crd.toNat with
  | 0 => writePmnc v
  | 1 => writeCcnt v
  | 2 => writePmn0 v
  | 3 => writePmn1 v
  | 6 => writeCclkcfg v
  | 7 => writePwrmode v
  | 8 => writeTx v
  | 9 => writeRx v
  | 10 => writeDcsrReg v
  | 11 => writeTbreg v
  | 12 => writeChkpt0 v
  | 13 => writeChkpt1 v
  | 14 => writeTxrxctrl v
  | _ => refuseWith .reservedCoprocessorRegister

/-- The CP14 register exists (10_state.md R70, R82). -/
def cp14Exists (crd : BitVec 4) : Bool := crd != 4#4 && crd != 5#4 && crd != 15#4

/-- The address of addressing mode 5 (R548). -/
def State.mode5 (s : State) (p u w : Bool) (rn : RegNum) (off8 : BitVec 8) : Address :=
  address p w (s.reg rn) (offsetBy u (s.reg rn) ((off8.zeroExtend 32) <<< 2))

/-- LDC or STC of one word (R544, R548): what is checked before the transfer (U5, U7, U18). -/
def transferCp14 (cond : BitVec 4) (n : Bool) (rn crd cp : BitVec 4) (ad : Address) (body : Result) (s : State) :
    Result :=
  s.when cond
    (if cp ≠ 14#4 ∨ s.privileged = false then undefinedInstr s
    else if n then .refused .coprocessorTransferForm
    else if !cp14Exists crd then .refused .reservedCoprocessorRegister
    else if s.inDebug then .refused .forbiddenInDebug
    else if ad.writes && rn == 15#4 then .refused .r15Operand
    else body)

/-- The unindexed form has no meaning on CP14 (R548; U7). -/
def transferUnindexed (cond : BitVec 4) (cp : BitVec 4) (s : State) : Result :=
  s.when cond
    (if cp ≠ 14#4 ∨ s.privileged = false then undefinedInstr s else .refused .coprocessorTransferForm)

/-- The word loaded, then the register, then the base (R548). -/
def loadCp14 (rn crd : BitVec 4) (ad : Address) (s : State) : Result :=
  runThen (do
      let v ← memRead ad.at_ 4 s.privileged
      writeCp14 crd v)
    (fun _ t => .next (t.updateBase rn ad).advance) s

/-- The register read, the word stored, then the base; a store that aborts leaves the register as it was (R548). -/
def storeCp14 (rn crd : BitVec 4) (ad : Address) (s : State) : Result :=
  runThen (do
      let v ← readCp14 crd
      fun s1 =>
        match memWrite ad.at_ 4 s.privileged v s1 with
        | .ok _ s2 => .ok () s2
        | .error t s2 => .error t { s2 with dbgUnit := s.dbgUnit, trace := s.trace })
    (fun _ t => .next (t.updateBase rn ad).advance) s

/-- LDC, offset and pre-indexed (R548). -/
def execLdcOffset (cond : BitVec 4) (u n w : Bool) (rn crd cp : BitVec 4) (off8 : BitVec 8) (s : State) : Result :=
  let ad := s.mode5 true u w rn off8
  transferCp14 cond n rn crd cp ad (loadCp14 rn crd ad s) s

/-- LDC, post-indexed (R548). -/
def execLdcPost (cond : BitVec 4) (u n : Bool) (rn crd cp : BitVec 4) (off8 : BitVec 8) (s : State) : Result :=
  let ad := s.mode5 false u true rn off8
  transferCp14 cond n rn crd cp ad (loadCp14 rn crd ad s) s

/-- LDC, unindexed (R548; U7). -/
def execLdcUnindexed (cond : BitVec 4) (_n : Bool) (_rn _crd cp : BitVec 4) (_option : BitVec 8) (s : State) : Result :=
  transferUnindexed cond cp s

/-- STC, offset and pre-indexed (R548). -/
def execStcOffset (cond : BitVec 4) (u n w : Bool) (rn crd cp : BitVec 4) (off8 : BitVec 8) (s : State) : Result :=
  let ad := s.mode5 true u w rn off8
  transferCp14 cond n rn crd cp ad (storeCp14 rn crd ad s) s

/-- STC, post-indexed (R548). -/
def execStcPost (cond : BitVec 4) (u n : Bool) (rn crd cp : BitVec 4) (off8 : BitVec 8) (s : State) : Result :=
  let ad := s.mode5 false u true rn off8
  transferCp14 cond n rn crd cp ad (storeCp14 rn crd ad s) s

/-- STC, unindexed (R548; U7). -/
def execStcUnindexed (cond : BitVec 4) (_n : Bool) (_rn _crd cp : BitVec 4) (_option : BitVec 8) (s : State) : Result :=
  transferUnindexed cond cp s

/-! ### CP0: multiply with internal accumulate -/

/-- A signed value as 40 bits (R550). -/
def acc40 (x : Int) : BitVec 40 := BitVec.ofInt 40 x

/-- Half of a word, as a signed number: the top or the bottom one (R552). -/
def signedHalf (v : Word) (top : Bool) : Int :=
  if top then (v.extractLsb' 16 16).toInt else (v.extractLsb' 0 16).toInt

/-- A multiply with internal accumulate of a product of Rm and Rs (R550 to R555; U8, U36). -/
def miaOp (cond : BitVec 4) (rs : RegNum) (acc : BitVec 3) (rm : RegNum) (product : Word → Word → Int) (s : State) :
    Result :=
  s.when cond
    (if !s.cp0Allowed then undefinedInstr s
    else if acc ≠ 0#3 then .refused .cp0Encoding
    else if rs = 15#4 ∨ rm = 15#4 then .refused .r15Operand
    else .next ({ s with acc0 := s.acc0 + acc40 (product (s.reg rm) (s.reg rs)) } : State).advance)

/-- MIA (R550). -/
def execMia (cond : BitVec 4) (rs : RegNum) (acc : BitVec 3) (rm : RegNum) (s : State) : Result :=
  miaOp cond rs acc rm (fun m n => m.toInt * n.toInt) s

/-- MIAPH (R551). -/
def execMiaph (cond : BitVec 4) (rs : RegNum) (acc : BitVec 3) (rm : RegNum) (s : State) : Result :=
  miaOp cond rs acc rm
    (fun m n => signedHalf m false * signedHalf n false + signedHalf m true * signedHalf n true) s

/-- MIABB (R552). -/
def execMiabb (cond : BitVec 4) (rs : RegNum) (acc : BitVec 3) (rm : RegNum) (s : State) : Result :=
  miaOp cond rs acc rm (fun m n => signedHalf m false * signedHalf n false) s

/-- MIABT (R553). -/
def execMiabt (cond : BitVec 4) (rs : RegNum) (acc : BitVec 3) (rm : RegNum) (s : State) : Result :=
  miaOp cond rs acc rm (fun m n => signedHalf m false * signedHalf n true) s

/-- MIATB (R554). -/
def execMiatb (cond : BitVec 4) (rs : RegNum) (acc : BitVec 3) (rm : RegNum) (s : State) : Result :=
  miaOp cond rs acc rm (fun m n => signedHalf m true * signedHalf n false) s

/-- MIATT (R555). -/
def execMiatt (cond : BitVec 4) (rs : RegNum) (acc : BitVec 3) (rm : RegNum) (s : State) : Result :=
  miaOp cond rs acc rm (fun m n => signedHalf m true * signedHalf n true) s

/-! ### CP0: accumulator access -/

/-- MAR (R556). -/
def execMar (cond : BitVec 4) (rdHi rdLo : RegNum) (acc : BitVec 3) (s : State) : Result :=
  s.when cond
    (if !s.cp0Allowed then undefinedInstr s
    else if acc ≠ 0#3 then .refused .cp0Encoding
    else if rdHi = 15#4 ∨ rdLo = 15#4 then .refused .r15Operand
    else .next ({ s with acc0 := (s.reg rdHi).extractLsb' 0 8 ++ s.reg rdLo } : State).advance)

/-- MRA (R557). -/
def execMra (cond : BitVec 4) (rdHi rdLo : RegNum) (acc : BitVec 3) (s : State) : Result :=
  s.when cond
    (if !s.cp0Allowed then undefinedInstr s
    else if acc ≠ 0#3 then .refused .cp0Encoding
    else if rdHi = 15#4 ∨ rdLo = 15#4 then .refused .r15Operand
    else if rdHi = rdLo then .refused .registerOverlap
    else .next ((s.setReg rdHi ((s.acc0.extractLsb' 32 8).signExtend 32)).setReg rdLo (s.acc0.extractLsb' 0 32)).advance)

end Sys2Proof.Machine
end

