-- ==== Sys2Proof/Machine/Multiply.lean ====
section
/-!
DEFINITION. The meanings of the multiplies, the DSP multiplies and the saturating arithmetic
(spec/41_multiply_dsp.md).
-/

namespace Sys2Proof.Machine

/-- One of the registers is R15 (41_multiply_dsp.md R401, U43). -/
def anyR15 (rs : List RegNum) : Bool := rs.any fun r => r == 15#4

/-- An instruction whose registers must not be R15 and which writes one register. -/
def regOp (cond : BitVec 4) (used : List RegNum) (body : State → State) (s : State) : Result :=
  s.when cond (if anyR15 used then .refused .r15Operand else .next (body s).advance)

/-- A 32-bit multiply: the register and, with S, N and Z (41_multiply_dsp.md R400, R405, R406). -/
def mulOp (cond : BitVec 4) (sf : Bool) (rd : RegNum) (used : List RegNum) (value : Word) (s : State) : Result :=
  regOp cond (rd :: used) (fun s => if sf then (s.setReg rd value).setNz value else s.setReg rd value) s

/-- MUL (R405). -/
def execMul (cond : BitVec 4) (sf : Bool) (rd rs rm : RegNum) (s : State) : Result :=
  mulOp cond sf rd [rs, rm] (s.reg rm * s.reg rs) s

/-- MLA (R406). -/
def execMla (cond : BitVec 4) (sf : Bool) (rd rn rs rm : RegNum) (s : State) : Result :=
  mulOp cond sf rd [rn, rs, rm] (s.reg rm * s.reg rs + s.reg rn) s

/-- RdHi : RdLo as a 64-bit number. -/
def State.pair (s : State) (rdHi rdLo : RegNum) : BitVec 64 := s.reg rdHi ++ s.reg rdLo

/-- Write RdHi : RdLo. -/
def State.setPair (s : State) (rdHi rdLo : RegNum) (p : BitVec 64) : State :=
  (s.setReg rdHi (p.extractLsb' 32 32)).setReg rdLo (p.extractLsb' 0 32)

/-- A 64-bit multiply (41_multiply_dsp.md R400, R401, R407 to R410): RdHi = RdLo is unpredictable (U45). -/
def mulLongOp (cond : BitVec 4) (sf : Bool) (rdHi rdLo rs rm : RegNum) (p : BitVec 64) (s : State) : Result :=
  s.when cond
    (if anyR15 [rdHi, rdLo, rs, rm] then .refused .r15Operand
    else if rdHi = rdLo then .refused .registerOverlap
    else .next (if sf then (s.setPair rdHi rdLo p).setNzLong p else s.setPair rdHi rdLo p).advance)

/-- The product of two unsigned words, and of two signed ones, as 64 bits. -/
def umul64 (x y : Word) : BitVec 64 := BitVec.ofNat 64 (x.toNat * y.toNat)
def smul64 (x y : Word) : BitVec 64 := BitVec.ofInt 64 (x.toInt * y.toInt)

/-- UMULL (R407). -/
def execUmull (cond : BitVec 4) (sf : Bool) (rdHi rdLo rs rm : RegNum) (s : State) : Result :=
  mulLongOp cond sf rdHi rdLo rs rm (umul64 (s.reg rm) (s.reg rs)) s

/-- UMLAL (R408). -/
def execUmlal (cond : BitVec 4) (sf : Bool) (rdHi rdLo rs rm : RegNum) (s : State) : Result :=
  mulLongOp cond sf rdHi rdLo rs rm (umul64 (s.reg rm) (s.reg rs) + s.pair rdHi rdLo) s

/-- SMULL (R409). -/
def execSmull (cond : BitVec 4) (sf : Bool) (rdHi rdLo rs rm : RegNum) (s : State) : Result :=
  mulLongOp cond sf rdHi rdLo rs rm (smul64 (s.reg rm) (s.reg rs)) s

/-- SMLAL (R410). -/
def execSmlal (cond : BitVec 4) (sf : Bool) (rdHi rdLo rs rm : RegNum) (s : State) : Result :=
  mulLongOp cond sf rdHi rdLo rs rm (smul64 (s.reg rm) (s.reg rs) + s.pair rdHi rdLo) s

/-- The half of a word as a signed number: bottom or top (41_multiply_dsp.md section 3). -/
def halfInt (w : Word) (top : Bool) : Int := (if top then w.extractLsb' 16 16 else w.extractLsb' 0 16).toInt

/-- Bits 47..16 of the signed product of a word and a half (41_multiply_dsp.md R416, R418). -/
def mulWide (w : Word) (h : Int) : Word := (BitVec.ofInt 48 (w.toInt * h)).extractLsb' 16 32

/-- Write a register with a result that may have overflowed or saturated, which sets Q (10_state.md R26). -/
def State.setRegQ (s : State) (rd : RegNum) (r : Word × Bool) : State := (s.setReg rd r.1).orQ r.2

/-- SMULxy (R415). -/
def execSmulXY (cond : BitVec 4) (rd rs : RegNum) (y x : Bool) (rm : RegNum) (s : State) : Result :=
  regOp cond [rd, rs, rm]
    (fun s => s.setReg rd (BitVec.ofInt 32 (halfInt (s.reg rm) x * halfInt (s.reg rs) y))) s

/-- SMULWy (R416). -/
def execSmulWY (cond : BitVec 4) (rd rs : RegNum) (y : Bool) (rm : RegNum) (s : State) : Result :=
  regOp cond [rd, rs, rm] (fun s => s.setReg rd (mulWide (s.reg rm) (halfInt (s.reg rs) y))) s

/-- SMLAxy (R417). -/
def execSmlaXY (cond : BitVec 4) (rd rn rs : RegNum) (y x : Bool) (rm : RegNum) (s : State) : Result :=
  regOp cond [rd, rn, rs, rm]
    (fun s => s.setRegQ rd (wrapSum (halfInt (s.reg rm) x * halfInt (s.reg rs) y + (s.reg rn).toInt))) s

/-- SMLAWy (R418). -/
def execSmlaWY (cond : BitVec 4) (rd rn rs : RegNum) (y : Bool) (rm : RegNum) (s : State) : Result :=
  regOp cond [rd, rn, rs, rm]
    (fun s => s.setRegQ rd (wrapSum ((mulWide (s.reg rm) (halfInt (s.reg rs) y)).toInt + (s.reg rn).toInt))) s

/-- SMLALxy (R419): the 64-bit sum wraps. -/
def execSmlalXY (cond : BitVec 4) (rdHi rdLo rs : RegNum) (y x : Bool) (rm : RegNum) (s : State) : Result :=
  mulLongOp cond false rdHi rdLo rs rm
    (s.pair rdHi rdLo + BitVec.ofInt 64 (halfInt (s.reg rm) x * halfInt (s.reg rs) y)) s

/-- QADD (R426). -/
def execQadd (cond : BitVec 4) (rn rd rm : RegNum) (s : State) : Result :=
  regOp cond [rn, rd, rm] (fun s => s.setRegQ rd (signedSat32 ((s.reg rm).toInt + (s.reg rn).toInt))) s

/-- QSUB (R427). -/
def execQsub (cond : BitVec 4) (rn rd rm : RegNum) (s : State) : Result :=
  regOp cond [rn, rd, rm] (fun s => s.setRegQ rd (signedSat32 ((s.reg rm).toInt - (s.reg rn).toInt))) s

/-- QDADD (R428): Rn is doubled and saturated first. -/
def execQdadd (cond : BitVec 4) (rn rd rm : RegNum) (s : State) : Result :=
  regOp cond [rn, rd, rm] (fun s =>
    let d := signedSat32 (2 * (s.reg rn).toInt)
    let r := signedSat32 ((s.reg rm).toInt + d.1.toInt)
    s.setRegQ rd (r.1, d.2 || r.2)) s

/-- QDSUB (R429): Rn is doubled and saturated first. -/
def execQdsub (cond : BitVec 4) (rn rd rm : RegNum) (s : State) : Result :=
  regOp cond [rn, rd, rm] (fun s =>
    let d := signedSat32 (2 * (s.reg rn).toInt)
    let r := signedSat32 ((s.reg rm).toInt - d.1.toInt)
    s.setRegQ rd (r.1, d.2 || r.2)) s

end Sys2Proof.Machine
end

