-- ==== Sys2Proof/Machine/SystemAccess.lean ====
section
/-!
DEFINITION. The meanings of the MRC and MCR accesses that CP15 and CP14 define, one by one
(spec/45_cp15_cp14_operations.md R584 to R641).
-/

namespace Sys2Proof.Machine

/-! ### CP15 -/

/-- Read Id (R584). -/
def execMrcId (cond : BitVec 4) (rd : RegNum) (s : State) : Result :=
  moveFrom cond rd readId s

/-- Write Id (R584). -/
def execMcrId (cond : BitVec 4) (rd : RegNum) (s : State) : Result :=
  moveTo cond rd (fun _ => pure ()) s

/-- Read CacheType (R585). -/
def execMrcCacheType (cond : BitVec 4) (rd : RegNum) (s : State) : Result :=
  moveFrom cond rd (pure Config.cacheType) s

/-- Write CacheType (R585). -/
def execMcrCacheType (cond : BitVec 4) (rd : RegNum) (s : State) : Result :=
  moveTo cond rd (fun _ => pure ()) s

/-- Read Control (R586). -/
def execMrcControl (cond : BitVec 4) (rd : RegNum) (s : State) : Result :=
  moveFrom cond rd readControl s

/-- Write Control (R586). -/
def execMcrControl (cond : BitVec 4) (rd : RegNum) (s : State) : Result :=
  moveTo cond rd writeControl s

/-- Read AuxControl (R587). -/
def execMrcAuxControl (cond : BitVec 4) (rd : RegNum) (s : State) : Result :=
  moveFrom cond rd readAuxControl s

/-- Write AuxControl (R587). -/
def execMcrAuxControl (cond : BitVec 4) (rd : RegNum) (s : State) : Result :=
  moveTo cond rd writeAuxControl s

/-- Read Ttb (R588). -/
def execMrcTtb (cond : BitVec 4) (rd : RegNum) (s : State) : Result :=
  moveFrom cond rd readTtb s

/-- Write Ttb (R588). -/
def execMcrTtb (cond : BitVec 4) (rd : RegNum) (s : State) : Result :=
  moveTo cond rd writeTtb s

/-- Read Dacr (R589). -/
def execMrcDacr (cond : BitVec 4) (rd : RegNum) (s : State) : Result :=
  moveFrom cond rd readDacr s

/-- Write Dacr (R589). -/
def execMcrDacr (cond : BitVec 4) (rd : RegNum) (s : State) : Result :=
  moveTo cond rd writeDacr s

/-- Read Fsr (R620). -/
def execMrcFsr (cond : BitVec 4) (rd : RegNum) (s : State) : Result :=
  moveFrom cond rd readFsr s

/-- Write Fsr (R620). -/
def execMcrFsr (cond : BitVec 4) (rd : RegNum) (s : State) : Result :=
  moveTo cond rd writeFsr s

/-- Read Far (R620). -/
def execMrcFar (cond : BitVec 4) (rd : RegNum) (s : State) : Result :=
  moveFrom cond rd readFar s

/-- Write Far (R620). -/
def execMcrFar (cond : BitVec 4) (rd : RegNum) (s : State) : Result :=
  moveTo cond rd writeFar s

/-- The function InvIDCacheBtb (R593). -/
def execMcrInvIDCacheBtb (cond : BitVec 4) (rd : RegNum) (s : State) : Result :=
  moveTo cond rd (fun _ => modify fun s => s.invalidateICache.invalidateBtb.invalidateDCaches) s

/-- The function InvICacheBtb (R591). -/
def execMcrInvICacheBtb (cond : BitVec 4) (rd : RegNum) (s : State) : Result :=
  moveTo cond rd (fun _ => modify fun s => s.invalidateICache.invalidateBtb) s

/-- The function InvICacheLine (R592). -/
def execMcrInvICacheLine (cond : BitVec 4) (rd : RegNum) (s : State) : Result :=
  moveTo cond rd (fun v => modify fun s => s.invalidateILine v) s

/-- The function InvDCache (R594). -/
def execMcrInvDCache (cond : BitVec 4) (rd : RegNum) (s : State) : Result :=
  moveTo cond rd (fun _ => modify State.invalidateDCaches) s

/-- The function InvDCacheLine (R595). -/
def execMcrInvDCacheLine (cond : BitVec 4) (rd : RegNum) (s : State) : Result :=
  moveTo cond rd invalidateDLine s

/-- The function CleanDCacheLine (R596). -/
def execMcrCleanDCacheLine (cond : BitVec 4) (rd : RegNum) (s : State) : Result :=
  moveTo cond rd cleanDLine s

/-- The function DrainWriteBuffer (R598). -/
def execMcrDrainWriteBuffer (cond : BitVec 4) (rd : RegNum) (s : State) : Result :=
  moveTo cond rd (fun _ => modify State.drain) s

/-- The function InvBtb (R597). -/
def execMcrInvBtb (cond : BitVec 4) (rd : RegNum) (s : State) : Result :=
  moveTo cond rd (fun _ => modify State.invalidateBtb) s

/-- The function AllocateDLine (R600). -/
def execMcrAllocateDLine (cond : BitVec 4) (rd : RegNum) (s : State) : Result :=
  moveTo cond rd allocateDLine s

/-- The function InvIDTlb (R604). -/
def execMcrInvIDTlb (cond : BitVec 4) (rd : RegNum) (s : State) : Result :=
  moveTo cond rd (fun _ => do invalidateTlb true; invalidateTlb false) s

/-- The function InvITlb (R605). -/
def execMcrInvITlb (cond : BitVec 4) (rd : RegNum) (s : State) : Result :=
  moveTo cond rd (fun _ => invalidateTlb true) s

/-- The function InvITlbEntry (R606). -/
def execMcrInvITlbEntry (cond : BitVec 4) (rd : RegNum) (s : State) : Result :=
  moveTo cond rd (invalidateTlbEntry true) s

/-- The function InvDTlb (R607). -/
def execMcrInvDTlb (cond : BitVec 4) (rd : RegNum) (s : State) : Result :=
  moveTo cond rd (fun _ => invalidateTlb false) s

/-- The function InvDTlbEntry (R608). -/
def execMcrInvDTlbEntry (cond : BitVec 4) (rd : RegNum) (s : State) : Result :=
  moveTo cond rd (invalidateTlbEntry false) s

/-- The function LockILine (R610). -/
def execMcrLockILine (cond : BitVec 4) (rd : RegNum) (s : State) : Result :=
  moveTo cond rd lockILine s

/-- The function UnlockICache (R611). -/
def execMcrUnlockICache (cond : BitVec 4) (rd : RegNum) (s : State) : Result :=
  moveTo cond rd (fun _ => unlockICache) s

/-- Read DCacheLock (R612). -/
def execMrcDCacheLock (cond : BitVec 4) (rd : RegNum) (s : State) : Result :=
  moveFrom cond rd readDCacheLock s

/-- Write DCacheLock (R612). -/
def execMcrDCacheLock (cond : BitVec 4) (rd : RegNum) (s : State) : Result :=
  moveTo cond rd writeDCacheLock s

/-- The function UnlockDCache (R613). -/
def execMcrUnlockDCache (cond : BitVec 4) (rd : RegNum) (s : State) : Result :=
  moveTo cond rd (fun _ => unlockDCache) s

/-- The function LockITlbEntry (R615). -/
def execMcrLockITlbEntry (cond : BitVec 4) (rd : RegNum) (s : State) : Result :=
  moveTo cond rd (lockTlbEntry true) s

/-- The function LockDTlbEntry (R616). -/
def execMcrLockDTlbEntry (cond : BitVec 4) (rd : RegNum) (s : State) : Result :=
  moveTo cond rd (lockTlbEntry false) s

/-- The function UnlockITlb (R617). -/
def execMcrUnlockITlb (cond : BitVec 4) (rd : RegNum) (s : State) : Result :=
  moveTo cond rd (fun _ => unlockTlb true) s

/-- The function UnlockDTlb (R618). -/
def execMcrUnlockDTlb (cond : BitVec 4) (rd : RegNum) (s : State) : Result :=
  moveTo cond rd (fun _ => unlockTlb false) s

/-- Read Pid (R621). -/
def execMrcPid (cond : BitVec 4) (rd : RegNum) (s : State) : Result :=
  moveFrom cond rd readPid s

/-- Write Pid (R621). -/
def execMcrPid (cond : BitVec 4) (rd : RegNum) (s : State) : Result :=
  moveTo cond rd writePid s

/-- Read Ibcr0 (R622). -/
def execMrcIbcr0 (cond : BitVec 4) (rd : RegNum) (s : State) : Result :=
  moveFrom cond rd readIbcr0 s

/-- Write Ibcr0 (R622). -/
def execMcrIbcr0 (cond : BitVec 4) (rd : RegNum) (s : State) : Result :=
  moveTo cond rd writeIbcr0 s

/-- Read Ibcr1 (R622). -/
def execMrcIbcr1 (cond : BitVec 4) (rd : RegNum) (s : State) : Result :=
  moveFrom cond rd readIbcr1 s

/-- Write Ibcr1 (R622). -/
def execMcrIbcr1 (cond : BitVec 4) (rd : RegNum) (s : State) : Result :=
  moveTo cond rd writeIbcr1 s

/-- Read Dbr0 (R622). -/
def execMrcDbr0 (cond : BitVec 4) (rd : RegNum) (s : State) : Result :=
  moveFrom cond rd readDbr0 s

/-- Write Dbr0 (R622). -/
def execMcrDbr0 (cond : BitVec 4) (rd : RegNum) (s : State) : Result :=
  moveTo cond rd writeDbr0 s

/-- Read Dbr1 (R622). -/
def execMrcDbr1 (cond : BitVec 4) (rd : RegNum) (s : State) : Result :=
  moveFrom cond rd readDbr1 s

/-- Write Dbr1 (R622). -/
def execMcrDbr1 (cond : BitVec 4) (rd : RegNum) (s : State) : Result :=
  moveTo cond rd writeDbr1 s

/-- Read Dbcon (R622). -/
def execMrcDbcon (cond : BitVec 4) (rd : RegNum) (s : State) : Result :=
  moveFrom cond rd readDbcon s

/-- Write Dbcon (R622). -/
def execMcrDbcon (cond : BitVec 4) (rd : RegNum) (s : State) : Result :=
  moveTo cond rd writeDbcon s

/-- Read Cpar (R623). -/
def execMrcCpar (cond : BitVec 4) (rd : RegNum) (s : State) : Result :=
  moveFrom cond rd readCpar s

/-- Write Cpar (R623). -/
def execMcrCpar (cond : BitVec 4) (rd : RegNum) (s : State) : Result :=
  moveTo cond rd writeCpar s

/-! ### CP14 -/

/-- Read Pmnc (R631). -/
def execMrcPmnc (cond : BitVec 4) (rd : RegNum) (s : State) : Result :=
  moveFrom cond rd readPmnc s

/-- Write Pmnc (R631). -/
def execMcrPmnc (cond : BitVec 4) (rd : RegNum) (s : State) : Result :=
  moveTo cond rd writePmnc s

/-- Read Ccnt (R632). -/
def execMrcCcnt (cond : BitVec 4) (rd : RegNum) (s : State) : Result :=
  moveFrom cond rd readCcnt s

/-- Write Ccnt (R632). -/
def execMcrCcnt (cond : BitVec 4) (rd : RegNum) (s : State) : Result :=
  moveTo cond rd writeCcnt s

/-- Read Pmn0 (R633). -/
def execMrcPmn0 (cond : BitVec 4) (rd : RegNum) (s : State) : Result :=
  moveFrom cond rd readPmn0 s

/-- Write Pmn0 (R633). -/
def execMcrPmn0 (cond : BitVec 4) (rd : RegNum) (s : State) : Result :=
  moveTo cond rd writePmn0 s

/-- Read Pmn1 (R633). -/
def execMrcPmn1 (cond : BitVec 4) (rd : RegNum) (s : State) : Result :=
  moveFrom cond rd readPmn1 s

/-- Write Pmn1 (R633). -/
def execMcrPmn1 (cond : BitVec 4) (rd : RegNum) (s : State) : Result :=
  moveTo cond rd writePmn1 s

/-- Read Cclkcfg (R634). -/
def execMrcCclkcfg (cond : BitVec 4) (rd : RegNum) (s : State) : Result :=
  moveFrom cond rd readCclkcfg s

/-- Write Cclkcfg (R634). -/
def execMcrCclkcfg (cond : BitVec 4) (rd : RegNum) (s : State) : Result :=
  moveTo cond rd writeCclkcfg s

/-- Read Pwrmode (R635). -/
def execMrcPwrmode (cond : BitVec 4) (rd : RegNum) (s : State) : Result :=
  moveFrom cond rd readPwrmode s

/-- Write Pwrmode (R635). -/
def execMcrPwrmode (cond : BitVec 4) (rd : RegNum) (s : State) : Result :=
  moveTo cond rd writePwrmode s

/-- Read Tx (R636). -/
def execMrcTx (cond : BitVec 4) (rd : RegNum) (s : State) : Result :=
  moveFrom cond rd readTx s

/-- Write Tx (R636). -/
def execMcrTx (cond : BitVec 4) (rd : RegNum) (s : State) : Result :=
  moveTo cond rd writeTx s

/-- Read Rx (R637). -/
def execMrcRx (cond : BitVec 4) (rd : RegNum) (s : State) : Result :=
  moveFrom cond rd readRx s

/-- Write Rx (R637). -/
def execMcrRx (cond : BitVec 4) (rd : RegNum) (s : State) : Result :=
  moveTo cond rd writeRx s

/-- Read Dcsr (R638). -/
def execMrcDcsr (cond : BitVec 4) (rd : RegNum) (s : State) : Result :=
  moveFrom cond rd readDcsrReg s

/-- Write Dcsr (R638). -/
def execMcrDcsr (cond : BitVec 4) (rd : RegNum) (s : State) : Result :=
  moveTo cond rd writeDcsrReg s

/-- Read Tbreg (R639). -/
def execMrcTbreg (cond : BitVec 4) (rd : RegNum) (s : State) : Result :=
  moveFrom cond rd readTbreg s

/-- Write Tbreg (R639). -/
def execMcrTbreg (cond : BitVec 4) (rd : RegNum) (s : State) : Result :=
  moveTo cond rd writeTbreg s

/-- Read Chkpt0 (R640). -/
def execMrcChkpt0 (cond : BitVec 4) (rd : RegNum) (s : State) : Result :=
  moveFrom cond rd readChkpt0 s

/-- Write Chkpt0 (R640). -/
def execMcrChkpt0 (cond : BitVec 4) (rd : RegNum) (s : State) : Result :=
  moveTo cond rd writeChkpt0 s

/-- Read Chkpt1 (R640). -/
def execMrcChkpt1 (cond : BitVec 4) (rd : RegNum) (s : State) : Result :=
  moveFrom cond rd readChkpt1 s

/-- Write Chkpt1 (R640). -/
def execMcrChkpt1 (cond : BitVec 4) (rd : RegNum) (s : State) : Result :=
  moveTo cond rd writeChkpt1 s

/-- Read Txrxctrl (R641). -/
def execMrcTxrxctrl (cond : BitVec 4) (rd : RegNum) (s : State) : Result :=
  moveFrom cond rd readTxrxctrl s

/-- Write Txrxctrl (R641). -/
def execMcrTxrxctrl (cond : BitVec 4) (rd : RegNum) (s : State) : Result :=
  moveTo cond rd writeTxrxctrl s

end Sys2Proof.Machine
end

