-- ==== Sys2Proof/Machine/ThumbAlu.lean ====
section
/-!
DEFINITION. The meanings of the Thumb data-processing instructions, formats 1 to 5 and the address forms
(spec/46_thumb.md R664 to R702, R722 to R725).
-/

namespace Sys2Proof.Machine

/-- A low register of the current mode. -/
def State.low (s : State) (r : BitVec 3) : Word := s.reg (lowReg r)

/-- The register number of a high-register form (R700). -/
def highReg (h : Bool) (r : BitVec 3) : RegNum := BitVec.ofBool h ++ r

/-- A result with N, Z and C from a shift, or N and Z with C kept (R664); R13_dbg stays (48_debug_jtag.md R813). -/
def thumbLogical (rd : BitVec 3) (r : Word) (carry : Bool) (s : State) : Result :=
  .next ((s.setReg (lowReg rd) r).setLogical r carry).keepR13Dbg.advance

/-- A result with all four flags (R664). -/
def thumbSum (rd : BitVec 3) (r : Sum) (s : State) : Result :=
  .next ((s.setReg (lowReg rd) r.value).setSum r).keepR13Dbg.advance

/-- All four flags and no result (R678, R691, R692, R701). -/
def thumbCompare (r : Sum) (s : State) : Result := .next (s.setSum r).keepR13Dbg.advance

/-- A result without flags, or the PC, T unchanged (R700, R702). -/
def thumbHigh (rd : RegNum) (r : Word) (s : State) : Result :=
  if rd = 15#4 then .next (s.keepR13Dbg.jump (r &&& 0xFFFFFFFE#32) true)
  else .next (s.setReg rd r).keepR13Dbg.advance

/-! ### Shift by immediate, add and subtract, immediates -/

/-- LSL (1) (R670). -/
def execTLsl1 (imm5 : BitVec 5) (rm rd : BitVec 3) (s : State) : Result :=
  let r := immShift 0#2 imm5 (s.low rm) s.flagC
  thumbLogical rd r.value r.carry s

/-- LSR (1) (R671). -/
def execTLsr1 (imm5 : BitVec 5) (rm rd : BitVec 3) (s : State) : Result :=
  let r := immShift 1#2 imm5 (s.low rm) s.flagC
  thumbLogical rd r.value r.carry s

/-- ASR (1) (R672). -/
def execTAsr1 (imm5 : BitVec 5) (rm rd : BitVec 3) (s : State) : Result :=
  let r := immShift 2#2 imm5 (s.low rm) s.flagC
  thumbLogical rd r.value r.carry s

/-- ADD (3) (R673). -/
def execTAdd3 (rm rn rd : BitVec 3) (s : State) : Result :=
  thumbSum rd (addWithCarry (s.low rn) (s.low rm) false) s

/-- SUB (3) (R674). -/
def execTSub3 (rm rn rd : BitVec 3) (s : State) : Result :=
  thumbSum rd (addWithCarry (s.low rn) (~~~(s.low rm)) true) s

/-- ADD (1) (R675). -/
def execTAdd1 (imm3 rn rd : BitVec 3) (s : State) : Result :=
  thumbSum rd (addWithCarry (s.low rn) (imm3.zeroExtend 32) false) s

/-- SUB (1) (R676). -/
def execTSub1 (imm3 rn rd : BitVec 3) (s : State) : Result :=
  thumbSum rd (addWithCarry (s.low rn) (~~~(imm3.zeroExtend 32 : Word)) true) s

/-- MOV (1) (R677). -/
def execTMov1 (rd : BitVec 3) (imm8 : BitVec 8) (s : State) : Result :=
  thumbLogical rd (imm8.zeroExtend 32) s.flagC s

/-- CMP (1) (R678). -/
def execTCmp1 (rn : BitVec 3) (imm8 : BitVec 8) (s : State) : Result :=
  thumbCompare (addWithCarry (s.low rn) (~~~(imm8.zeroExtend 32 : Word)) true) s

/-- ADD (2) (R679). -/
def execTAdd2 (rd : BitVec 3) (imm8 : BitVec 8) (s : State) : Result :=
  thumbSum rd (addWithCarry (s.low rd) (imm8.zeroExtend 32) false) s

/-- SUB (2) (R680). -/
def execTSub2 (rd : BitVec 3) (imm8 : BitVec 8) (s : State) : Result :=
  thumbSum rd (addWithCarry (s.low rd) (~~~(imm8.zeroExtend 32 : Word)) true) s

/-! ### Register-to-register operations (format 4) -/

/-- AND (R681). -/
def execTAnd (rm rd : BitVec 3) (s : State) : Result :=
  thumbLogical rd (s.low rd &&& s.low rm) s.flagC s

/-- EOR (R682). -/
def execTEor (rm rd : BitVec 3) (s : State) : Result :=
  thumbLogical rd (s.low rd ^^^ s.low rm) s.flagC s

/-- LSL (2) (R683). -/
def execTLsl2 (rs rd : BitVec 3) (s : State) : Result :=
  let r := regShift 0#2 ((s.low rs).extractLsb' 0 8).toNat (s.low rd) s.flagC
  thumbLogical rd r.value r.carry s

/-- LSR (2) (R684). -/
def execTLsr2 (rs rd : BitVec 3) (s : State) : Result :=
  let r := regShift 1#2 ((s.low rs).extractLsb' 0 8).toNat (s.low rd) s.flagC
  thumbLogical rd r.value r.carry s

/-- ASR (2) (R685). -/
def execTAsr2 (rs rd : BitVec 3) (s : State) : Result :=
  let r := regShift 2#2 ((s.low rs).extractLsb' 0 8).toNat (s.low rd) s.flagC
  thumbLogical rd r.value r.carry s

/-- ADC (R686). -/
def execTAdc (rm rd : BitVec 3) (s : State) : Result :=
  thumbSum rd (addWithCarry (s.low rd) (s.low rm) s.flagC) s

/-- SBC (R687). -/
def execTSbc (rm rd : BitVec 3) (s : State) : Result :=
  thumbSum rd (addWithCarry (s.low rd) (~~~(s.low rm)) s.flagC) s

/-- ROR (R688). -/
def execTRor (rs rd : BitVec 3) (s : State) : Result :=
  let r := regShift 3#2 ((s.low rs).extractLsb' 0 8).toNat (s.low rd) s.flagC
  thumbLogical rd r.value r.carry s

/-- TST (R689). -/
def execTTst (rm rn : BitVec 3) (s : State) : Result :=
  .next (s.setLogical (s.low rn &&& s.low rm) s.flagC).keepR13Dbg.advance

/-- NEG (R690). -/
def execTNeg (rm rd : BitVec 3) (s : State) : Result :=
  thumbSum rd (addWithCarry (~~~(s.low rm)) 0#32 true) s

/-- CMP (2) (R691). -/
def execTCmp2 (rm rn : BitVec 3) (s : State) : Result :=
  thumbCompare (addWithCarry (s.low rn) (~~~(s.low rm)) true) s

/-- CMN (R692). -/
def execTCmn (rm rn : BitVec 3) (s : State) : Result :=
  thumbCompare (addWithCarry (s.low rn) (s.low rm) false) s

/-- ORR (R693). -/
def execTOrr (rm rd : BitVec 3) (s : State) : Result :=
  thumbLogical rd (s.low rd ||| s.low rm) s.flagC s

/-- MUL (R694). -/
def execTMul (rm rd : BitVec 3) (s : State) : Result :=
  let r := s.low rm * s.low rd
  .next ((s.setReg (lowReg rd) r).setNz r).advance

/-- BIC (R695). -/
def execTBic (rm rd : BitVec 3) (s : State) : Result :=
  thumbLogical rd (s.low rd &&& ~~~(s.low rm)) s.flagC s

/-- MVN (R696). -/
def execTMvn (rm rd : BitVec 3) (s : State) : Result :=
  thumbLogical rd (~~~(s.low rm)) s.flagC s

/-! ### High-register operations (format 5) and address forms -/

/-- ADD (4) (R700); both registers low is unpredictable (U46). -/
def execTAdd4 (h1 h2 : Bool) (rm rd : BitVec 3) (s : State) : Result :=
  if !h1 && !h2 then .refused .lowRegisters
  else thumbHigh (highReg h1 rd) (s.reg (highReg h1 rd) + s.reg (highReg h2 rm)) s

/-- CMP (3) (R701); R15 as Rn is unpredictable (U43). -/
def execTCmp3 (h1 h2 : Bool) (rm rn : BitVec 3) (s : State) : Result :=
  if !h1 && !h2 then .refused .lowRegisters
  else if highReg h1 rn = 15#4 then .refused .r15Operand
  else thumbCompare (addWithCarry (s.reg (highReg h1 rn)) (~~~(s.reg (highReg h2 rm))) true) s

/-- MOV (3) (R702). -/
def execTMov3 (h1 h2 : Bool) (rm rd : BitVec 3) (s : State) : Result :=
  if !h1 && !h2 then .refused .lowRegisters
  else thumbHigh (highReg h1 rd) (s.reg (highReg h2 rm)) s

/-- An 8-bit or 7-bit immediate times 4. -/
def imm4 {n : Nat} (imm : BitVec n) : Word := (imm.zeroExtend 32) <<< 2

/-- ADD (5), PC-relative address (R722). -/
def execTAdd5 (rd : BitVec 3) (imm8 : BitVec 8) (s : State) : Result :=
  thumbHigh (lowReg rd) ((s.pcRead &&& 0xFFFFFFFC#32) + imm4 imm8) s

/-- ADD (6), SP-relative address (R723). -/
def execTAdd6 (rd : BitVec 3) (imm8 : BitVec 8) (s : State) : Result :=
  thumbHigh (lowReg rd) (s.reg 13#4 + imm4 imm8) s

/-- ADD (7), adjust SP (R724). -/
def execTAdd7 (imm7 : BitVec 7) (s : State) : Result :=
  thumbHigh 13#4 (s.reg 13#4 + imm4 imm7) s

/-- SUB (4), adjust SP (R725). -/
def execTSub4 (imm7 : BitVec 7) (s : State) : Result :=
  thumbHigh 13#4 (s.reg 13#4 - imm4 imm7) s

end Sys2Proof.Machine
end

