-- ==== Sys2Proof/Machine/ThumbBranch.lean ====
section
/-!
DEFINITION. The meanings of the Thumb branches, SWI, BKPT and the undefined halfwords
(spec/46_thumb.md R666, R703, R704, R730 to R743).
-/

namespace Sys2Proof.Machine

/-- A signed halfword offset from the PC (R730, R740). -/
def State.thumbTarget {n : Nat} (s : State) (imm : BitVec n) : Word := s.pcRead + ((imm.signExtend 32) <<< 1)

/-- The link register gets the address of the next halfword, with bit 0 set (R704, R742). -/
def State.linkThumb (s : State) : State := s.setReg 14#4 ((s.pc + 2#32) ||| 1#32)

/-- BX (R703). -/
def execTBx (h2 : Bool) (rm : BitVec 3) (s : State) : Result :=
  s.noteBranch.interwork (s.reg (highReg h2 rm))

/-- BLX (2) (R704): the target is read before R14 is written. -/
def execTBlx2 (h2 : Bool) (rm : BitVec 3) (s : State) : Result :=
  if highReg h2 rm = 15#4 then .refused .r15Operand
  else s.noteBranch.linkThumb.interwork (s.reg (highReg h2 rm))

/-- B (1), conditions 0000 to 0111 (R730). -/
def execTB1Low (condLo : BitVec 3) (imm8 : BitVec 8) (s : State) : Result :=
  directBranch (s.passes (0#1 ++ condLo)) (s.thumbTarget imm8) none (fun t => t) s

/-- B (1), conditions 1000 to 1011 (R730). -/
def execTB1Mid (condLo : BitVec 2) (imm8 : BitVec 8) (s : State) : Result :=
  directBranch (s.passes (0b10#2 ++ condLo)) (s.thumbTarget imm8) none (fun t => t) s

/-- B (1), conditions 1100 and 1101 (R730). -/
def execTB1High (condLo : Bool) (imm8 : BitVec 8) (s : State) : Result :=
  directBranch (s.passes (0b110#3 ++ BitVec.ofBool condLo)) (s.thumbTarget imm8) none (fun t => t) s

/-- B (2) (R740). -/
def execTB2 (imm11 : BitVec 11) (s : State) : Result :=
  directBranch true (s.thumbTarget imm11) none (fun t => t) s

/-- The first half of BL and BLX (1) (R741). DESIGN CHOICE: it is no branch instruction for event 0x5 of
60_exceptions.md R904, which the second half is: the spec does not say which of the two counts (log 23). -/
def execTBlPrefix (off11 : BitVec 11) (s : State) : Result :=
  .next (s.setReg 14#4 (s.pcRead + ((off11.signExtend 32) <<< 12))).advance

/-- The second half of BL (R742); bit 0 of the PC is always 0 (R662; log 50). -/
def execTBlSuffix (off11 : BitVec 11) (s : State) : Result :=
  directBranch true ((s.reg 14#4 + ((off11.zeroExtend 32) <<< 1)) &&& 0xFFFFFFFE#32) (some off11)
    State.linkThumb s

/-- The second half of BLX (1) (R743). -/
def execTBlxSuffix (off10 : BitVec 10) (s : State) : Result :=
  .next ((s.noteBranch.linkThumb.setThumb false).jump
    ((s.reg 14#4 + ((off10.zeroExtend 32) <<< 2)) &&& 0xFFFFFFFC#32) true)

/-- SWI (R732): the immediate is not examined. -/
def execTSwi (_imm8 : BitVec 8) (s : State) : Result := softwareInterrupt s

/-- BKPT (R733): the immediate is ignored. -/
def execTBkpt (_imm8 : BitVec 8) (s : State) : Result := softwareBreakpoint s

/-- The undefined halfwords 1011 0001 (R666). -/
def execTUndefB1 (_x : BitVec 8) (s : State) : Result := undefinedInstr s

/-- The undefined halfwords 1011 0010 (R666). -/
def execTUndefB2 (_x : BitVec 8) (s : State) : Result := undefinedInstr s

/-- The undefined halfwords 1011 0011 (R666). -/
def execTUndefB3 (_x : BitVec 8) (s : State) : Result := undefinedInstr s

/-- The undefined halfwords 1011 0110 (R666). -/
def execTUndefB6 (_x : BitVec 8) (s : State) : Result := undefinedInstr s

/-- The undefined halfwords 1011 0111 (R666). -/
def execTUndefB7 (_x : BitVec 8) (s : State) : Result := undefinedInstr s

/-- The undefined halfwords 1011 10 (R666). -/
def execTUndefB8 (_x : BitVec 10) (s : State) : Result := undefinedInstr s

/-- The undefined halfwords 1011 1111 (R666). -/
def execTUndefBF (_x : BitVec 8) (s : State) : Result := undefinedInstr s

/-- The undefined halfwords 1101 1110 (R666). -/
def execTUndefDE (_imm8 : BitVec 8) (s : State) : Result := undefinedInstr s

/-- The undefined halfwords 1110 1 with bit 0 set (R666). -/
def execTUndefE801 (_x : BitVec 10) (s : State) : Result := undefinedInstr s

end Sys2Proof.Machine
end

