-- ==== Sys2Proof/Machine/ThumbMemory.lean ====
section
/-!
DEFINITION. The meanings of the Thumb loads and stores (spec/46_thumb.md R705 to R721, R726 to R729).
-/

namespace Sys2Proof.Machine

/-- An address without write-back. -/
def plainAddress (a : Word) : Address := { at_ := a, wb := a, writes := false }

/-- A Thumb load of one register (R665). -/
def thumbLoad (rd : BitVec 3) (a : Word) (read : Word → Exec Word) (s : State) : Result :=
  loadReg 0#4 (lowReg rd) (plainAddress a) read s

/-- A Thumb store of one register: its low n bytes (R665). -/
def thumbStore (rd : BitVec 3) (a : Word) (n : Nat) (s : State) : Result :=
  storeReg 0#4 (plainAddress a) (fun a => memWrite a n s.privileged (s.low rd)) s

/-- LDR (3), PC-relative (R710). -/
def execTLdr3 (rd : BitVec 3) (imm8 : BitVec 8) (s : State) : Result :=
  thumbLoad rd ((s.pcRead &&& 0xFFFFFFFC#32) + imm4 imm8) (fun a => memReadWord a s.privileged) s

/-- STR (2) (R711). -/
def execTStr2 (rm rn rd : BitVec 3) (s : State) : Result :=
  thumbStore rd (s.low rn + s.low rm) 4 s

/-- STRH (2) (R712). -/
def execTStrh2 (rm rn rd : BitVec 3) (s : State) : Result :=
  thumbStore rd (s.low rn + s.low rm) 2 s

/-- STRB (2) (R713). -/
def execTStrb2 (rm rn rd : BitVec 3) (s : State) : Result :=
  thumbStore rd (s.low rn + s.low rm) 1 s

/-- LDRSB (R714). -/
def execTLdrsb (rm rn rd : BitVec 3) (s : State) : Result :=
  thumbLoad rd (s.low rn + s.low rm) (fun a => memReadSigned a 1 s.privileged) s

/-- LDR (2) (R715). -/
def execTLdr2 (rm rn rd : BitVec 3) (s : State) : Result :=
  thumbLoad rd (s.low rn + s.low rm) (fun a => memReadWord a s.privileged) s

/-- LDRH (2) (R716). -/
def execTLdrh2 (rm rn rd : BitVec 3) (s : State) : Result :=
  thumbLoad rd (s.low rn + s.low rm) (fun a => memRead a 2 s.privileged) s

/-- LDRB (2) (R717). -/
def execTLdrb2 (rm rn rd : BitVec 3) (s : State) : Result :=
  thumbLoad rd (s.low rn + s.low rm) (fun a => memRead a 1 s.privileged) s

/-- LDRSH (R718). -/
def execTLdrsh (rm rn rd : BitVec 3) (s : State) : Result :=
  thumbLoad rd (s.low rn + s.low rm) (fun a => memReadSigned a 2 s.privileged) s

/-- STR (1) (R705). -/
def execTStr1 (imm5 : BitVec 5) (rn rd : BitVec 3) (s : State) : Result :=
  thumbStore rd (s.low rn + (imm5.zeroExtend 32) <<< 2) 4 s

/-- LDR (1) (R706). -/
def execTLdr1 (imm5 : BitVec 5) (rn rd : BitVec 3) (s : State) : Result :=
  thumbLoad rd (s.low rn + (imm5.zeroExtend 32) <<< 2) (fun a => memReadWord a s.privileged) s

/-- STRB (1) (R707). -/
def execTStrb1 (imm5 : BitVec 5) (rn rd : BitVec 3) (s : State) : Result :=
  thumbStore rd (s.low rn + imm5.zeroExtend 32) 1 s

/-- LDRB (1) (R708). -/
def execTLdrb1 (imm5 : BitVec 5) (rn rd : BitVec 3) (s : State) : Result :=
  thumbLoad rd (s.low rn + imm5.zeroExtend 32) (fun a => memRead a 1 s.privileged) s

/-- STRH (1) (R709). -/
def execTStrh1 (imm5 : BitVec 5) (rn rd : BitVec 3) (s : State) : Result :=
  thumbStore rd (s.low rn + (imm5.zeroExtend 32) <<< 1) 2 s

/-- LDRH (1) (R719). -/
def execTLdrh1 (imm5 : BitVec 5) (rn rd : BitVec 3) (s : State) : Result :=
  thumbLoad rd (s.low rn + (imm5.zeroExtend 32) <<< 1) (fun a => memRead a 2 s.privileged) s

/-- STR (3), SP-relative (R720). -/
def execTStr3 (rd : BitVec 3) (imm8 : BitVec 8) (s : State) : Result :=
  thumbStore rd (s.reg 13#4 + imm4 imm8) 4 s

/-- LDR (4), SP-relative (R721). -/
def execTLdr4 (rd : BitVec 3) (imm8 : BitVec 8) (s : State) : Result :=
  thumbLoad rd (s.reg 13#4 + imm4 imm8) (fun a => memReadWord a s.privileged) s

/-- The registers of a Thumb list, and one more (R726, R727). -/
def thumbRegs (list : BitVec 8) (more : Option RegNum) : List RegNum := listRegs (list.zeroExtend 16) ++ more.toList

/-- A register list that is empty is unpredictable (R726 to R729; U44). -/
def emptyRefusal (regs : List RegNum) : Option Refusal := if regs.isEmpty then some .registerOverlap else none

/-- PUSH (R726). -/
def execTPush (r : Bool) (list : BitVec 8) (s : State) : Result :=
  let regs := thumbRegs list (if r then some 14#4 else none)
  orRefuse (emptyRefusal regs) (storeMultiple true false true 13#4 regs (fun r => s.reg r) s)

/-- POP (R727); like LDM it must not be executed in DEBUG mode (48_debug_jtag.md R812). -/
def execTPop (r : Bool) (list : BitVec 8) (s : State) : Result :=
  let regs := thumbRegs list (if r then some 15#4 else none)
  orRefuse (emptyRefusal regs)
    (if s.inDebug then .refused .forbiddenInDebug
    else loadMultiple s.mode false true true 13#4 regs (fun vs t =>
      match pcValue vs with
      | some v => (t.setRegs vs).interwork v
      | none => .next (t.setRegs vs).advance) s)

/-- STMIA (R728). -/
def execTStmia (rn : BitVec 3) (list : BitVec 8) (s : State) : Result :=
  let regs := thumbRegs list none
  orRefuse (emptyRefusal regs) (storeMultiple false true true (lowReg rn) regs (fun r => s.reg r) s)

/-- LDMIA (R729): no write-back where Rn is loaded. Like LDM it must not be executed in DEBUG mode
(48_debug_jtag.md R812). -/
def execTLdmia (rn : BitVec 3) (list : BitVec 8) (s : State) : Result :=
  let regs := thumbRegs list none
  orRefuse (emptyRefusal regs)
    (if s.inDebug then .refused .forbiddenInDebug
    else loadMultiple s.mode false true (!regs.contains (lowReg rn)) (lowReg rn) regs
      (fun vs t => .next (t.setRegs vs).advance) s)

end Sys2Proof.Machine
end

