-- ==== Sys2Proof/Machine/Dispatch.lean ====
section
/-!
DEFINITION. The dispatch: one arm per instruction, each one call of its meaning.
-/

namespace Sys2Proof.Machine

/-- The meaning of an instruction. -/
def exec (i : Instr) (s : State) : Host.Outcome State Fault Refusal :=
  match i with
  | .and cond sf rn rd op2 => Sys2Proof.Machine.execAnd cond sf rn rd op2 s
  | .eor cond sf rn rd op2 => Sys2Proof.Machine.execEor cond sf rn rd op2 s
  | .sub cond sf rn rd op2 => Sys2Proof.Machine.execSub cond sf rn rd op2 s
  | .rsb cond sf rn rd op2 => Sys2Proof.Machine.execRsb cond sf rn rd op2 s
  | .add cond sf rn rd op2 => Sys2Proof.Machine.execAdd cond sf rn rd op2 s
  | .adc cond sf rn rd op2 => Sys2Proof.Machine.execAdc cond sf rn rd op2 s
  | .sbc cond sf rn rd op2 => Sys2Proof.Machine.execSbc cond sf rn rd op2 s
  | .rsc cond sf rn rd op2 => Sys2Proof.Machine.execRsc cond sf rn rd op2 s
  | .tst cond rn op2 => Sys2Proof.Machine.execTst cond rn op2 s
  | .teq cond rn op2 => Sys2Proof.Machine.execTeq cond rn op2 s
  | .cmp cond rn op2 => Sys2Proof.Machine.execCmp cond rn op2 s
  | .cmn cond rn op2 => Sys2Proof.Machine.execCmn cond rn op2 s
  | .orr cond sf rn rd op2 => Sys2Proof.Machine.execOrr cond sf rn rd op2 s
  | .mov cond sf rd op2 => Sys2Proof.Machine.execMov cond sf rd op2 s
  | .bic cond sf rn rd op2 => Sys2Proof.Machine.execBic cond sf rn rd op2 s
  | .mvn cond sf rd op2 => Sys2Proof.Machine.execMvn cond sf rd op2 s
  | .clz cond rd rm => Sys2Proof.Machine.execClz cond rd rm s
  | .mul cond sf rd rs rm => Sys2Proof.Machine.execMul cond sf rd rs rm s
  | .mla cond sf rd rn rs rm => Sys2Proof.Machine.execMla cond sf rd rn rs rm s
  | .umull cond sf rdHi rdLo rs rm => Sys2Proof.Machine.execUmull cond sf rdHi rdLo rs rm s
  | .umlal cond sf rdHi rdLo rs rm => Sys2Proof.Machine.execUmlal cond sf rdHi rdLo rs rm s
  | .smull cond sf rdHi rdLo rs rm => Sys2Proof.Machine.execSmull cond sf rdHi rdLo rs rm s
  | .smlal cond sf rdHi rdLo rs rm => Sys2Proof.Machine.execSmlal cond sf rdHi rdLo rs rm s
  | .smulXY cond rd rs y x rm => Sys2Proof.Machine.execSmulXY cond rd rs y x rm s
  | .smulWY cond rd rs y rm => Sys2Proof.Machine.execSmulWY cond rd rs y rm s
  | .smlaXY cond rd rn rs y x rm => Sys2Proof.Machine.execSmlaXY cond rd rn rs y x rm s
  | .smlaWY cond rd rn rs y rm => Sys2Proof.Machine.execSmlaWY cond rd rn rs y rm s
  | .smlalXY cond rdHi rdLo rs y x rm => Sys2Proof.Machine.execSmlalXY cond rdHi rdLo rs y x rm s
  | .qadd cond rn rd rm => Sys2Proof.Machine.execQadd cond rn rd rm s
  | .qsub cond rn rd rm => Sys2Proof.Machine.execQsub cond rn rd rm s
  | .qdadd cond rn rd rm => Sys2Proof.Machine.execQdadd cond rn rd rm s
  | .qdsub cond rn rd rm => Sys2Proof.Machine.execQdsub cond rn rd rm s
  | .ldr cond rn rd am => Sys2Proof.Machine.execLdr cond rn rd am s
  | .str cond rn rd am => Sys2Proof.Machine.execStr cond rn rd am s
  | .ldrb cond rn rd am => Sys2Proof.Machine.execLdrb cond rn rd am s
  | .strb cond rn rd am => Sys2Proof.Machine.execStrb cond rn rd am s
  | .ldrt cond rn rd off => Sys2Proof.Machine.execLdrt cond rn rd off s
  | .ldrbt cond rn rd off => Sys2Proof.Machine.execLdrbt cond rn rd off s
  | .strt cond rn rd off => Sys2Proof.Machine.execStrt cond rn rd off s
  | .strbt cond rn rd off => Sys2Proof.Machine.execStrbt cond rn rd off s
  | .strh cond p u w rn rd off => Sys2Proof.Machine.execStrh cond p u w rn rd off s
  | .ldrh cond p u w rn rd off => Sys2Proof.Machine.execLdrh cond p u w rn rd off s
  | .ldrsb cond p u w rn rd off => Sys2Proof.Machine.execLdrsb cond p u w rn rd off s
  | .ldrsh cond p u w rn rd off => Sys2Proof.Machine.execLdrsh cond p u w rn rd off s
  | .ldrd cond p u w rn rd off => Sys2Proof.Machine.execLdrd cond p u w rn rd off s
  | .strd cond p u w rn rd off => Sys2Proof.Machine.execStrd cond p u w rn rd off s
  | .ldm1 cond p u w rn list => Sys2Proof.Machine.execLdm1 cond p u w rn list s
  | .ldm2 cond p u w rn list => Sys2Proof.Machine.execLdm2 cond p u w rn list s
  | .ldm3 cond p u w rn list => Sys2Proof.Machine.execLdm3 cond p u w rn list s
  | .stm1 cond p u w rn list => Sys2Proof.Machine.execStm1 cond p u w rn list s
  | .stm2 cond p u w rn list => Sys2Proof.Machine.execStm2 cond p u w rn list s
  | .swp cond rn rd rm => Sys2Proof.Machine.execSwp cond rn rd rm s
  | .swpb cond rn rd rm => Sys2Proof.Machine.execSwpb cond rn rd rm s
  | .pldImm u rn off12 => Sys2Proof.Machine.execPldImm u rn off12 s
  | .pldReg u rn amt sh rm => Sys2Proof.Machine.execPldReg u rn amt sh rm s
  | .b cond imm24 => Sys2Proof.Machine.execB cond imm24 s
  | .bl cond imm24 => Sys2Proof.Machine.execBl cond imm24 s
  | .blx1 h imm24 => Sys2Proof.Machine.execBlx1 h imm24 s
  | .blx2 cond rm => Sys2Proof.Machine.execBlx2 cond rm s
  | .bx cond rm => Sys2Proof.Machine.execBx cond rm s
  | .mrs cond r rd => Sys2Proof.Machine.execMrs cond r rd s
  | .msrReg cond r mask rm => Sys2Proof.Machine.execMsrReg cond r mask rm s
  | .msrImm cond r mask rot imm8 => Sys2Proof.Machine.execMsrImm cond r mask rot imm8 s
  | .swi cond imm24 => Sys2Proof.Machine.execSwi cond imm24 s
  | .bkpt immHi immLo => Sys2Proof.Machine.execBkpt immHi immLo s
  | .cdp cond opc1 crn crd cp opc2 crm => Sys2Proof.Machine.execCdp cond opc1 crn crd cp opc2 crm s
  | .mcr cond opc1 crn rd cp opc2 crm => Sys2Proof.Machine.execMcr cond opc1 crn rd cp opc2 crm s
  | .mrc cond opc1 crn rd cp opc2 crm => Sys2Proof.Machine.execMrc cond opc1 crn rd cp opc2 crm s
  | .ldcOffset cond u n w rn crd cp off8 => Sys2Proof.Machine.execLdcOffset cond u n w rn crd cp off8 s
  | .ldcPost cond u n rn crd cp off8 => Sys2Proof.Machine.execLdcPost cond u n rn crd cp off8 s
  | .ldcUnindexed cond n rn crd cp option => Sys2Proof.Machine.execLdcUnindexed cond n rn crd cp option s
  | .stcOffset cond u n w rn crd cp off8 => Sys2Proof.Machine.execStcOffset cond u n w rn crd cp off8 s
  | .stcPost cond u n rn crd cp off8 => Sys2Proof.Machine.execStcPost cond u n rn crd cp off8 s
  | .stcUnindexed cond n rn crd cp option => Sys2Proof.Machine.execStcUnindexed cond n rn crd cp option s
  | .mcrr cond rn rd cp opc crm => Sys2Proof.Machine.execMcrr cond rn rd cp opc crm s
  | .mrrc cond rn rd cp opc crm => Sys2Proof.Machine.execMrrc cond rn rd cp opc crm s
  | .mia cond rs acc rm => Sys2Proof.Machine.execMia cond rs acc rm s
  | .miaph cond rs acc rm => Sys2Proof.Machine.execMiaph cond rs acc rm s
  | .miabb cond rs acc rm => Sys2Proof.Machine.execMiabb cond rs acc rm s
  | .miabt cond rs acc rm => Sys2Proof.Machine.execMiabt cond rs acc rm s
  | .miatb cond rs acc rm => Sys2Proof.Machine.execMiatb cond rs acc rm s
  | .miatt cond rs acc rm => Sys2Proof.Machine.execMiatt cond rs acc rm s
  | .mar cond rdHi rdLo acc => Sys2Proof.Machine.execMar cond rdHi rdLo acc s
  | .mra cond rdHi rdLo acc => Sys2Proof.Machine.execMra cond rdHi rdLo acc s
  | .undefMedia cond anyHi anyLo => Sys2Proof.Machine.execUndefMedia cond anyHi anyLo s
  | .undefMsrImm cond r any => Sys2Proof.Machine.execUndefMsrImm cond r any s
  | .mrcId cond rd => Sys2Proof.Machine.execMrcId cond rd s
  | .mcrId cond rd => Sys2Proof.Machine.execMcrId cond rd s
  | .mrcCacheType cond rd => Sys2Proof.Machine.execMrcCacheType cond rd s
  | .mcrCacheType cond rd => Sys2Proof.Machine.execMcrCacheType cond rd s
  | .mrcControl cond rd => Sys2Proof.Machine.execMrcControl cond rd s
  | .mcrControl cond rd => Sys2Proof.Machine.execMcrControl cond rd s
  | .mrcAuxControl cond rd => Sys2Proof.Machine.execMrcAuxControl cond rd s
  | .mcrAuxControl cond rd => Sys2Proof.Machine.execMcrAuxControl cond rd s
  | .mrcTtb cond rd => Sys2Proof.Machine.execMrcTtb cond rd s
  | .mcrTtb cond rd => Sys2Proof.Machine.execMcrTtb cond rd s
  | .mrcDacr cond rd => Sys2Proof.Machine.execMrcDacr cond rd s
  | .mcrDacr cond rd => Sys2Proof.Machine.execMcrDacr cond rd s
  | .mrcFsr cond rd => Sys2Proof.Machine.execMrcFsr cond rd s
  | .mcrFsr cond rd => Sys2Proof.Machine.execMcrFsr cond rd s
  | .mrcFar cond rd => Sys2Proof.Machine.execMrcFar cond rd s
  | .mcrFar cond rd => Sys2Proof.Machine.execMcrFar cond rd s
  | .mcrInvIDCacheBtb cond rd => Sys2Proof.Machine.execMcrInvIDCacheBtb cond rd s
  | .mcrInvICacheBtb cond rd => Sys2Proof.Machine.execMcrInvICacheBtb cond rd s
  | .mcrInvICacheLine cond rd => Sys2Proof.Machine.execMcrInvICacheLine cond rd s
  | .mcrInvDCache cond rd => Sys2Proof.Machine.execMcrInvDCache cond rd s
  | .mcrInvDCacheLine cond rd => Sys2Proof.Machine.execMcrInvDCacheLine cond rd s
  | .mcrCleanDCacheLine cond rd => Sys2Proof.Machine.execMcrCleanDCacheLine cond rd s
  | .mcrDrainWriteBuffer cond rd => Sys2Proof.Machine.execMcrDrainWriteBuffer cond rd s
  | .mcrInvBtb cond rd => Sys2Proof.Machine.execMcrInvBtb cond rd s
  | .mcrAllocateDLine cond rd => Sys2Proof.Machine.execMcrAllocateDLine cond rd s
  | .mcrInvIDTlb cond rd => Sys2Proof.Machine.execMcrInvIDTlb cond rd s
  | .mcrInvITlb cond rd => Sys2Proof.Machine.execMcrInvITlb cond rd s
  | .mcrInvITlbEntry cond rd => Sys2Proof.Machine.execMcrInvITlbEntry cond rd s
  | .mcrInvDTlb cond rd => Sys2Proof.Machine.execMcrInvDTlb cond rd s
  | .mcrInvDTlbEntry cond rd => Sys2Proof.Machine.execMcrInvDTlbEntry cond rd s
  | .mcrLockILine cond rd => Sys2Proof.Machine.execMcrLockILine cond rd s
  | .mcrUnlockICache cond rd => Sys2Proof.Machine.execMcrUnlockICache cond rd s
  | .mrcDCacheLock cond rd => Sys2Proof.Machine.execMrcDCacheLock cond rd s
  | .mcrDCacheLock cond rd => Sys2Proof.Machine.execMcrDCacheLock cond rd s
  | .mcrUnlockDCache cond rd => Sys2Proof.Machine.execMcrUnlockDCache cond rd s
  | .mcrLockITlbEntry cond rd => Sys2Proof.Machine.execMcrLockITlbEntry cond rd s
  | .mcrLockDTlbEntry cond rd => Sys2Proof.Machine.execMcrLockDTlbEntry cond rd s
  | .mcrUnlockITlb cond rd => Sys2Proof.Machine.execMcrUnlockITlb cond rd s
  | .mcrUnlockDTlb cond rd => Sys2Proof.Machine.execMcrUnlockDTlb cond rd s
  | .mrcPid cond rd => Sys2Proof.Machine.execMrcPid cond rd s
  | .mcrPid cond rd => Sys2Proof.Machine.execMcrPid cond rd s
  | .mrcIbcr0 cond rd => Sys2Proof.Machine.execMrcIbcr0 cond rd s
  | .mcrIbcr0 cond rd => Sys2Proof.Machine.execMcrIbcr0 cond rd s
  | .mrcIbcr1 cond rd => Sys2Proof.Machine.execMrcIbcr1 cond rd s
  | .mcrIbcr1 cond rd => Sys2Proof.Machine.execMcrIbcr1 cond rd s
  | .mrcDbr0 cond rd => Sys2Proof.Machine.execMrcDbr0 cond rd s
  | .mcrDbr0 cond rd => Sys2Proof.Machine.execMcrDbr0 cond rd s
  | .mrcDbr1 cond rd => Sys2Proof.Machine.execMrcDbr1 cond rd s
  | .mcrDbr1 cond rd => Sys2Proof.Machine.execMcrDbr1 cond rd s
  | .mrcDbcon cond rd => Sys2Proof.Machine.execMrcDbcon cond rd s
  | .mcrDbcon cond rd => Sys2Proof.Machine.execMcrDbcon cond rd s
  | .mrcCpar cond rd => Sys2Proof.Machine.execMrcCpar cond rd s
  | .mcrCpar cond rd => Sys2Proof.Machine.execMcrCpar cond rd s
  | .mrcPmnc cond rd => Sys2Proof.Machine.execMrcPmnc cond rd s
  | .mcrPmnc cond rd => Sys2Proof.Machine.execMcrPmnc cond rd s
  | .mrcCcnt cond rd => Sys2Proof.Machine.execMrcCcnt cond rd s
  | .mcrCcnt cond rd => Sys2Proof.Machine.execMcrCcnt cond rd s
  | .mrcPmn0 cond rd => Sys2Proof.Machine.execMrcPmn0 cond rd s
  | .mcrPmn0 cond rd => Sys2Proof.Machine.execMcrPmn0 cond rd s
  | .mrcPmn1 cond rd => Sys2Proof.Machine.execMrcPmn1 cond rd s
  | .mcrPmn1 cond rd => Sys2Proof.Machine.execMcrPmn1 cond rd s
  | .mrcCclkcfg cond rd => Sys2Proof.Machine.execMrcCclkcfg cond rd s
  | .mcrCclkcfg cond rd => Sys2Proof.Machine.execMcrCclkcfg cond rd s
  | .mrcPwrmode cond rd => Sys2Proof.Machine.execMrcPwrmode cond rd s
  | .mcrPwrmode cond rd => Sys2Proof.Machine.execMcrPwrmode cond rd s
  | .mrcTx cond rd => Sys2Proof.Machine.execMrcTx cond rd s
  | .mcrTx cond rd => Sys2Proof.Machine.execMcrTx cond rd s
  | .mrcRx cond rd => Sys2Proof.Machine.execMrcRx cond rd s
  | .mcrRx cond rd => Sys2Proof.Machine.execMcrRx cond rd s
  | .mrcDcsr cond rd => Sys2Proof.Machine.execMrcDcsr cond rd s
  | .mcrDcsr cond rd => Sys2Proof.Machine.execMcrDcsr cond rd s
  | .mrcTbreg cond rd => Sys2Proof.Machine.execMrcTbreg cond rd s
  | .mcrTbreg cond rd => Sys2Proof.Machine.execMcrTbreg cond rd s
  | .mrcChkpt0 cond rd => Sys2Proof.Machine.execMrcChkpt0 cond rd s
  | .mcrChkpt0 cond rd => Sys2Proof.Machine.execMcrChkpt0 cond rd s
  | .mrcChkpt1 cond rd => Sys2Proof.Machine.execMrcChkpt1 cond rd s
  | .mcrChkpt1 cond rd => Sys2Proof.Machine.execMcrChkpt1 cond rd s
  | .mrcTxrxctrl cond rd => Sys2Proof.Machine.execMrcTxrxctrl cond rd s
  | .mcrTxrxctrl cond rd => Sys2Proof.Machine.execMcrTxrxctrl cond rd s
  | .tLsl1 imm5 rm rd => Sys2Proof.Machine.execTLsl1 imm5 rm rd s
  | .tLsr1 imm5 rm rd => Sys2Proof.Machine.execTLsr1 imm5 rm rd s
  | .tAsr1 imm5 rm rd => Sys2Proof.Machine.execTAsr1 imm5 rm rd s
  | .tAdd3 rm rn rd => Sys2Proof.Machine.execTAdd3 rm rn rd s
  | .tSub3 rm rn rd => Sys2Proof.Machine.execTSub3 rm rn rd s
  | .tAdd1 imm3 rn rd => Sys2Proof.Machine.execTAdd1 imm3 rn rd s
  | .tSub1 imm3 rn rd => Sys2Proof.Machine.execTSub1 imm3 rn rd s
  | .tMov1 rd imm8 => Sys2Proof.Machine.execTMov1 rd imm8 s
  | .tCmp1 rn imm8 => Sys2Proof.Machine.execTCmp1 rn imm8 s
  | .tAdd2 rd imm8 => Sys2Proof.Machine.execTAdd2 rd imm8 s
  | .tSub2 rd imm8 => Sys2Proof.Machine.execTSub2 rd imm8 s
  | .tAnd rm rd => Sys2Proof.Machine.execTAnd rm rd s
  | .tEor rm rd => Sys2Proof.Machine.execTEor rm rd s
  | .tLsl2 rs rd => Sys2Proof.Machine.execTLsl2 rs rd s
  | .tLsr2 rs rd => Sys2Proof.Machine.execTLsr2 rs rd s
  | .tAsr2 rs rd => Sys2Proof.Machine.execTAsr2 rs rd s
  | .tAdc rm rd => Sys2Proof.Machine.execTAdc rm rd s
  | .tSbc rm rd => Sys2Proof.Machine.execTSbc rm rd s
  | .tRor rs rd => Sys2Proof.Machine.execTRor rs rd s
  | .tTst rm rn => Sys2Proof.Machine.execTTst rm rn s
  | .tNeg rm rd => Sys2Proof.Machine.execTNeg rm rd s
  | .tCmp2 rm rn => Sys2Proof.Machine.execTCmp2 rm rn s
  | .tCmn rm rn => Sys2Proof.Machine.execTCmn rm rn s
  | .tOrr rm rd => Sys2Proof.Machine.execTOrr rm rd s
  | .tMul rm rd => Sys2Proof.Machine.execTMul rm rd s
  | .tBic rm rd => Sys2Proof.Machine.execTBic rm rd s
  | .tMvn rm rd => Sys2Proof.Machine.execTMvn rm rd s
  | .tAdd4 h1 h2 rm rd => Sys2Proof.Machine.execTAdd4 h1 h2 rm rd s
  | .tCmp3 h1 h2 rm rn => Sys2Proof.Machine.execTCmp3 h1 h2 rm rn s
  | .tMov3 h1 h2 rm rd => Sys2Proof.Machine.execTMov3 h1 h2 rm rd s
  | .tBx h2 rm => Sys2Proof.Machine.execTBx h2 rm s
  | .tBlx2 h2 rm => Sys2Proof.Machine.execTBlx2 h2 rm s
  | .tLdr3 rd imm8 => Sys2Proof.Machine.execTLdr3 rd imm8 s
  | .tStr2 rm rn rd => Sys2Proof.Machine.execTStr2 rm rn rd s
  | .tStrh2 rm rn rd => Sys2Proof.Machine.execTStrh2 rm rn rd s
  | .tStrb2 rm rn rd => Sys2Proof.Machine.execTStrb2 rm rn rd s
  | .tLdrsb rm rn rd => Sys2Proof.Machine.execTLdrsb rm rn rd s
  | .tLdr2 rm rn rd => Sys2Proof.Machine.execTLdr2 rm rn rd s
  | .tLdrh2 rm rn rd => Sys2Proof.Machine.execTLdrh2 rm rn rd s
  | .tLdrb2 rm rn rd => Sys2Proof.Machine.execTLdrb2 rm rn rd s
  | .tLdrsh rm rn rd => Sys2Proof.Machine.execTLdrsh rm rn rd s
  | .tStr1 imm5 rn rd => Sys2Proof.Machine.execTStr1 imm5 rn rd s
  | .tLdr1 imm5 rn rd => Sys2Proof.Machine.execTLdr1 imm5 rn rd s
  | .tStrb1 imm5 rn rd => Sys2Proof.Machine.execTStrb1 imm5 rn rd s
  | .tLdrb1 imm5 rn rd => Sys2Proof.Machine.execTLdrb1 imm5 rn rd s
  | .tStrh1 imm5 rn rd => Sys2Proof.Machine.execTStrh1 imm5 rn rd s
  | .tLdrh1 imm5 rn rd => Sys2Proof.Machine.execTLdrh1 imm5 rn rd s
  | .tStr3 rd imm8 => Sys2Proof.Machine.execTStr3 rd imm8 s
  | .tLdr4 rd imm8 => Sys2Proof.Machine.execTLdr4 rd imm8 s
  | .tAdd5 rd imm8 => Sys2Proof.Machine.execTAdd5 rd imm8 s
  | .tAdd6 rd imm8 => Sys2Proof.Machine.execTAdd6 rd imm8 s
  | .tAdd7 imm7 => Sys2Proof.Machine.execTAdd7 imm7 s
  | .tSub4 imm7 => Sys2Proof.Machine.execTSub4 imm7 s
  | .tPush r list => Sys2Proof.Machine.execTPush r list s
  | .tPop r list => Sys2Proof.Machine.execTPop r list s
  | .tBkpt imm8 => Sys2Proof.Machine.execTBkpt imm8 s
  | .tUndefB1 x => Sys2Proof.Machine.execTUndefB1 x s
  | .tUndefB2 x => Sys2Proof.Machine.execTUndefB2 x s
  | .tUndefB3 x => Sys2Proof.Machine.execTUndefB3 x s
  | .tUndefB6 x => Sys2Proof.Machine.execTUndefB6 x s
  | .tUndefB7 x => Sys2Proof.Machine.execTUndefB7 x s
  | .tUndefB8 x => Sys2Proof.Machine.execTUndefB8 x s
  | .tUndefBF x => Sys2Proof.Machine.execTUndefBF x s
  | .tStmia rn list => Sys2Proof.Machine.execTStmia rn list s
  | .tLdmia rn list => Sys2Proof.Machine.execTLdmia rn list s
  | .tB1Low condLo imm8 => Sys2Proof.Machine.execTB1Low condLo imm8 s
  | .tB1Mid condLo imm8 => Sys2Proof.Machine.execTB1Mid condLo imm8 s
  | .tB1High condLo imm8 => Sys2Proof.Machine.execTB1High condLo imm8 s
  | .tUndefDE imm8 => Sys2Proof.Machine.execTUndefDE imm8 s
  | .tSwi imm8 => Sys2Proof.Machine.execTSwi imm8 s
  | .tB2 imm11 => Sys2Proof.Machine.execTB2 imm11 s
  | .tBlxSuffix off10 => Sys2Proof.Machine.execTBlxSuffix off10 s
  | .tUndefE801 x => Sys2Proof.Machine.execTUndefE801 x s
  | .tBlPrefix off11 => Sys2Proof.Machine.execTBlPrefix off11 s
  | .tBlSuffix off11 => Sys2Proof.Machine.execTBlSuffix off11 s

end Sys2Proof.Machine
end

