-- ==== Sys2Proof/Machine/Hazards.lean ====
section
/-!
DEFINITION. The registers that an ARM instruction reads, for the one hazard of the instruction set: the instruction
after a LDM of user registers must not read a banked register (spec/42_load_store.md R471; U44; log 51).
-/

namespace Sys2Proof.Machine

/-- The registers of a shifter operand. -/
def op2Reads : Op2 → List RegNum
  | .imm _ _ => []
  | .shift _ _ rm => [rm]
  | .reg rs _ rm => [rs, rm]

/-- The condition of an ARM instruction and the registers it reads when the condition passes; nothing where it reads
none, and for Thumb instructions, since a LDM of user registers is an ARM instruction. -/
def instrReads : Instr → BitVec 4 × List RegNum
  | .and cond _ rn _ op2 => (cond, [rn] ++ op2Reads op2)
  | .eor cond _ rn _ op2 => (cond, [rn] ++ op2Reads op2)
  | .sub cond _ rn _ op2 => (cond, [rn] ++ op2Reads op2)
  | .rsb cond _ rn _ op2 => (cond, [rn] ++ op2Reads op2)
  | .add cond _ rn _ op2 => (cond, [rn] ++ op2Reads op2)
  | .adc cond _ rn _ op2 => (cond, [rn] ++ op2Reads op2)
  | .sbc cond _ rn _ op2 => (cond, [rn] ++ op2Reads op2)
  | .rsc cond _ rn _ op2 => (cond, [rn] ++ op2Reads op2)
  | .tst cond rn op2 => (cond, [rn] ++ op2Reads op2)
  | .teq cond rn op2 => (cond, [rn] ++ op2Reads op2)
  | .cmp cond rn op2 => (cond, [rn] ++ op2Reads op2)
  | .cmn cond rn op2 => (cond, [rn] ++ op2Reads op2)
  | .orr cond _ rn _ op2 => (cond, [rn] ++ op2Reads op2)
  | .mov cond _ _ op2 => (cond, op2Reads op2)
  | .bic cond _ rn _ op2 => (cond, [rn] ++ op2Reads op2)
  | .mvn cond _ _ op2 => (cond, op2Reads op2)
  | .clz cond _ rm => (cond, [rm])
  | .mul cond _ _ rs rm => (cond, [rs, rm])
  | .mla cond _ _ rn rs rm => (cond, [rn, rs, rm])
  | .umull cond _ _ _ rs rm => (cond, [rs, rm])
  | .umlal cond _ rdHi rdLo rs rm => (cond, [rs, rm, rdHi, rdLo])
  | .smull cond _ _ _ rs rm => (cond, [rs, rm])
  | .smlal cond _ rdHi rdLo rs rm => (cond, [rs, rm, rdHi, rdLo])
  | .smulXY cond _ rs _ _ rm => (cond, [rs, rm])
  | .smulWY cond _ rs _ rm => (cond, [rs, rm])
  | .smlaXY cond _ rn rs _ _ rm => (cond, [rn, rs, rm])
  | .smlaWY cond _ rn rs _ rm => (cond, [rn, rs, rm])
  | .smlalXY cond rdHi rdLo rs _ _ rm => (cond, [rs, rm, rdHi, rdLo])
  | .qadd cond rn _ rm => (cond, [rn, rm])
  | .qsub cond rn _ rm => (cond, [rn, rm])
  | .qdadd cond rn _ rm => (cond, [rn, rm])
  | .qdsub cond rn _ rm => (cond, [rn, rm])
  | .ldr cond rn _ am => (cond, [rn] ++ (mode2Rm am).toList)
  | .str cond rn rd am => (cond, [rn, rd] ++ (mode2Rm am).toList)
  | .ldrb cond rn _ am => (cond, [rn] ++ (mode2Rm am).toList)
  | .strb cond rn rd am => (cond, [rn, rd] ++ (mode2Rm am).toList)
  | .ldrt cond rn _ off => (cond, [rn] ++ (offset2Rm off).toList)
  | .ldrbt cond rn _ off => (cond, [rn] ++ (offset2Rm off).toList)
  | .strt cond rn rd off => (cond, [rn, rd] ++ (offset2Rm off).toList)
  | .strbt cond rn rd off => (cond, [rn, rd] ++ (offset2Rm off).toList)
  | .strh cond _ _ _ rn rd off => (cond, [rn, rd] ++ (offset3Rm off).toList)
  | .ldrh cond _ _ _ rn _ off => (cond, [rn] ++ (offset3Rm off).toList)
  | .ldrsb cond _ _ _ rn _ off => (cond, [rn] ++ (offset3Rm off).toList)
  | .ldrsh cond _ _ _ rn _ off => (cond, [rn] ++ (offset3Rm off).toList)
  | .ldrd cond _ _ _ rn _ off => (cond, [rn] ++ (offset3Rm off).toList)
  | .strd cond _ _ _ rn rd off => (cond, [rn, rd, rd + 1#4] ++ (offset3Rm off).toList)
  | .ldm1 cond _ _ _ rn _ => (cond, [rn])
  | .ldm2 cond _ _ _ rn _ => (cond, [rn])
  | .ldm3 cond _ _ _ rn _ => (cond, [rn])
  | .stm1 cond _ _ _ rn list => (cond, [rn] ++ listRegs list)
  | .stm2 cond _ _ _ rn list => (cond, [rn] ++ listRegs list)
  | .swp cond rn _ rm => (cond, [rn, rm])
  | .swpb cond rn _ rm => (cond, [rn, rm])
  | .pldImm _ rn _ => (14#4, [rn])
  | .pldReg _ rn _ _ rm => (14#4, [rn, rm])
  | .b _ _ => (14#4, [])
  | .bl _ _ => (14#4, [])
  | .blx1 _ _ => (14#4, [])
  | .blx2 cond rm => (cond, [rm])
  | .bx cond rm => (cond, [rm])
  | .mrs _ _ _ => (14#4, [])
  | .msrReg cond _ _ rm => (cond, [rm])
  | .msrImm _ _ _ _ _ => (14#4, [])
  | .swi _ _ => (14#4, [])
  | .bkpt _ _ => (14#4, [])
  | .cdp _ _ _ _ _ _ _ => (14#4, [])
  | .mcr _ _ _ _ _ _ _ => (14#4, [])
  | .mrc _ _ _ _ _ _ _ => (14#4, [])
  | .ldcOffset cond _ _ _ rn _ _ _ => (cond, [rn])
  | .ldcPost cond _ _ rn _ _ _ => (cond, [rn])
  | .ldcUnindexed _ _ _ _ _ _ => (14#4, [])
  | .stcOffset cond _ _ _ rn _ _ _ => (cond, [rn])
  | .stcPost cond _ _ rn _ _ _ => (cond, [rn])
  | .stcUnindexed _ _ _ _ _ _ => (14#4, [])
  | .mcrr _ _ _ _ _ _ => (14#4, [])
  | .mrrc _ _ _ _ _ _ => (14#4, [])
  | .mia cond rs _ rm => (cond, [rs, rm])
  | .miaph cond rs _ rm => (cond, [rs, rm])
  | .miabb cond rs _ rm => (cond, [rs, rm])
  | .miabt cond rs _ rm => (cond, [rs, rm])
  | .miatb cond rs _ rm => (cond, [rs, rm])
  | .miatt cond rs _ rm => (cond, [rs, rm])
  | .mar cond rdHi rdLo _ => (cond, [rdHi, rdLo])
  | .mra _ _ _ _ => (14#4, [])
  | .undefMedia _ _ _ => (14#4, [])
  | .undefMsrImm _ _ _ => (14#4, [])
  | .mrcId _ _ => (14#4, [])
  | .mcrId _ _ => (14#4, [])
  | .mrcCacheType _ _ => (14#4, [])
  | .mcrCacheType _ _ => (14#4, [])
  | .mrcControl _ _ => (14#4, [])
  | .mcrControl cond rd => (cond, [rd])
  | .mrcAuxControl _ _ => (14#4, [])
  | .mcrAuxControl cond rd => (cond, [rd])
  | .mrcTtb _ _ => (14#4, [])
  | .mcrTtb cond rd => (cond, [rd])
  | .mrcDacr _ _ => (14#4, [])
  | .mcrDacr cond rd => (cond, [rd])
  | .mrcFsr _ _ => (14#4, [])
  | .mcrFsr cond rd => (cond, [rd])
  | .mrcFar _ _ => (14#4, [])
  | .mcrFar cond rd => (cond, [rd])
  | .mcrInvIDCacheBtb _ _ => (14#4, [])
  | .mcrInvICacheBtb _ _ => (14#4, [])
  | .mcrInvICacheLine cond rd => (cond, [rd])
  | .mcrInvDCache _ _ => (14#4, [])
  | .mcrInvDCacheLine cond rd => (cond, [rd])
  | .mcrCleanDCacheLine cond rd => (cond, [rd])
  | .mcrDrainWriteBuffer _ _ => (14#4, [])
  | .mcrInvBtb _ _ => (14#4, [])
  | .mcrAllocateDLine cond rd => (cond, [rd])
  | .mcrInvIDTlb _ _ => (14#4, [])
  | .mcrInvITlb _ _ => (14#4, [])
  | .mcrInvITlbEntry cond rd => (cond, [rd])
  | .mcrInvDTlb _ _ => (14#4, [])
  | .mcrInvDTlbEntry cond rd => (cond, [rd])
  | .mcrLockILine cond rd => (cond, [rd])
  | .mcrUnlockICache _ _ => (14#4, [])
  | .mrcDCacheLock _ _ => (14#4, [])
  | .mcrDCacheLock cond rd => (cond, [rd])
  | .mcrUnlockDCache _ _ => (14#4, [])
  | .mcrLockITlbEntry cond rd => (cond, [rd])
  | .mcrLockDTlbEntry cond rd => (cond, [rd])
  | .mcrUnlockITlb _ _ => (14#4, [])
  | .mcrUnlockDTlb _ _ => (14#4, [])
  | .mrcPid _ _ => (14#4, [])
  | .mcrPid cond rd => (cond, [rd])
  | .mrcIbcr0 _ _ => (14#4, [])
  | .mcrIbcr0 cond rd => (cond, [rd])
  | .mrcIbcr1 _ _ => (14#4, [])
  | .mcrIbcr1 cond rd => (cond, [rd])
  | .mrcDbr0 _ _ => (14#4, [])
  | .mcrDbr0 cond rd => (cond, [rd])
  | .mrcDbr1 _ _ => (14#4, [])
  | .mcrDbr1 cond rd => (cond, [rd])
  | .mrcDbcon _ _ => (14#4, [])
  | .mcrDbcon cond rd => (cond, [rd])
  | .mrcCpar _ _ => (14#4, [])
  | .mcrCpar cond rd => (cond, [rd])
  | .mrcPmnc _ _ => (14#4, [])
  | .mcrPmnc cond rd => (cond, [rd])
  | .mrcCcnt _ _ => (14#4, [])
  | .mcrCcnt cond rd => (cond, [rd])
  | .mrcPmn0 _ _ => (14#4, [])
  | .mcrPmn0 cond rd => (cond, [rd])
  | .mrcPmn1 _ _ => (14#4, [])
  | .mcrPmn1 cond rd => (cond, [rd])
  | .mrcCclkcfg _ _ => (14#4, [])
  | .mcrCclkcfg cond rd => (cond, [rd])
  | .mrcPwrmode _ _ => (14#4, [])
  | .mcrPwrmode cond rd => (cond, [rd])
  | .mrcTx _ _ => (14#4, [])
  | .mcrTx cond rd => (cond, [rd])
  | .mrcRx _ _ => (14#4, [])
  | .mcrRx _ _ => (14#4, [])
  | .mrcDcsr _ _ => (14#4, [])
  | .mcrDcsr cond rd => (cond, [rd])
  | .mrcTbreg _ _ => (14#4, [])
  | .mcrTbreg cond rd => (cond, [rd])
  | .mrcChkpt0 _ _ => (14#4, [])
  | .mcrChkpt0 cond rd => (cond, [rd])
  | .mrcChkpt1 _ _ => (14#4, [])
  | .mcrChkpt1 cond rd => (cond, [rd])
  | .mrcTxrxctrl _ _ => (14#4, [])
  | .mcrTxrxctrl cond rd => (cond, [rd])
  | .tLsl1 _ _ _ => (14#4, [])
  | .tLsr1 _ _ _ => (14#4, [])
  | .tAsr1 _ _ _ => (14#4, [])
  | .tAdd3 _ _ _ => (14#4, [])
  | .tSub3 _ _ _ => (14#4, [])
  | .tAdd1 _ _ _ => (14#4, [])
  | .tSub1 _ _ _ => (14#4, [])
  | .tMov1 _ _ => (14#4, [])
  | .tCmp1 _ _ => (14#4, [])
  | .tAdd2 _ _ => (14#4, [])
  | .tSub2 _ _ => (14#4, [])
  | .tAnd _ _ => (14#4, [])
  | .tEor _ _ => (14#4, [])
  | .tLsl2 _ _ => (14#4, [])
  | .tLsr2 _ _ => (14#4, [])
  | .tAsr2 _ _ => (14#4, [])
  | .tAdc _ _ => (14#4, [])
  | .tSbc _ _ => (14#4, [])
  | .tRor _ _ => (14#4, [])
  | .tTst _ _ => (14#4, [])
  | .tNeg _ _ => (14#4, [])
  | .tCmp2 _ _ => (14#4, [])
  | .tCmn _ _ => (14#4, [])
  | .tOrr _ _ => (14#4, [])
  | .tMul _ _ => (14#4, [])
  | .tBic _ _ => (14#4, [])
  | .tMvn _ _ => (14#4, [])
  | .tAdd4 _ _ _ _ => (14#4, [])
  | .tCmp3 _ _ _ _ => (14#4, [])
  | .tMov3 _ _ _ _ => (14#4, [])
  | .tBx _ _ => (14#4, [])
  | .tBlx2 _ _ => (14#4, [])
  | .tLdr3 _ _ => (14#4, [])
  | .tStr2 _ _ _ => (14#4, [])
  | .tStrh2 _ _ _ => (14#4, [])
  | .tStrb2 _ _ _ => (14#4, [])
  | .tLdrsb _ _ _ => (14#4, [])
  | .tLdr2 _ _ _ => (14#4, [])
  | .tLdrh2 _ _ _ => (14#4, [])
  | .tLdrb2 _ _ _ => (14#4, [])
  | .tLdrsh _ _ _ => (14#4, [])
  | .tStr1 _ _ _ => (14#4, [])
  | .tLdr1 _ _ _ => (14#4, [])
  | .tStrb1 _ _ _ => (14#4, [])
  | .tLdrb1 _ _ _ => (14#4, [])
  | .tStrh1 _ _ _ => (14#4, [])
  | .tLdrh1 _ _ _ => (14#4, [])
  | .tStr3 _ _ => (14#4, [])
  | .tLdr4 _ _ => (14#4, [])
  | .tAdd5 _ _ => (14#4, [])
  | .tAdd6 _ _ => (14#4, [])
  | .tAdd7 _ => (14#4, [])
  | .tSub4 _ => (14#4, [])
  | .tPush _ _ => (14#4, [])
  | .tPop _ _ => (14#4, [])
  | .tBkpt _ => (14#4, [])
  | .tUndefB1 _ => (14#4, [])
  | .tUndefB2 _ => (14#4, [])
  | .tUndefB3 _ => (14#4, [])
  | .tUndefB6 _ => (14#4, [])
  | .tUndefB7 _ => (14#4, [])
  | .tUndefB8 _ => (14#4, [])
  | .tUndefBF _ => (14#4, [])
  | .tStmia _ _ => (14#4, [])
  | .tLdmia _ _ => (14#4, [])
  | .tB1Low _ _ => (14#4, [])
  | .tB1Mid _ _ => (14#4, [])
  | .tB1High _ _ => (14#4, [])
  | .tUndefDE _ => (14#4, [])
  | .tSwi _ => (14#4, [])
  | .tB2 _ => (14#4, [])
  | .tBlxSuffix _ => (14#4, [])
  | .tUndefE801 _ => (14#4, [])
  | .tBlPrefix _ => (14#4, [])
  | .tBlSuffix _ => (14#4, [])

/-- A register of the current mode that other modes have another copy of (10_state.md R21). -/
def State.banked (s : State) (r : RegNum) : Bool :=
  r == 13#4 || r == 14#4 || (s.mode == .fiq && r.toNat ≥ 8 && r.toNat < 13)

/-- The instruction would read a banked register right after a LDM of user registers. -/
def State.readsBanked (s : State) (i : Instr) : Bool :=
  s.bankHazard && s.passes (instrReads i).1 && (instrReads i).2.any s.banked

end Sys2Proof.Machine
end

