-- ==== Sys2Proof/Machine/Step.lean ====
section
/-!
DEFINITION. One step: an outside event, or an exception entry at the boundary, or one instruction
(spec/00_scope.md R18; spec/60_exceptions.md R863, R864; spec/70_reset_and_hazards.md R940).
-/

namespace Sys2Proof.Machine

/-- The instruction at the PC, fetched and decoded, and its meaning (20_memory.md R153; 10_state.md R27). -/
def runFetched (s : State) : Host.Outcome State Fault Refusal :=
  match fetch s with
  | .error t s1 => endEntry s (fetchFailed t s1)
  | .ok w s1 =>
    match s1.decodeFetched w with
    | .reject r =>
      if s1.btbStale none then .fault .staleBtb
      else endInstr s (rejectWord { s1 with bankHazard := false } w r)
    | .instr i =>
      if s1.btbStale (some i) then .fault .staleBtb
      else if s1.readsBanked i then .refused .bankedRead
      else endInstr s (exec i { s1 with bankHazard := false })

/-- A step of the running core: a boundary event, an instruction breakpoint, or an instruction
(48_debug_jtag.md R775, R792). -/
def runCore (s0 : State) : Host.Outcome State Fault Refusal :=
  match boundary s0.beginStep with
  | (s, true) => endEntry s0 (.next s)
  | (s, false) =>
    if s.breakpointArmed && !s.debugOn && !s.dbgUnit.sds then .fault .breakpointWithoutGe
    else if s.breakpointHit then endEntry s0 (.next (s.debugEntry 0b001#3 (s.pc + 4#32)))
    else runFetched s

/-- The core's turn: nothing while it is held in reset, asleep or idle, else a step of the core
(60_exceptions.md R910). -/
def coreTurn (s : State) : Host.Outcome State Fault Refusal :=
  if s.inReset then .next s
  else
    match s.power with
    | .sleep => .next s
    | .idle => if s.wakeOnLines && (s.irqLevel || s.fiqLevel) then .next { s with power := .active } else .next s
    | .active => runCore s

/-- The turn now taken is over. -/
def State.takeTurn (s : State) : State := { s with schedule := s.schedule.tail }

/-- One step: the turn that the schedule names (00_scope.md R18; 48_debug_jtag.md R848). -/
def step (s : State) : Host.Outcome State Fault Refusal :=
  match s.schedule with
  | .outside op :: _ => outsideEvent op s.takeTurn
  | .core :: _ => coreTurn s.takeTurn
  | [] => coreTurn s

/-- Where the fetch of the next instruction reads memory: the physical address of the PC (20_memory.md R153). -/
def State.fetchAddress (s : State) : Word :=
  match fetchPlace s with
  | .ok (_, pa, _) _ => pa
  | .error _ _ => s.pc

/-- The state with an instruction stored where the next fetch reads it (log 34): its bytes in memory and no note that they
are modified, no cached copy of its line, and T as its length says. -/
def State.withFetchWord (s : State) (nbits w : Nat) : State :=
  let thumb := decide (nbits ≤ 16)
  let s1 := (s.invalidateILine (s.fetchMva s.pc)).setThumb thumb
  let n := if thumb then 2 else 4
  { s1 with
    mem := memSetList s1.mem (laneOf s1.bigEndian s.fetchAddress n) 0 (bytesOf (BitVec.ofNat 32 (w % 2 ^ nbits)) n)
    modified := s1.modified.filter fun p => p.1 / 4 != s.fetchAddress.toNat / 4 }

end Sys2Proof.Machine
end

