-- ==== Sys2Proof/Safety.lean ====
section
/-!
DEFINITION. The terms in which statements speak of the machine: what it means that an instruction completes, what it
leaves unchanged, the bytes of data memory as the core's own accesses see them, when a data access is plain, and the
invariants of the machine.
-/

namespace Sys2Proof.Machine

/-! ### Completion and frames -/

/-- The instruction completes: exec answers a next state, and P holds of it. -/
def Completes (i : Instr) (s : State) (P : State → Prop) : Prop := ∃ t, exec i s = .next t ∧ P t

/-- The byte of data at an address on the byte lanes of the bus, as a load of the core that misses the data caches
reads it: the newest buffered byte over memory (20_memory.md R126, R140). -/
def State.dataByte (s : State) (a : Nat) : Byte := s.busByte a

/-- Every physical register is unchanged but those that these numbers name in the mode before the instruction. -/
def RegsKept (rs : List RegNum) (s t : State) : Prop :=
  ∀ i : Fin 32, (∀ r ∈ rs, regIndex s.mode r ≠ i) → t.gpr[i.val] = s.gpr[i.val]

/-- Every byte of memory reads as before. -/
def BytesKept (s t : State) : Prop := ∀ a, t.dataByte a = s.dataByte a

/-- Every other part of the state is unchanged: all but the general registers, the CPSR, the PC and the model's own
notes (scratch, freeCtr, and which bytes of memory a store changed). Caches, TLBs, write buffer, CP15, CP14, SPSRs, acc0 and memory are among what is kept. -/
def RestKept (s t : State) : Prop :=
  { t with
    gpr := s.gpr, cpsr := s.cpsr, pc := s.pc, scratch := s.scratch, freeCtr := s.freeCtr,
    modified := s.modified } = s

/-- What an instruction leaves that stores nothing and writes no general register but these. -/
def Frame (rs : List RegNum) (s t : State) : Prop := RegsKept rs s t ∧ BytesKept s t ∧ RestKept s t

/-- The whole CPSR is unchanged. -/
def FlagsKept (s t : State) : Prop := t.cpsr = s.cpsr

/-- The four flags have these values and the rest of the CPSR is unchanged. -/
def FlagsAre (n z c v : Bool) (s t : State) : Prop :=
  t.flagN = n ∧ t.flagZ = z ∧ t.flagC = c ∧ t.flagV = v ∧ t.cpsr.extractLsb' 0 28 = s.cpsr.extractLsb' 0 28

/-- The PC moves to the next instruction. -/
def Advances (s t : State) : Prop := t.pc = s.pc + s.instrBytes

/-! ### Plain data accesses -/

/-- Data accesses are plain: MMU off, no valid line in the data caches, nothing in the write buffer, every physical
address is memory in its canonical form, no other master writes between words, debugging is disabled and the machine is
not in DEBUG mode (20_memory.md R125, R141). -/
def State.plainData (s : State) : Bool :=
  !s.mmuOn && s.dcache.lines.isEmpty && s.miniDc.lines.isEmpty && s.writeBuffer.isEmpty && s.physMap.isEmpty &&
    s.between.isEmpty && Memory.wf s.mem && !s.debugOn && !s.inDebug

/-- An access of n bytes is neither an alignment fault nor an unpredictable halfword (20_memory.md R131). -/
def State.alignedFor (s : State) (va : Word) (n : Nat) : Bool :=
  !(n == 2 && va.getLsbD 0) && !(n == 4 && s.alignCheck && va.extractLsb' 0 2 != 0#2)

/-- The lanes of an access of n bytes, the least significant byte first: with the MMU off at the MVA, a word at the
aligned address (20_memory.md R124 to R126, R131). -/
def State.lanes (s : State) (va : Word) (n : Nat) : List Nat :=
  (List.range n).map fun i =>
    laneAddr (laneOf s.bigEndian (if n = 4 then s.mva va &&& 0xFFFFFFFC#32 else s.mva va) n) i

/-- The value that n bytes at an address of s hold in memory as it is in t, as an unsigned number. -/
def State.loadedIn (s t : State) (va : Word) (n : Nat) : Word := wordOf ((s.lanes va n).map t.dataByte)

/-- The value that n bytes at an address hold, as an unsigned number. -/
def State.loaded (s : State) (va : Word) (n : Nat) : Word := s.loadedIn s va n

/-- Everything but the general registers, the PC, memory and the model's own notes is unchanged. -/
def RestKeptButMemory (s t : State) : Prop := RestKept s { t with mem := s.mem }

/-- The n bytes at an address hold the low n bytes of a value, every other byte reads as before, and memory keeps its
canonical form. -/
def Stored (va : Word) (n : Nat) (v : Word) (s t : State) : Prop :=
  (∀ i, i < n → t.dataByte ((s.lanes va n).getD i 0) = byteOf v i) ∧
    (∀ a, a ∉ s.lanes va n → t.dataByte a = s.dataByte a) ∧ Memory.wf t.mem = true

/-- Words stored at addresses, each where its value is stated: those words hold the values, every other byte reads as
before, and memory keeps its canonical form. -/
def StoredWords (ws : List (Word × Option Word)) (s t : State) : Prop :=
  (∀ p ∈ ws, ∀ v, p.2 = some v → s.loadedIn t p.1 4 = v) ∧
    (∀ a, (∀ p ∈ ws, a ∉ s.lanes p.1 4) → t.dataByte a = s.dataByte a) ∧ Memory.wf t.mem = true

/-- The base register of an address that is written back holds the write-back value. -/
def BaseIs (rn : RegNum) (ad : Address) (t : State) : Prop := ad.writes = true → t.reg rn = ad.wb

/-- The registers that an addressing form writes back to. -/
def Address.base (ad : Address) (rn : RegNum) : List RegNum := if ad.writes then [rn] else []

/-! ### Control flow -/

/-- A branch to a value whose bit 0 selects the state: T, the rest of the CPSR as it was, the PC
(43_branch_status_system.md R520). -/
def Interworks (v : Word) (s t : State) : Prop :=
  t.thumb = v.getLsbD 0 ∧ t.cpsr &&& 0xFFFFFFDF#32 = s.cpsr &&& 0xFFFFFFDF#32 ∧ t.pc = v &&& 0xFFFFFFFE#32

/-! ### Exceptions -/

/-- What an exception leaves (60_exceptions.md R880): R14 and the SPSR of the mode m, the CPSR, the PC at an offset from
the vector base. Of the rest only CP15's FSR and FAR, the debug unit and the model's own notes may differ. -/
def Entered (m : Mode) (offset link : Word) (setF : Bool) (s t : State) : Prop :=
  t.bankReg m 14#4 = link ∧
    (∀ i : Fin 32, i ≠ regIndex m 14#4 → t.gpr[i.val] = s.gpr[i.val]) ∧
    (∀ i : Fin 6, t.spsr[i.val] = if m.spsrIndex = some i then s.cpsr else s.spsr[i.val]) ∧
    t.mode = m ∧ t.thumb = false ∧ t.maskI = true ∧ t.maskF = (setF || s.maskF) ∧
    t.cpsr.extractLsb' 8 24 = s.cpsr.extractLsb' 8 24 ∧
    t.pc = s.vectorBase + offset ∧
    BytesKept s t ∧
    RestKept s { t with spsr := s.spsr, cp15 := { t.cp15 with fsr := s.cp15.fsr, far := s.cp15.far },
                        dbgUnit := s.dbgUnit }

/-- No debug functionality is enabled, and the machine is not in Special Debug State. -/
def State.noDebug (s : State) : Bool := !s.debugOn && !s.dbgUnit.sds

/-- The first-level descriptor of an address (21_mmu_caches_tlb.md R181). -/
def State.firstLevel (s : State) (mva : Word) : Word :=
  memWord s.mem (s.cp15.ttb.extractLsb' 14 18 ++ mva.extractLsb' 20 12 ++ 0#2)

/-- The address of the second-level descriptor under a first-level one: in a fine table, or in a coarse one
(21_mmu_caches_tlb.md R181, R182). -/
def secondAddress (l1 mva : Word) : Word :=
  if l1.extractLsb' 0 2 = 3#2 then l1.extractLsb' 12 20 ++ mva.extractLsb' 10 10 ++ 0#2
  else l1.extractLsb' 10 22 ++ mva.extractLsb' 12 8 ++ 0#2

/-- The value of a field of the domain access register (10_state.md R55). -/
def State.domainOf (s : State) (domain : BitVec 4) : Nat := (s.cp15.dacr.extractLsb' (2 * domain.toNat) 2).toNat

/-- The permission table's rows that grant an access (21_mmu_caches_tlb.md R192). -/
def State.permitted (s : State) (ap : BitVec 2) (priv write : Bool) : Bool :=
  ap == 3#2 || (ap == 2#2 && (priv || !write)) || (ap == 1#2 && priv) ||
    (ap == 0#2 && !write && ((s.systemProt && !s.romProt && priv) || (!s.systemProt && s.romProt)))

/-- The permission table denies the access; with AP = 00 and both S and R set it says nothing
(21_mmu_caches_tlb.md R192). -/
def State.denied (s : State) (ap : BitVec 2) (priv write : Bool) : Bool :=
  !s.permitted ap priv write && !(ap == 0#2 && s.systemProt && s.romProt)

/-- Domain and permission grant an access (21_mmu_caches_tlb.md R187, R192). -/
def State.granted (s : State) (domain : BitVec 4) (ap : BitVec 2) (priv write : Bool) : Bool :=
  s.domainOf domain == 3 || (s.domainOf domain == 1 && s.permitted ap priv write)

/-- The word at a physical address holds a value, every other byte reads as before, and memory keeps its canonical
form. -/
def WordStoredAt (pa v : Word) (s t : State) : Prop :=
  (∀ i, i < 4 → t.dataByte (pa.toNat + i) = byteOf v i) ∧
    (∀ a, (∀ i, i < 4 → a ≠ pa.toNat + i) → t.dataByte a = s.dataByte a) ∧ Memory.wf t.mem = true

/-! ### Lines of the data caches -/

/-- The two data caches as after reset: no line, and every pointer at its first place (21_mmu_caches_tlb.md R246). -/
def State.emptyDCaches (s : State) : Prop := s.dcache = State.reset.dcache ∧ s.miniDc = State.reset.miniDc

/-- The line of an MVA has come into one of the two data caches from a physical address: clean, and with the 32 bytes
that the bus side held there (21_mmu_caches_tlb.md R244, R245). -/
def Filled (mini : Bool) (mva pa : Word) (s t : State) : Prop :=
  ∃ slot l, t.findDLine mva = some (mini, slot, l) ∧ l.dirtyLo = false ∧ l.dirtyHi = false ∧ l.bad = 0#32 ∧
    l.paLine = pa.extractLsb' 5 27 ∧ ∀ i, i < 32 → l.data[i]? = some (s.dataByte (pa.toNat / 32 * 32 + i))

/-- A locking fill of the main data cache locks the line it brings in (21_mmu_caches_tlb.md R260), other sets and other
fills leave the number of locked lines. -/
def LocksKeptBut (mini : Bool) (mva : Word) (s t : State) : Prop :=
  ∀ set, lockedOf t.dcache.locked set =
    lockedOf s.dcache.locked set + if s.cp15.dcacheLock && !mini && set == setOf mva then 1 else 0

/-- A line after a word was written at an offset of it: the four bytes, and the half that holds them dirty where the
write stays in the cache (21_mmu_caches_tlb.md R240, R251). -/
def Rewritten (l : DLine) (off : Nat) (v : Word) (stays : Bool) (l' : DLine) : Prop :=
  (∀ i, l'.data[i]? = if off ≤ i ∧ i < off + 4 then some (byteOf v (i - off)) else l.data[i]?) ∧
    l'.dirtyLo = (l.dirtyLo || (stays && decide (off < 16))) ∧ l'.dirtyHi = (l.dirtyHi || (stays && decide (16 ≤ off))) ∧
    l'.bad = 0#32 ∧ l'.tag = l.tag ∧ l'.paLine = l.paLine

/-! ### A quiet step -/

/-- The next step is the core's (00_scope.md R18). -/
def State.coresTurn (s : State) : Bool :=
  match s.schedule with
  | [] => true
  | .core :: _ => true
  | .outside _ :: _ => false

/-- Nothing but the instruction at the PC happens in the next step: it is the core's turn, no reset, ACTIVE power mode, no
pending event, no breakpoint, no BTB, PMU and trace buffer off, no hazard (60_exceptions.md R863). -/
def State.quiet (s : State) : Bool :=
  s.coresTurn && s.asyncWait.isNone && !s.dbgUnit.extHeld && !s.inReset && s.power == .active && !s.dbgUnit.resetTrap && s.pendingAbort.isNone &&
    s.noDebug && (s.maskF || !s.fiqLevel) && (s.maskI || !s.irqLevel) && !s.breakpointArmed && !s.btbOn &&
    !s.bankHazard && !s.pmu.pmnc.getLsbD 0 && s.writeBuffer.isEmpty

/-- The fetch reads memory: MMU and instruction cache off, nothing cached, every physical address is memory, nothing there
was modified (20_memory.md R147, R153). -/
def State.plainFetch (s : State) : Bool :=
  !s.mmuOn && !s.icacheOn && s.icache.lines.isEmpty && s.miniIc.lines.isEmpty && s.fetchBuffers.isEmpty &&
    s.physMap.isEmpty && !s.isModified (s.mva s.pc)

/-- The word of memory that a plain fetch reads. -/
def State.fetchedWord (s : State) : Word := memWord s.mem (s.mva s.pc &&& 0xFFFFFFFC#32)

/-! ### Invariants -/

/-- Memory is in canonical form, and the write buffer has at most its eight entries (20_memory.md R120, R142). -/
def State.memoryInv (s : State) : Prop := Memory.wf s.mem = true ∧ s.writeBuffer.length ≤ 8

/-- The CPSR names one of the eight modes, and the PC is aligned for the state the CPSR selects
(10_state.md R21, R23, R27). -/
def State.modeInv (s : State) : Prop :=
  (modeOf (s.cpsr.extractLsb' 0 5)).isSome = true ∧
    if s.thumb then s.pc.getLsbD 0 = false else s.pc.extractLsb' 0 2 = 0#2

/-- The bits of the CP15 registers that are fixed: Control[6:3] read as one, reserved bits as zero
(10_state.md R52 to R54, R56, R62, R65, R66). -/
def State.fixedBitsInv (s : State) : Prop :=
  s.cp15.control &&& 0xFFFFC478#32 = 0x78#32 ∧ s.cp15.auxControl &&& 0xFFFFFFCE#32 = 0#32 ∧
    s.cp15.ttb &&& 0x3FFF#32 = 0#32 ∧ s.cp15.fsr &&& 0xFFFFF900#32 = 0#32 ∧ s.cp15.pid &&& 0x01FFFFFF#32 = 0#32 ∧
    s.cp15.dbcon &&& 0xFFFFFEF0#32 = 0#32 ∧ s.cp15.cpar &&& 0xFFFFC000#32 = 0#32

end Sys2Proof.Machine
end

