-- ==== Sys2Proof/Certificates/Slice0/Obligations.lean ====
section
/-!
DEFINITION. The statements for the provers. Their vocabulary (Completes, Frame, FlagsAre, plainData, Entered, ...) is in
Sys2Proof/Safety.lean.
-/

open Sys2Proof Sys2Proof.Machine

/-! ### Data processing -/

/-- ADD, ADC, SUB, SBC, RSB and RSC into R0 to R14 (40_data_processing.md R350, R351, R362 to R367): the wrapped result;
with S the flags, C of a subtraction being "no borrow" and V that the signed result does not fit; nothing else. -/
def Obligations.ArithmeticResult : Prop :=
  ∀ (s : State) (cond : BitVec 4) (sf : Bool) (rn rd : RegNum) (op2 : Op2),
    s.passes cond = true → op2Allowed op2 rn rd = true → rd ≠ 15#4 →
    let x := s.reg rn
    let y := (s.operand2 op2).value
    let c := bit s.flagC
    let b := 1 - c
    let gives (i : Instr) (r : Word) (carry : Bool) (exact : Int) : Prop :=
      Completes i s fun t => t.reg rd = r ∧ Advances s t ∧ Frame [rd] s t ∧
        if sf then FlagsAre r.msb (decide (r = 0#32)) carry (decide (r.toInt ≠ exact)) s t else FlagsKept s t
    gives (.add cond sf rn rd op2) (x + y) (decide (2 ^ 32 ≤ x.toNat + y.toNat)) (x.toInt + y.toInt) ∧
    gives (.adc cond sf rn rd op2) (x + y + BitVec.ofNat 32 c) (decide (2 ^ 32 ≤ x.toNat + y.toNat + c))
      (x.toInt + y.toInt + c) ∧
    gives (.sub cond sf rn rd op2) (x - y) (decide (y.toNat ≤ x.toNat)) (x.toInt - y.toInt) ∧
    gives (.sbc cond sf rn rd op2) (x - y - BitVec.ofNat 32 b) (decide (y.toNat + b ≤ x.toNat))
      (x.toInt - y.toInt - b) ∧
    gives (.rsb cond sf rn rd op2) (y - x) (decide (x.toNat ≤ y.toNat)) (y.toInt - x.toInt) ∧
    gives (.rsc cond sf rn rd op2) (y - x - BitVec.ofNat 32 b) (decide (x.toNat + b ≤ y.toNat))
      (y.toInt - x.toInt - b)

/-- AND, EOR, ORR, BIC, MOV and MVN into R0 to R14 (40_data_processing.md R350, R351, R360, R361, R372 to R375): the
result; with S, N and Z from it, C from the shifter, V kept; nothing else. -/
def Obligations.LogicalResult : Prop :=
  ∀ (s : State) (cond : BitVec 4) (sf : Bool) (rn rd : RegNum) (op2 : Op2),
    s.passes cond = true → op2Allowed op2 rn rd = true → rd ≠ 15#4 →
    let x := s.reg rn
    let y := (s.operand2 op2).value
    let gives (i : Instr) (r : Word) : Prop :=
      Completes i s fun t => t.reg rd = r ∧ Advances s t ∧ Frame [rd] s t ∧
        if sf then FlagsAre r.msb (decide (r = 0#32)) (s.operand2 op2).carry s.flagV s t else FlagsKept s t
    gives (.and cond sf rn rd op2) (x &&& y) ∧
    gives (.eor cond sf rn rd op2) (x ^^^ y) ∧
    gives (.orr cond sf rn rd op2) (x ||| y) ∧
    gives (.bic cond sf rn rd op2) (x &&& ~~~y) ∧
    gives (.mov cond sf rd op2) y ∧
    gives (.mvn cond sf rd op2) (~~~y)

/-- TST, TEQ, CMP and CMN (40_data_processing.md R350, R351, R368 to R371) write the flags and nothing else. -/
def Obligations.Comparisons : Prop :=
  ∀ (s : State) (cond : BitVec 4) (rn : RegNum) (op2 : Op2),
    s.passes cond = true → op2Allowed op2 rn 0#4 = true →
    let x := s.reg rn
    let y := (s.operand2 op2).value
    let sets (i : Instr) (r : Word) (carry overflow : Bool) : Prop :=
      Completes i s fun t => Advances s t ∧ Frame [] s t ∧
        FlagsAre r.msb (decide (r = 0#32)) carry overflow s t
    sets (.tst cond rn op2) (x &&& y) (s.operand2 op2).carry s.flagV ∧
    sets (.teq cond rn op2) (x ^^^ y) (s.operand2 op2).carry s.flagV ∧
    sets (.cmp cond rn op2) (x - y) (decide (y.toNat ≤ x.toNat)) (decide ((x - y).toInt ≠ x.toInt - y.toInt)) ∧
    sets (.cmn cond rn op2) (x + y) (decide (2 ^ 32 ≤ x.toNat + y.toNat))
      (decide ((x + y).toInt ≠ x.toInt + y.toInt))

/-- The shifter operand, bit by bit (30_encoding.md R287 to R291): where each bit of the value comes from, and the carry
out, which is C where nothing is shifted and else the last bit shifted out. -/
def Obligations.ShifterOperand : Prop :=
  ∀ (s : State) (rs rm : RegNum) (amt : BitVec 5) (rot : BitVec 4) (imm8 : BitVec 8),
    let x := s.reg rm
    let n := ((s.reg rs).extractLsb' 0 8).toNat
    let lslIs (o : Shifted) (n : Nat) : Prop :=
      (∀ i, i < 32 → o.value.getLsbD i = (decide (n ≤ i) && x.getLsbD (i - n))) ∧
        o.carry = if n = 0 then s.flagC else decide (n ≤ 32) && x.getLsbD (32 - n)
    let lsrIs (o : Shifted) (n : Nat) : Prop :=
      (∀ i, i < 32 → o.value.getLsbD i = x.getLsbD (i + n)) ∧
        o.carry = if n = 0 then s.flagC else x.getLsbD (n - 1)
    let asrIs (o : Shifted) (n : Nat) : Prop :=
      (∀ i, i < 32 → o.value.getLsbD i = x.getLsbD (min (i + n) 31)) ∧
        o.carry = if n = 0 then s.flagC else x.getLsbD (min (n - 1) 31)
    let rorIs (o : Shifted) (x : Word) (n : Nat) : Prop :=
      (∀ i, i < 32 → o.value.getLsbD i = x.getLsbD ((i + n) % 32)) ∧
        o.carry = if n = 0 then s.flagC else x.getLsbD ((n - 1) % 32)
    let right := if amt = 0#5 then 32 else amt.toNat
    lslIs (s.operand2 (.reg rs 0#2 rm)) n ∧ lsrIs (s.operand2 (.reg rs 1#2 rm)) n ∧
    asrIs (s.operand2 (.reg rs 2#2 rm)) n ∧ rorIs (s.operand2 (.reg rs 3#2 rm)) x n ∧
    lslIs (s.operand2 (.shift amt 0#2 rm)) amt.toNat ∧ lsrIs (s.operand2 (.shift amt 1#2 rm)) right ∧
    asrIs (s.operand2 (.shift amt 2#2 rm)) right ∧
    (if amt = 0#5 then
      (s.operand2 (.shift amt 3#2 rm)).carry = x.getLsbD 0 ∧
        ∀ i, i < 32 → (s.operand2 (.shift amt 3#2 rm)).value.getLsbD i = if i = 31 then s.flagC else x.getLsbD (i + 1)
    else rorIs (s.operand2 (.shift amt 3#2 rm)) x amt.toNat) ∧
    rorIs (s.operand2 (.imm rot imm8)) (imm8.zeroExtend 32) (2 * rot.toNat)

/-- A data-processing result into R15 (40_data_processing.md R352): without S a branch in ARM state; with S the CPSR is
replaced by the SPSR first, and the new T bit selects the alignment of the PC; a result that is not aligned, and an SPSR
that does not exist or holds no mode, have no meaning. -/
def Obligations.ResultToPc : Prop :=
  ∀ (s : State) (cond : BitVec 4) (rn : RegNum) (op2 : Op2) (w : Word),
    s.passes cond = true → op2Allowed op2 rn 15#4 = true →
    let x := s.reg rn
    let y := (s.operand2 op2).value
    let c := BitVec.ofNat 32 (bit s.flagC)
    let results (sf : Bool) : List (Instr × Word) :=
      [(.and cond sf rn 15#4 op2, x &&& y), (.eor cond sf rn 15#4 op2, x ^^^ y), (.sub cond sf rn 15#4 op2, x - y),
       (.rsb cond sf rn 15#4 op2, y - x), (.add cond sf rn 15#4 op2, x + y), (.adc cond sf rn 15#4 op2, x + y + c),
       (.sbc cond sf rn 15#4 op2, x + ~~~y + c), (.rsc cond sf rn 15#4 op2, ~~~x + y + c),
       (.orr cond sf rn 15#4 op2, x ||| y), (.mov cond sf 15#4 op2, y), (.bic cond sf rn 15#4 op2, x &&& ~~~y),
       (.mvn cond sf 15#4 op2, ~~~y)]
    (∀ p ∈ results false, p.2.extractLsb' 0 2 = 0#2 →
      Completes p.1 s fun t => t.pc = p.2 ∧ FlagsKept s t ∧ Frame [] s t) ∧
    (s.spsrOf = some w → (modeOf (w.extractLsb' 0 5)).isSome = true →
      ∀ p ∈ results true, p.2.extractLsb' 0 2 = 0#2 ∨ w.getLsbD 5 = true →
        Completes p.1 s fun t =>
          t.cpsr = w ∧ t.pc = (if w.getLsbD 5 then p.2 &&& 0xFFFFFFFE#32 else p.2) ∧ t.dbgUnit.sds = false ∧
            Frame [] s { t with dbgUnit := s.dbgUnit }) ∧
    (∀ p ∈ results false, p.2.extractLsb' 0 2 ≠ 0#2 → exec p.1 s = .refused .unalignedTarget) ∧
    (s.spsrOf = none → ∀ p ∈ results true, exec p.1 s = .refused .noSpsr) ∧
    (s.spsrOf = some w → (modeOf (w.extractLsb' 0 5)).isSome = false →
      ∀ p ∈ results true, exec p.1 s = .refused .illegalMode) ∧
    (s.spsrOf = some w → (modeOf (w.extractLsb' 0 5)).isSome = true → w.getLsbD 5 = false →
      ∀ p ∈ results true, p.2.extractLsb' 0 2 ≠ 0#2 → exec p.1 s = .refused .unalignedTarget)

/-- CLZ (40_data_processing.md R380): 32 for zero, else 31 minus the index of the most significant 1 bit; no flags; R15
has no meaning. -/
def Obligations.CountLeadingZeros : Prop :=
  ∀ (s : State) (cond : BitVec 4) (rd rm : RegNum), s.passes cond = true →
    (rd ≠ 15#4 → rm ≠ 15#4 →
      Completes (.clz cond rd rm) s fun t =>
        (if s.reg rm = 0#32 then t.reg rd = 32#32
         else (t.reg rd).toNat < 32 ∧ (s.reg rm).getLsbD (31 - (t.reg rd).toNat) = true ∧
           ∀ j, j < (t.reg rd).toNat → (s.reg rm).getLsbD (31 - j) = false) ∧
        Advances s t ∧ Frame [rd] s t ∧ FlagsKept s t) ∧
    (rd = 15#4 ∨ rm = 15#4 → exec (.clz cond rd rm) s = .refused .r15Operand)

/-! ### Conditional execution -/

/-- The condition codes on the flags, and what an instruction whose condition fails does (30_encoding.md R281 to R283):
nothing except advance the PC; a B or BL that is not taken trains the branch target
buffer (21_mmu_caches_tlb.md R273). -/
def Obligations.ConditionFails : Prop :=
  (∀ (s : State) (c : BitVec 4), c ≠ 15#4 →
    let n := s.flagN
    let z := s.flagZ
    let k := s.flagC
    let v := s.flagV
    s.passes c = [z, !z, k, !k, n, !n, v, !v, k && !z, !k || z, n == v, n != v, !z && (n == v), z || (n != v),
      true].getD c.toNat true) ∧
  ∀ (s : State) (i : Instr) (c : BitVec 4), i.cond? = some c → s.passes c = false →
    Completes i s fun t => Advances s t ∧ FlagsKept s t ∧ Frame [] s { t with btb := s.btb } ∧
      (t.btb = s.btb ∨ ∃ c imm, i = .b c imm ∨ i = .bl c imm)

/-! ### Multiplies and saturating arithmetic -/

/-- MUL and MLA (41_multiply_dsp.md R400, R401, R405, R406): with S, N and Z; C and V kept. That Rd may be Rm is the
model's choice (R401's decision D20; log 28). -/
def Obligations.Multiply : Prop :=
  ∀ (s : State) (cond : BitVec 4) (sf : Bool) (rd rn rs rm : RegNum),
    s.passes cond = true → rd ≠ 15#4 → rs ≠ 15#4 → rm ≠ 15#4 →
    let gives (i : Instr) (r : Word) : Prop :=
      Completes i s fun t => t.reg rd = r ∧ Advances s t ∧ Frame [rd] s t ∧
        if sf then FlagsAre r.msb (decide (r = 0#32)) s.flagC s.flagV s t else FlagsKept s t
    gives (.mul cond sf rd rs rm) (s.reg rm * s.reg rs) ∧
    (rn ≠ 15#4 → gives (.mla cond sf rd rn rs rm) (s.reg rm * s.reg rs + s.reg rn))

/-- UMULL, UMLAL, SMULL, SMLAL and SMLALxy (41_multiply_dsp.md R400, R407 to R410, R419): the 64-bit product or sum in
RdHi : RdLo; with S, N and Z from the 64 bits. That RdHi or RdLo may be Rm is the model's choice (R401's decision D20;
log 28). -/
def Obligations.LongMultiply : Prop :=
  ∀ (s : State) (cond : BitVec 4) (sf y x : Bool) (rdHi rdLo rs rm : RegNum),
    s.passes cond = true → rdHi ≠ 15#4 → rdLo ≠ 15#4 → rs ≠ 15#4 → rm ≠ 15#4 → rdHi ≠ rdLo →
    let acc : BitVec 64 := s.reg rdHi ++ s.reg rdLo
    let unsigned : BitVec 64 := (s.reg rm).zeroExtend 64 * (s.reg rs).zeroExtend 64
    let signed : BitVec 64 := (s.reg rm).signExtend 64 * (s.reg rs).signExtend 64
    let half (w : Word) (top : Bool) : BitVec 64 := ((w >>> (if top then 16 else 0)).truncate 16).signExtend 64
    let gives (i : Instr) (sf : Bool) (p : BitVec 64) : Prop :=
      Completes i s fun t => (t.reg rdHi ++ t.reg rdLo : BitVec 64) = p ∧ Advances s t ∧ Frame [rdHi, rdLo] s t ∧
        if sf then FlagsAre p.msb (decide (p = 0#64)) s.flagC s.flagV s t else FlagsKept s t
    gives (.umull cond sf rdHi rdLo rs rm) sf unsigned ∧
    gives (.umlal cond sf rdHi rdLo rs rm) sf (unsigned + acc) ∧
    gives (.smull cond sf rdHi rdLo rs rm) sf signed ∧
    gives (.smlal cond sf rdHi rdLo rs rm) sf (signed + acc) ∧
    gives (.smlalXY cond rdHi rdLo rs y x rm) false (half (s.reg rm) x * half (s.reg rs) y + acc)

/-- SMULxy, SMULWy, SMLAxy and SMLAWy (41_multiply_dsp.md R415 to R418): products of signed halves, the top 32 of 48
bits for W; the accumulating forms wrap and set Q where the sum does not fit; N, Z, C and V are kept. -/
def Obligations.HalfwordMultiply : Prop :=
  ∀ (s : State) (cond : BitVec 4) (y x : Bool) (rd rn rs rm : RegNum),
    s.passes cond = true → rd ≠ 15#4 → rs ≠ 15#4 → rm ≠ 15#4 →
    let half (w : Word) (top : Bool) : Int := ((w >>> (if top then 16 else 0)).truncate 16).toInt
    let product : Int := half (s.reg rm) x * half (s.reg rs) y
    let wide : Int := ((s.reg rm).toInt * half (s.reg rs) y) / 2 ^ 16
    (Completes (.smulXY cond rd rs y x rm) s fun t =>
      (t.reg rd).toInt = product ∧ Advances s t ∧ Frame [rd] s t ∧ FlagsKept s t) ∧
    (Completes (.smulWY cond rd rs y rm) s fun t =>
      (t.reg rd).toInt = wide ∧ Advances s t ∧ Frame [rd] s t ∧ FlagsKept s t) ∧
    (rn ≠ 15#4 →
      let sums (i : Instr) (p : Int) : Prop :=
        Completes i s fun t =>
          t.reg rd = BitVec.ofInt 32 (p + (s.reg rn).toInt) ∧ Advances s t ∧ Frame [rd] s t ∧
          t.cpsr = if p + (s.reg rn).toInt < -2 ^ 31 ∨ 2 ^ 31 ≤ p + (s.reg rn).toInt then s.cpsr ||| 0x08000000#32
                   else s.cpsr
      sums (.smlaXY cond rd rn rs y x rm) product ∧ sums (.smlaWY cond rd rn rs y rm) wide)

/-- QADD, QSUB, QDADD and QDSUB (41_multiply_dsp.md R425 to R429): results clamped to 32 signed bits; Q is set where a
value was clamped, and never cleared; N, Z, C and V are kept. -/
def Obligations.SaturatingArithmetic : Prop :=
  ∀ (s : State) (cond : BitVec 4) (rn rd rm : RegNum),
    s.passes cond = true → rn ≠ 15#4 → rd ≠ 15#4 → rm ≠ 15#4 →
    let clamp (v : Int) : Int := max (-2 ^ 31) (min (2 ^ 31 - 1) v)
    let m := (s.reg rm).toInt
    let n := (s.reg rn).toInt
    let gives (i : Instr) (v : Int) (before : Prop) : Prop :=
      Completes i s fun t =>
        (t.reg rd).toInt = clamp v ∧ Advances s t ∧ Frame [rd] s t ∧
          (before ∨ clamp v ≠ v → t.cpsr = s.cpsr ||| 0x08000000#32) ∧ (¬ (before ∨ clamp v ≠ v) → FlagsKept s t)
    gives (.qadd cond rn rd rm) (m + n) False ∧
    gives (.qsub cond rn rd rm) (m - n) False ∧
    gives (.qdadd cond rn rd rm) (m + clamp (2 * n)) (clamp (2 * n) ≠ 2 * n) ∧
    gives (.qdsub cond rn rd rm) (m - clamp (2 * n)) (clamp (2 * n) ≠ 2 * n)

/-! ### Loads and stores -/

/-- The loads of one register (42_load_store.md R440, R444, R446, R452, R453, R460, R462, R463; 20_memory.md R131): LDR
into R0 to R14, LDRB, LDRT, LDRBT, LDRH, LDRSB and LDRSH: the word, rotated if the address is unaligned, the byte or the
halfword, zero-extended or sign-extended; then the write-back; nothing else. -/
def Obligations.LoadRegister : Prop :=
  ∀ (s : State) (cond : BitVec 4) (p u w : Bool) (rn rd : RegNum) (am : Mode2) (off : Offset2) (off3 : Offset3),
    s.plainData = true → s.passes cond = true → rd ≠ 15#4 →
    let loads (i : Instr) (ad : Address) (n : Nat) (v : Word) : Prop :=
      s.alignedFor ad.at_ n = true →
      Completes i s fun t => t.reg rd = v ∧ BaseIs rn ad t ∧ Advances s t ∧ FlagsKept s t ∧
        Frame (rd :: ad.base rn) s t
    let word (a : Word) : Word := (s.loaded a 4).rotateRight (8 * (a.toNat % 4))
    let ad := s.mode2 rn am
    let adT := s.userMode2 rn off
    let ad3 := s.mode3 p u w rn off3
    (transferRefusal rn rd (mode2Rm am) (mode2Writes am) = none →
      loads (.ldr cond rn rd am) ad 4 (word ad.at_) ∧ loads (.ldrb cond rn rd am) ad 1 (s.loaded ad.at_ 1)) ∧
    (transferRefusal rn rd (offset2Rm off) true = none →
      loads (.ldrt cond rn rd off) adT 4 (word adT.at_) ∧ loads (.ldrbt cond rn rd off) adT 1 (s.loaded adT.at_ 1)) ∧
    (mode3Refusal p w rn rd off3 = none →
      loads (.ldrh cond p u w rn rd off3) ad3 2 (((s.loaded ad3.at_ 2).truncate 16).zeroExtend 32) ∧
      loads (.ldrsb cond p u w rn rd off3) ad3 1 (((s.loaded ad3.at_ 1).truncate 8).signExtend 32) ∧
      loads (.ldrsh cond p u w rn rd off3) ad3 2 (((s.loaded ad3.at_ 2).truncate 16).signExtend 32))

/-- STR, STRB, STRH, STRT and STRBT (42_load_store.md R440, R445, R447, R454, R455, R461): the low bytes of Rd go to
memory, a word to the aligned address; then the write-back; nothing else, and no other byte. That STR of R15 stores the
instruction's address plus 8 is the model's choice (R445's decision D17; log 26). -/
def Obligations.StoreSingle : Prop :=
  ∀ (s : State) (cond : BitVec 4) (p u w : Bool) (rn rd : RegNum) (am : Mode2) (off : Offset2) (off3 : Offset3),
    s.plainData = true → s.passes cond = true →
    let stores (i : Instr) (ad : Address) (n : Nat) : Prop :=
      s.alignedFor ad.at_ n = true →
      Completes i s fun t => Stored ad.at_ n (s.reg rd) s t ∧ BaseIs rn ad t ∧ Advances s t ∧ FlagsKept s t ∧
        RegsKept (ad.base rn) s t ∧ RestKeptButMemory s t
    (transferRefusal rn rd (mode2Rm am) (mode2Writes am) = none →
      stores (.str cond rn rd am) (s.mode2 rn am) 4 ∧
      (rd ≠ 15#4 → stores (.strb cond rn rd am) (s.mode2 rn am) 1)) ∧
    (rd ≠ 15#4 → transferRefusal rn rd (offset2Rm off) true = none →
      stores (.strt cond rn rd off) (s.userMode2 rn off) 4 ∧
      stores (.strbt cond rn rd off) (s.userMode2 rn off) 1) ∧
    (mode3Refusal p w rn rd off3 = none → stores (.strh cond p u w rn rd off3) (s.mode3 p u w rn off3) 2)

/-- LDRD and STRD (42_load_store.md R464, R465): Rd at the address and Rd + 1 at the address plus 4; an odd Rd raises
Undefined Instruction (30_encoding.md R303 point 5; 60_exceptions.md R880 to R882). That an address which is not 8-byte
aligned is an alignment fault whatever Control.A says is the model's choice (R464's decision D18; log 27). -/
def Obligations.Doubleword : Prop :=
  ∀ (s : State) (cond : BitVec 4) (p u w : Bool) (rn rd : RegNum) (off : Offset3),
    s.passes cond = true →
    let ad := s.mode3 p u w rn off
    let a := ad.at_
    (rd.getLsbD 0 = true → s.noDebug = true →
      (Completes (.ldrd cond p u w rn rd off) s fun t => Entered .und 4#32 (s.pc + s.instrBytes) false s t) ∧
      (Completes (.strd cond p u w rn rd off) s fun t => Entered .und 4#32 (s.pc + s.instrBytes) false s t)) ∧
    (rd.getLsbD 0 = false → s.noDebug = true → doubleRefusal p w rn rd off = none → a.extractLsb' 0 3 ≠ 0#3 →
      ∀ i ∈ [Instr.ldrd cond p u w rn rd off, .strd cond p u w rn rd off],
        Completes i s fun t => Entered .abt 0x10#32 (s.pc + 8#32) false s t ∧ t.cp15.fsr &&& 0xFFFFFF0D#32 = 1#32 ∧
          t.cp15.far = s.mva a) ∧
    (rd.getLsbD 0 = false → s.plainData = true → doubleRefusal p w rn rd off = none → a.extractLsb' 0 3 = 0#3 →
      (Completes (.ldrd cond p u w rn rd off) s fun t =>
        t.reg rd = s.loaded a 4 ∧ t.reg (rd + 1#4) = s.loaded (a + 4#32) 4 ∧ BaseIs rn ad t ∧ Advances s t ∧
          FlagsKept s t ∧ Frame (rd :: (rd + 1#4) :: ad.base rn) s t) ∧
      (Completes (.strd cond p u w rn rd off) s fun t =>
        StoredWords [(a, some (s.reg rd)), (a + 4#32, some (s.reg (rd + 1#4)))] s t ∧ BaseIs rn ad t ∧ Advances s t ∧
          FlagsKept s t ∧ RegsKept (ad.base rn) s t ∧ RestKeptButMemory s t))

/-- LDM without R15 (42_load_store.md R470, R471; 30_encoding.md R298): the registers of the list, rising, from rising
addresses; with W the base. The form for user registers writes the User-mode registers. -/
def Obligations.LoadMultiple : Prop :=
  ∀ (s : State) (cond : BitVec 4) (p u w : Bool) (rn : RegNum) (list : BitVec 15),
    s.plainData = true → s.passes cond = true → rn ≠ 15#4 → list ≠ 0#15 →
    let regs := listRegs (list.zeroExtend 16)
    let m := mode4 p u (s.reg rn) regs.length
    s.alignedFor m.1 4 = true → m.1.toNat / 4 + regs.length ≤ 2 ^ 30 →
    ((w = true → regs.contains rn = false) →
      Completes (.ldm1 cond p u w rn (list.zeroExtend 16)) s fun t =>
        (∀ j r, regs[j]? = some r → t.reg r = s.loaded (m.1 + BitVec.ofNat 32 (4 * j)) 4) ∧
          (w = true → t.reg rn = m.2) ∧ Advances s t ∧ FlagsKept s t ∧
          Frame (if w then rn :: regs else regs) s t) ∧
    (s.lacksSpsr = false →
      Completes (.ldm2 cond p u false rn list) s fun t =>
        (∀ j r, regs[j]? = some r → t.bankReg .usr r = s.loaded (m.1 + BitVec.ofNat 32 (4 * j)) 4) ∧
          (∀ i : Fin 32, (∀ r ∈ regs, regIndex .usr r ≠ i) → t.gpr[i.val] = s.gpr[i.val]) ∧
          Advances s t ∧ FlagsKept s t ∧ BytesKept s t ∧ t.bankHazard = true ∧
          RestKept s { t with bankHazard := s.bankHazard })

/-- Loads of R15 (42_load_store.md R442, R470, R472; 43_branch_status_system.md R520; 60_exceptions.md R885): LDR from a
word-aligned address and LDM without S take the state from bit 0 of the word, and a word with bits [1:0] = 10 has no
meaning; LDM with S takes the CPSR from the SPSR and loads the registers of the mode left; bit 0 of the new PC is
dropped where the new T is set, and a word that is not aligned has no meaning where it is clear. -/
def Obligations.LoadsOfPc : Prop :=
  ∀ (s : State) (cond : BitVec 4) (p u w : Bool) (rn : RegNum) (am : Mode2) (list : BitVec 15) (status : Word),
    s.plainData = true → s.passes cond = true →
    let ad := s.mode2 rn am
    let x := s.loaded ad.at_ 4
    (transferRefusal rn 15#4 (mode2Rm am) (mode2Writes am) = none → ad.at_.extractLsb' 0 2 = 0#2 →
      (x.extractLsb' 0 2 ≠ 2#2 →
        Completes (.ldr cond rn 15#4 am) s fun t => Interworks x s t ∧ BaseIs rn ad t ∧ Frame (ad.base rn) s t) ∧
      (x.extractLsb' 0 2 = 2#2 → exec (.ldr cond rn 15#4 am) s = .refused .unalignedTarget)) ∧
    (rn ≠ 15#4 →
      let regs := listRegs (list.zeroExtend 16)
      let n := regs.length + 1
      let m := mode4 p u (s.reg rn) n
      let v := s.loaded (m.1 + BitVec.ofNat 32 (4 * regs.length)) 4
      s.alignedFor m.1 4 = true → m.1.toNat / 4 + n ≤ 2 ^ 30 → (w = true → regs.contains rn = false) →
      (v.extractLsb' 0 2 ≠ 2#2 →
        Completes (.ldm1 cond p u w rn (1#1 ++ list)) s fun t =>
          (∀ j r, regs[j]? = some r → t.reg r = s.loaded (m.1 + BitVec.ofNat 32 (4 * j)) 4) ∧
            (w = true → t.reg rn = m.2) ∧ Interworks v s t ∧ Frame (if w then rn :: regs else regs) s t) ∧
      (s.spsrOf = some status → (modeOf (status.extractLsb' 0 5)).isSome = true →
        (status.getLsbD 5 = true ∨ v.extractLsb' 0 2 = 0#2 →
          Completes (.ldm3 cond p u w rn list) s fun t =>
            (∀ j r, regs[j]? = some r → t.bankReg s.mode r = s.loaded (m.1 + BitVec.ofNat 32 (4 * j)) 4) ∧
              (w = true → t.bankReg s.mode rn = m.2) ∧ t.cpsr = status ∧
              t.pc = (if status.getLsbD 5 then v &&& 0xFFFFFFFE#32 else v) ∧
              Frame (if w then rn :: regs else regs) s { t with dbgUnit := s.dbgUnit }) ∧
        (status.getLsbD 5 = false → v.extractLsb' 0 2 ≠ 0#2 →
          exec (.ldm3 cond p u w rn list) s = .refused .unalignedTarget)) ∧
      (v.extractLsb' 0 2 = 2#2 → exec (.ldm1 cond p u w rn (1#1 ++ list)) s = .refused .unalignedTarget) ∧
      (s.spsrOf = none → exec (.ldm3 cond p u w rn list) s = .refused .noSpsr))

/-- STM (42_load_store.md R473; 30_encoding.md R298): the registers, rising, to rising addresses; R15 as the address of
the instruction plus 8, which is the model's choice (R473's decision D17; log 26); with W the base, whose own stored
value is open unless it is the lowest register. The form for user registers stores the User-mode registers. -/
def Obligations.StoreMultiple : Prop :=
  ∀ (s : State) (cond : BitVec 4) (p u w : Bool) (rn : RegNum) (list : BitVec 16),
    s.plainData = true → s.passes cond = true → rn ≠ 15#4 → list ≠ 0#16 →
    let regs := listRegs list
    let m := mode4 p u (s.reg rn) regs.length
    let at_ (j : Nat) : Word := m.1 + BitVec.ofNat 32 (4 * j)
    s.alignedFor m.1 4 = true → m.1.toNat / 4 + regs.length ≤ 2 ^ 30 →
    (∀ j, j < regs.length → s.mva (at_ j) = s.mva m.1 + BitVec.ofNat 32 (4 * j)) →
    (Completes (.stm1 cond p u w rn list) s fun t =>
      StoredWords (regs.mapIdx fun j r =>
          (at_ j, if w && r == rn && decide (j ≠ 0) then none else some (s.reg r))) s t ∧
        (w = true → t.reg rn = m.2) ∧ Advances s t ∧ FlagsKept s t ∧
        RegsKept (if w then [rn] else []) s t ∧ RestKeptButMemory s t) ∧
    (s.lacksSpsr = false →
      Completes (.stm2 cond p u false rn list) s fun t =>
        StoredWords (regs.mapIdx fun j r =>
            (at_ j, some (if r = 15#4 then s.pcRead else s.bankReg .usr r))) s t ∧
          Advances s t ∧ FlagsKept s t ∧ RegsKept [] s t ∧ RestKeptButMemory s t)

/-- SWP and SWPB (42_load_store.md R474, R475; 20_memory.md R141, R144): the old value goes to Rd, a word rotated as LDR
does, and Rm to memory; on a page that the data TLB holds and that is not cacheable, bufferable or not, memory itself
holds the value when the instruction ends and nothing is left in the write buffer, so that no other master of the chip
can come between the two accesses; R15, or a base that is also Rd or Rm, has no meaning. The model's readings: that the
store is not left in the write buffer (log 38), and that the reserved domain value 2 gives no access (log 13). -/
def Obligations.Swap : Prop :=
  ∀ (s : State) (cond : BitVec 4) (rn rd rm : RegNum), s.passes cond = true →
    let a := s.reg rn
    let swapsOnPage (i : Instr) (n : Nat) (lane : Word) : Prop :=
      Completes i s fun t =>
        t.reg rd = wordOf ((List.range n).map fun k => s.dataByte (lane.toNat + k)) ∧
        (∀ k, k < n → memGet t.mem (lane.toNat + k) = byteOf (s.reg rm) k) ∧
        (∀ b, (∀ k, k < n → b ≠ lane.toNat + k) → memGet t.mem b = s.dataByte b) ∧ t.writeBuffer = [] ∧
        Memory.wf t.mem = true ∧ Advances s t ∧ FlagsKept s t ∧ RegsKept [rd] s t ∧
        RestKept s { t with mem := s.mem, writeBuffer := s.writeBuffer }
    let swaps (i : Instr) (n : Nat) (v : Word) : Prop :=
      s.alignedFor a n = true →
      Completes i s fun t => t.reg rd = v ∧ Stored a n (s.reg rm) s t ∧ Advances s t ∧ FlagsKept s t ∧
        RegsKept [rd] s t ∧ RestKeptButMemory s t
    (s.plainData = true → rn ≠ 15#4 → rd ≠ 15#4 → rm ≠ 15#4 → rn ≠ rm → rn ≠ rd →
      swaps (.swp cond rn rd rm) 4 ((s.loaded a 4).rotateRight (8 * (a.toNat % 4))) ∧
      swaps (.swpb cond rn rd rm) 1 (s.loaded a 1)) ∧
    (∀ e, rn ≠ 15#4 → rd ≠ 15#4 → rm ≠ 15#4 → rn ≠ rm → rn ≠ rd → s.inDebug = false → s.debugOn = false →
      s.mmuOn = true → s.physMap = [] → s.between = [] → Memory.wf s.mem = true →
      let mva := s.mva a
      s.dtlb.lookup mva = some e → e.attrs.c = false → s.reservedAttrs e.attrs = false → s.findDLine mva = none →
      s.granted e.domain (e.apFor mva) s.privileged false = true →
      s.granted e.domain (e.apFor mva) s.privileged true = true →
      (mva.extractLsb' 0 2 = 0#2 → swapsOnPage (.swp cond rn rd rm) 4 (e.physical mva)) ∧
      swapsOnPage (.swpb cond rn rd rm) 1 (laneOf s.bigEndian (e.physical mva) 1)) ∧
    (rn = 15#4 ∨ rd = 15#4 ∨ rm = 15#4 →
      exec (.swp cond rn rd rm) s = .refused .r15Operand ∧ exec (.swpb cond rn rd rm) s = .refused .r15Operand) ∧
    (rn ≠ 15#4 → rd ≠ 15#4 → rm ≠ 15#4 → rn = rm ∨ rn = rd →
      exec (.swp cond rn rd rm) s = .refused .registerOverlap ∧
        exec (.swpb cond rn rd rm) s = .refused .registerOverlap)

/-- PLD (42_load_store.md R476; 21_mmu_caches_tlb.md R192, R244, R246, R260): where the data TLB holds the page, the
access is granted, the page is cacheable and the line is in neither cache, the line of the address is brought in clean,
and no other byte, register or line changes; with the MMU off, without a translation in the TLB, without permission, on
a page that is not cacheable, for a resident line, and where the bus answers the fill with an error, there is no effect
but the PC. The model's choices: the reserved domain value 2 gives no access (log 13), and a permission that the table
leaves unpredictable drops the preload (log 64). A reserved page attribute, a locking fill of the mini-data cache and R15
as the offset register have no meaning. -/
def Obligations.Preload : Prop :=
  ∀ (s : State) (u : Bool) (rn rm : RegNum) (off12 : BitVec 12) (amt : BitVec 5) (sh : BitVec 2),
    let preloads (i : Instr) (va : Word) : Prop :=
      let mva := s.mva va
      let ignored : Prop := Completes i s fun t => Advances s t ∧ FlagsKept s t ∧ Frame [] s t
      (s.mmuOn = false ∨ s.dtlb.lookup mva = none → ignored) ∧
      ∀ e, s.mmuOn = true → s.dtlb.lookup mva = some e →
        let pa := e.physical mva
        let grants := s.granted e.domain (e.apFor mva) s.privileged false
        (grants = false ∨ s.cacheable e.attrs = false ∨ (s.findDLine mva).isSome = true → ignored) ∧
        (grants = true → s.cacheable e.attrs = true → s.findDLine mva = none →
          (s.reservedAttrs e.attrs = true → exec i s = .fault .reservedAttributes) ∧
          (s.reservedAttrs e.attrs = false → s.writeBuffer = [] →
            (s.regionAt (lineBase pa) 32 = some .busError → ignored) ∧
            (s.physMap = [] → e.attrs.mini = true → s.cp15.dcacheLock = true → exec i s = .refused .lockFunction) ∧
            (s.physMap = [] → s.emptyDCaches → (e.attrs.mini = true → s.cp15.dcacheLock = false) →
              Completes i s fun t => Filled e.attrs.mini mva pa s t ∧ LocksKeptBut e.attrs.mini mva s t ∧
                Advances s t ∧ FlagsKept s t ∧ RegsKept [] s t ∧ BytesKept s t ∧
                RestKept s { t with dcache := s.dcache, miniDc := s.miniDc })))
    preloads (.pldImm u rn off12) (offsetBy u (s.reg rn) (off12.zeroExtend 32)) ∧
    (rm ≠ 15#4 → preloads (.pldReg u rn amt sh rm) (offsetBy u (s.reg rn) (s.scaled amt sh rm))) ∧
    (rm = 15#4 → exec (.pldReg u rn amt sh rm) s = .refused .r15Operand)

/-! ### Faults and translation -/

/-- LDR and STR through the table walk (21_mmu_caches_tlb.md R181 to R183, R185, R187, R192): with the data cache off and
nothing in the data TLB, a section, a large, a small or an extended small page of a coarse table, and a large, a small
or a tiny page of a fine table give the base of the address, the low bits of the MVA the rest; domain and permission are
checked, of the page or of its quarter; the word is there, and the TLB holds the translation. The model's choices: the
walk reads memory alone, whatever caches and write buffer hold (log 22), and examines no should-be-zero bit of a
descriptor (log 70). -/
def Obligations.TranslatedAccess : Prop :=
  ∀ (s : State) (cond : BitVec 4) (rn rd : RegNum) (am : Mode2),
    s.passes cond = true → rd ≠ 15#4 → s.inDebug = false → s.debugOn = false →
    transferRefusal rn rd (mode2Rm am) (mode2Writes am) = none →
    s.mmuOn = true → s.dcacheOn = false → s.dtlb.entries = [] → s.physMap = [] → s.writeBuffer = [] →
    Memory.wf s.mem = true →
    let ad := s.mode2 rn am
    let mva := s.mva ad.at_
    let l1 := s.firstLevel mva
    let l2 := memWord s.mem (secondAddress l1 mva)
    let quarter (k : BitVec 2) : BitVec 2 := l2.extractLsb' (4 + 2 * k.toNat) 2
    let reaches (pa d : Word) (x : Bool) (ap : BitVec 2) : Prop :=
      let held (t : State) : Prop := ∃ e, t.dtlb.lookup mva = some e ∧ e.physical mva = pa
      s.reservedAttrs { x := x, c := d.getLsbD 3, b := d.getLsbD 2 } = false →
      (s.granted (l1.extractLsb' 5 4) ap s.privileged false = true →
        Completes (.ldr cond rn rd am) s fun t =>
          t.reg rd = memWord s.mem pa ∧ held t ∧ BaseIs rn ad t ∧ Advances s t ∧ FlagsKept s t ∧
            RegsKept (rd :: ad.base rn) s t ∧ BytesKept s t ∧ RestKept s { t with dtlb := s.dtlb }) ∧
      (s.granted (l1.extractLsb' 5 4) ap s.privileged true = true →
        Completes (.str cond rn rd am) s fun t =>
          WordStoredAt pa (s.reg rd) s t ∧ held t ∧ BaseIs rn ad t ∧ Advances s t ∧ FlagsKept s t ∧
            RegsKept (ad.base rn) s t ∧
            RestKept s { t with dtlb := s.dtlb, mem := s.mem, writeBuffer := s.writeBuffer })
    mva.extractLsb' 0 2 = 0#2 → s.findDLine mva = none → l1.getLsbD 9 = false →
    (l1.extractLsb' 0 2 = 2#2 →
      reaches (l1.extractLsb' 20 12 ++ mva.extractLsb' 0 20) l1 (l1.getLsbD 12) (l1.extractLsb' 10 2)) ∧
    (l1.extractLsb' 0 2 = 1#2 ∨ l1.extractLsb' 0 2 = 3#2 →
      (l2.extractLsb' 0 2 = 1#2 →
        reaches (l2.extractLsb' 16 16 ++ mva.extractLsb' 0 16) l2 (l2.getLsbD 12) (quarter (mva.extractLsb' 14 2))) ∧
      (l2.extractLsb' 0 2 = 2#2 →
        reaches (l2.extractLsb' 12 20 ++ mva.extractLsb' 0 12) l2 false (quarter (mva.extractLsb' 10 2))) ∧
      (l2.extractLsb' 0 2 = 3#2 →
        (l1.extractLsb' 0 2 = 1#2 →
          reaches (l2.extractLsb' 12 20 ++ mva.extractLsb' 0 12) l2 (l2.getLsbD 6) (l2.extractLsb' 4 2)) ∧
        (l1.extractLsb' 0 2 = 3#2 →
          reaches (l2.extractLsb' 10 22 ++ mva.extractLsb' 0 10) l2 (l2.getLsbD 6) (l2.extractLsb' 4 2))))

/-- LDR and STR of a page that the data TLB holds, through the data caches and the write buffer (21_mmu_caches_tlb.md
R187, R194, R195, R197, R241, R244, R246, R250, R251, R260). A load that hits reads the line; one that misses in a
cacheable page brings the line in, and the dirty line it evicts goes to the bus side; any other load reads the bus side.
A store that hits changes the line, and memory too under write-through, else the half of the line is dirty; one that
misses brings the line in first where the page allocates on writes; any other goes to the bus side. Outside the data
caches nothing else changes; the fills start from empty data caches, or from one dirty line in the place that is filled,
and of the caches after them the line, and after the fills from empty caches the lock counts, are stated, not the
pointers. The model's choices: a store that hits follows the attributes of the current translation and the current
AuxControl.MD, whatever the line was filled under, which R251 (N16) and R278 line 15 do not state, and a dirty line that
is evicted goes where it was filled from (log 21). -/
def Obligations.CachedAccess : Prop :=
  ∀ (s : State) (cond : BitVec 4) (rn rd : RegNum) (am : Mode2) (e : TlbEntry),
    s.passes cond = true → rd ≠ 15#4 → s.inDebug = false → s.debugOn = false →
    transferRefusal rn rd (mode2Rm am) (mode2Writes am) = none →
    s.mmuOn = true → s.physMap = [] → s.writeBuffer = [] → Memory.wf s.mem = true →
    let ad := s.mode2 rn am
    let mva := s.mva ad.at_
    let low : Word := (1#32 <<< e.size.bits) - 1#32
    let pa : Word := (e.base &&& ~~~low) ||| (mva &&& low)
    let off := (mva.extractLsb' 0 5).toNat
    let mini := e.attrs.mini
    let v := s.reg rd
    let loads (P : State → Prop) (undo : State → State) : Prop :=
      s.granted e.domain (e.apFor mva) s.privileged false = true →
      Completes (.ldr cond rn rd am) s fun t => P t ∧ BaseIs rn ad t ∧ Advances s t ∧ FlagsKept s t ∧
        RegsKept (rd :: ad.base rn) s t ∧ RestKept s (undo t)
    let stores (P : State → Prop) (undo : State → State) : Prop :=
      s.granted e.domain (e.apFor mva) s.privileged true = true →
      Completes (.str cond rn rd am) s fun t => P t ∧ BaseIs rn ad t ∧ Advances s t ∧ FlagsKept s t ∧
        RegsKept (ad.base rn) s t ∧ RestKept s (undo t)
    let noCaches (t : State) : State := { t with dcache := s.dcache, miniDc := s.miniDc }
    let noBus (t : State) : State := { t with mem := s.mem, writeBuffer := s.writeBuffer }
    mva.extractLsb' 0 2 = 0#2 → s.dtlb.lookup mva = some e → s.reservedAttrs e.attrs = false →
    (∀ b slot l, s.findDLine mva = some (b, slot, l) → e.attrs.c = true → l.bad = 0#32 → l.data.length = 32 →
      let through := s.writesThrough e.attrs
      loads (fun t => t.reg rd = wordOf ((List.range 4).map fun i => l.data.getD (off + i) 0#8) ∧ BytesKept s t) id ∧
      stores (fun t => ∃ l', Rewritten l off v (!through) l' ∧
          t.dcache = (s.setDLine b slot l').dcache ∧ t.miniDc = (s.setDLine b slot l').miniDc ∧
          t.findDLine mva = some (b, slot, l') ∧ if through then WordStoredAt pa v s t else BytesKept s t)
        (fun t => noCaches (if through then noBus t else t))) ∧
    (s.findDLine mva = none →
      (s.cacheable e.attrs = false →
        loads (fun t => t.reg rd = memWord s.mem pa ∧ BytesKept s t) id) ∧
      (s.cacheable e.attrs = false ∨ s.writeAllocates e.attrs = false → stores (fun t => WordStoredAt pa v s t) noBus) ∧
      (s.cacheable e.attrs = true → s.emptyDCaches → (mini = true → s.cp15.dcacheLock = false) →
        loads (fun t => t.reg rd = memWord s.mem pa ∧ Filled mini mva pa s t ∧ LocksKeptBut mini mva s t ∧
          BytesKept s t) noCaches ∧
        (s.writeAllocates e.attrs = true →
          stores (fun t => (∃ slot l, t.findDLine mva = some (mini, slot, l) ∧ l.paLine = pa.extractLsb' 5 27 ∧
              l.bad = 0#32 ∧ l.dirtyLo = decide (off < 16) ∧ l.dirtyHi = decide (16 ≤ off) ∧
              ∀ i, i < 32 → l.data[i]? = some (if off ≤ i ∧ i < off + 4 then byteOf v (i - off)
                else s.dataByte (pa.toNat / 32 * 32 + i))) ∧
            LocksKeptBut mini mva s t ∧ BytesKept s t) noCaches)) ∧
      (∀ l, s.cacheable e.attrs = true → mini = false → s.cp15.dcacheLock = false → l.bad = 0#32 →
        l.data.length = 32 → l.dirtyLo = true → l.paLine ≠ pa.extractLsb' 5 27 →
        s.dcache = { State.reset.dcache with lines := [(32 * setOf mva + 31, l)] } →
        loads (fun t => t.reg rd = memWord s.mem pa ∧
            (∀ i, i < 32 → t.dataByte (l.paLine.toNat * 32 + i) =
              if i < 16 ∨ l.dirtyHi = true then l.data.getD i 0#8 else s.dataByte (l.paLine.toNat * 32 + i)) ∧
            (∀ a, a / 32 ≠ l.paLine.toNat → t.dataByte a = s.dataByte a) ∧
            ∃ l', t.dcache.lines = [(32 * setOf mva + 31, l')] ∧ t.findDLine mva = some (false, 32 * setOf mva + 31, l') ∧
              l'.paLine = pa.extractLsb' 5 27 ∧ l'.dirtyLo = false ∧ l'.dirtyHi = false)
          (fun t => noCaches (noBus t))))

/-- Precise data aborts (20_memory.md R131; 21_mmu_caches_tlb.md R181 to R183, R187, R192; 42_load_store.md R452, R454;
60_exceptions.md R873, R874, R880): an unaligned word with alignment checking on; with the MMU on, for LDR and STR and,
with the rights of User mode, for LDRT and STRT: a descriptor of either level that is a fault, a section or a page whose
domain gives no access or whose permission denies this access, and a bus error on the walk. The FSR's code, its domain
where it is valid, and the FAR are written, and no register but R14_abt and no byte changes. The model's choices: the
reserved domain value 2 gives no access (log 13), and the walk reads memory alone, whatever caches and write buffer hold
(log 22). -/
def Obligations.DataAborts : Prop :=
  ∀ (s : State) (cond : BitVec 4) (rn rd : RegNum) (am : Mode2) (off : Offset2),
    s.passes cond = true → s.noDebug = true → s.inDebug = false →
    let aborts (i : Instr) (mva mask code : Word) : Prop :=
      Completes i s fun t => Entered .abt 0x10#32 (s.pc + 8#32) false s { t with dtlb := s.dtlb } ∧
        t.cp15.fsr &&& mask = code ∧ t.cp15.far = mva
    let faults (i : Instr) (mva : Word) (priv write : Bool) : Prop :=
      let l1 := s.firstLevel mva
      let l2 := memWord s.mem (secondAddress l1 mva)
      let field : Word := 0#24 ++ l1.extractLsb' 5 4 ++ 0#4
      let domain := s.domainOf (l1.extractLsb' 5 4)
      let checks (ap : BitVec 2) (noDomain noPermission : Word) : Prop :=
        (domain = 0 ∨ domain = 2 → aborts i mva 0xFFFFFFFF#32 (noDomain ||| field)) ∧
        (domain = 1 → s.denied ap priv write = true → aborts i mva 0xFFFFFFFF#32 (noPermission ||| field))
      (s.alignCheck = true → mva.extractLsb' 0 2 ≠ 0#2 → aborts i mva 0xFFFFFF0D#32 1#32) ∧
      (mva.extractLsb' 0 2 = 0#2 → s.mmuOn = true → s.dtlb.entries = [] →
        (s.regionAt (s.l1Address mva) 4 = some .busError → aborts i mva 0xFFFFFF0F#32 0xC#32) ∧
        (s.regionAt (s.l1Address mva) 4 = none →
          (l1.extractLsb' 0 2 = 0#2 → aborts i mva 0xFFFFFF0F#32 0x5#32) ∧
          (l1.extractLsb' 0 2 = 2#2 → l1.getLsbD 9 = false → checks (l1.extractLsb' 10 2) 0x9#32 0xD#32) ∧
          (l1.extractLsb' 0 2 = 1#2 ∨ l1.extractLsb' 0 2 = 3#2 → l1.getLsbD 9 = false →
            (s.regionAt (secondAddress l1 mva) 4 = some .busError → aborts i mva 0xFFFFFFFF#32 (0xE#32 ||| field)) ∧
            (s.regionAt (secondAddress l1 mva) 4 = none →
              (l2.extractLsb' 0 2 = 0#2 → aborts i mva 0xFFFFFFFF#32 (0x7#32 ||| field)) ∧
              (l2.extractLsb' 0 2 = 1#2 →
                checks (l2.extractLsb' (4 + 2 * (mva.extractLsb' 14 2).toNat) 2) 0xB#32 0xF#32) ∧
              (l2.extractLsb' 0 2 = 2#2 →
                checks (l2.extractLsb' (4 + 2 * (mva.extractLsb' 10 2).toNat) 2) 0xB#32 0xF#32) ∧
              (l2.extractLsb' 0 2 = 3#2 → checks (l2.extractLsb' 4 2) 0xB#32 0xF#32)))))
    (transferRefusal rn rd (mode2Rm am) (mode2Writes am) = none →
      faults (.ldr cond rn rd am) (s.mva (s.mode2 rn am).at_) s.privileged false ∧
      faults (.str cond rn rd am) (s.mva (s.mode2 rn am).at_) s.privileged true) ∧
    (rd ≠ 15#4 → transferRefusal rn rd (offset2Rm off) true = none →
      faults (.ldrt cond rn rd off) (s.mva (s.userMode2 rn off).at_) false false ∧
      faults (.strt cond rn rd off) (s.mva (s.userMode2 rn off).at_) false true)

/-! ### Branches -/

/-- B, BL and BLX (1) (43_branch_status_system.md R500 to R502; 30_encoding.md R299, R302): the target relative to the
instruction's address plus 8, R14 the address of the next instruction, T set by BLX alone; B and BL may train the branch
target buffer. -/
def Obligations.DirectBranches : Prop :=
  ∀ (s : State) (cond : BitVec 4) (imm24 : BitVec 24) (h : Bool), s.passes cond = true →
    let target : Word := s.pc + 8#32 + (imm24 ++ 0#2).signExtend 32
    (Completes (.b cond imm24) s fun t =>
      t.pc = target ∧ FlagsKept s t ∧ Frame [] s { t with btb := s.btb }) ∧
    (Completes (.bl cond imm24) s fun t =>
      t.pc = target ∧ t.reg 14#4 = s.pc + 4#32 ∧ FlagsKept s t ∧ Frame [14#4] s { t with btb := s.btb }) ∧
    (Completes (.blx1 h imm24) s fun t =>
      t.pc = target + (if h then 2#32 else 0#32) ∧ t.reg 14#4 = s.pc + 4#32 ∧ t.thumb = true ∧
        t.cpsr &&& 0xFFFFFFDF#32 = s.cpsr &&& 0xFFFFFFDF#32 ∧ Frame [14#4] s t)

/-- BX and BLX (2) (43_branch_status_system.md R503, R504, R520): bit 0 of Rm as it was before the instruction goes to
T, the rest to the PC; BLX writes R14; a target with bits [1:0] = 10, and BLX of R15, have no meaning. -/
def Obligations.ExchangeBranches : Prop :=
  ∀ (s : State) (cond : BitVec 4) (rm : RegNum), s.passes cond = true →
    let v := s.reg rm
    (v.extractLsb' 0 2 ≠ 2#2 →
      (Completes (.bx cond rm) s fun t => Interworks v s t ∧ Frame [] s t) ∧
      (rm ≠ 15#4 → Completes (.blx2 cond rm) s fun t =>
        Interworks v s t ∧ t.bankReg s.mode 14#4 = s.pc + 4#32 ∧ Frame [14#4] s t)) ∧
    (v.extractLsb' 0 2 = 2#2 → exec (.bx cond rm) s = .refused .unalignedTarget ∧
      (rm ≠ 15#4 → exec (.blx2 cond rm) s = .refused .unalignedTarget)) ∧
    exec (.blx2 cond 15#4) s = .refused .r15Operand

/-! ### Status registers -/

/-- MRS (43_branch_status_system.md R510): the CPSR in every mode, the SPSR where the mode has one; nothing else
changes; R15, and the SPSR of User and System mode, have no meaning. -/
def Obligations.ReadStatus : Prop :=
  ∀ (s : State) (cond : BitVec 4) (rd : RegNum) (w : Word), s.passes cond = true →
    let reads (r : Bool) (v : Word) : Prop :=
      Completes (.mrs cond r rd) s fun t => t.reg rd = v ∧ Advances s t ∧ FlagsKept s t ∧ Frame [rd] s t
    (rd ≠ 15#4 → reads false s.cpsr ∧ (s.spsrOf = some w → reads true w) ∧
      (s.mode = .usr ∨ s.mode = .sys → exec (.mrs cond true rd) s = .refused .noSpsr)) ∧
    (∀ r, exec (.mrs cond r 15#4) s = .refused .r15Operand)

/-- MSR (43_branch_status_system.md R511): to the CPSR by bytes in a privileged mode, where T must stay and the mode be
legal; in User mode only the five flags, silently; to the SPSR by bytes, where the mode has one. Nothing else changes;
R15 has no meaning. -/
def Obligations.WriteStatus : Prop :=
  ∀ (s : State) (cond : BitVec 4) (mask rot : BitVec 4) (imm8 : BitVec 8) (rm : RegNum) (k : Fin 6),
    s.passes cond = true → s.inDebug = false →
    let field (i : Nat) : Word := if mask.getLsbD i then 0xFF#32 <<< (8 * i) else 0#32
    let byte : Word := field 0 ||| field 1 ||| field 2 ||| field 3
    let m := if s.mode = .usr then byte &&& 0xF8000000#32 else byte
    let new (v : Word) : Word := (s.cpsr &&& ~~~m) ||| (v &&& m)
    let writes (i : Instr) (v : Word) : Prop :=
      ((new v).getLsbD 5 = s.cpsr.getLsbD 5 ∧ (modeOf ((new v).extractLsb' 0 5)).isSome = true ∨ s.mode = .usr →
        Completes i s fun t => t.cpsr = new v ∧ Advances s t ∧ Frame [] s t) ∧
      (s.mode ≠ .usr → (new v).getLsbD 5 ≠ s.cpsr.getLsbD 5 → exec i s = .refused .thumbBitChange)
    let saves (i : Instr) (v : Word) : Prop :=
      Completes i s fun t =>
        t.spsr[k.val] = (s.spsr[k.val] &&& ~~~byte) ||| (v &&& byte) ∧
          (∀ j : Fin 6, j ≠ k → t.spsr[j.val] = s.spsr[j.val]) ∧ Advances s t ∧ FlagsKept s t ∧
          Frame [] s { t with spsr := s.spsr }
    let imm := (imm8.zeroExtend 32).rotateRight (2 * rot.toNat)
    writes (.msrImm cond false mask rot imm8) imm ∧
    (rm ≠ 15#4 → writes (.msrReg cond false mask rm) (s.reg rm)) ∧
    (s.mode.spsrIndex = some k → saves (.msrImm cond true mask rot imm8) imm ∧
      (rm ≠ 15#4 → saves (.msrReg cond true mask rm) (s.reg rm))) ∧
    (s.mode = .usr ∨ s.mode = .sys → exec (.msrImm cond true mask rot imm8) s = .refused .noSpsr) ∧
    (∀ r, exec (.msrReg cond r mask 15#4) s = .refused .r15Operand)

/-! ### Exceptions that instructions take -/

/-- The exceptions that instructions take by themselves, in ARM and Thumb state (43_branch_status_system.md R515;
30_encoding.md R303; 46_thumb.md R666; 60_exceptions.md R880 to R884): SWI enters Supervisor mode at the vector 0x08,
the undefined encodings of the opcode table enter Undefined mode at the vector 0x04; the address of the next instruction
is in R14 of the mode and the CPSR in its SPSR; CP15 and the debug unit stay. That the Thumb halfwords without a row of
R666 are undefined is the model's choice (its decision D19; log 37). -/
def Obligations.SoftwareTraps : Prop :=
  ∀ (s : State) (cond : BitVec 4) (imm24 : BitVec 24) (imm8 : BitVec 8) (hi any : BitVec 20) (lo : BitVec 4) (r : Bool)
    (x : BitVec 8) (y : BitVec 10), s.noDebug = true →
    let enters (m : Mode) (vector : Word) (i : Instr) : Prop :=
      Completes i s fun t => Entered m vector (s.pc + s.instrBytes) false s t ∧ t.cp15 = s.cp15 ∧ t.dbgUnit = s.dbgUnit
    (s.passes cond = true → enters .svc 0x08#32 (.swi cond imm24) ∧
      ∀ i ∈ [Instr.undefMedia cond hi lo, .undefMsrImm cond r any], enters .und 0x04#32 i) ∧
    enters .svc 0x08#32 (.tSwi imm8) ∧
    ∀ i ∈ [Instr.tUndefB1 x, .tUndefB2 x, .tUndefB3 x, .tUndefB6 x, .tUndefB7 x, .tUndefB8 y, .tUndefBF x, .tUndefDE x,
            .tUndefE801 y], enters .und 0x04#32 i

/-- BKPT in ARM and Thumb state (43_branch_status_system.md R516; 48_debug_jtag.md R779, R790): a NOP while DCSR.GE is
0; in Monitor mode an abort at the vector 0x0C with FSR[9] set and DCSR.MOE = 011; in Halt mode the debug entry: DEBUG
mode, Special Debug State, the reset vector, R14_dbg the instruction's address plus 4. -/
def Obligations.Breakpoint : Prop :=
  ∀ (s : State) (immHi : BitVec 12) (immLo : BitVec 4) (imm8 : BitVec 8),
    ∀ i ∈ [Instr.bkpt immHi immLo, .tBkpt imm8],
      (s.debugOn = false → Completes i s fun t => Advances s t ∧ FlagsKept s t ∧ Frame [] s t) ∧
      (s.debugOn = true → s.dbgUnit.sds = false → s.haltMode = false →
        Completes i s fun t => Entered .abt 0x0C#32 (s.pc + 4#32) false s t ∧ t.cp15.fsr.getLsbD 9 = true ∧
          t.cp15.far = s.cp15.far ∧ t.dbgUnit.dcsr.extractLsb' 2 3 = 0b011#3 ∧ t.dbgUnit.sds = false) ∧
      (s.debugOn = true → s.dbgUnit.sds = false → s.haltMode = true →
        Completes i s fun t => Entered .dbg 0#32 (s.pc + 4#32) true s t ∧ t.cp15 = s.cp15 ∧
          t.dbgUnit.dcsr.extractLsb' 2 3 = 0b011#3 ∧ t.dbgUnit.sds = true)

/-- Taking any exception (60_exceptions.md R880 to R882): the mode, the link value, the vector, the masks and the saved
status of the table, with no other register written. -/
def Obligations.ExceptionEntry : Prop :=
  ∀ (s : State) (code : BitVec 5) (domain : Option (BitVec 4)) (far : Option Word), s.noDebug = true →
    Entered .und 0x04#32 (s.pc + s.instrBytes) false s (takeException .undefined s) ∧
    Entered .svc 0x08#32 (s.pc + s.instrBytes) false s (takeException .swi s) ∧
    Entered .abt 0x0C#32 (s.pc + 4#32) false s (takeException (.prefetchAbort code) s) ∧
    Entered .abt 0x10#32 (s.pc + 8#32) false s (takeException (.dataAbort code domain far) s) ∧
    Entered .abt 0x10#32 (s.pc + 4#32) false s (takeException (.impreciseAbort code) s) ∧
    Entered .irq 0x18#32 (s.pc + 4#32) false s (takeException .irq s) ∧
    Entered .fiq 0x1C#32 (s.pc + 4#32) true s (takeException .fiq s)

/-- Entry and return are inverse (60_exceptions.md R880, R882, R885; 43_branch_status_system.md R521): after a SWI from
ARM state at a word address, MOVS PC, R14 restores the CPSR and goes on after the SWI, with no register changed but
R14_svc. -/
def Obligations.EntryThenReturn : Prop :=
  ∀ (s : State) (imm24 : BitVec 24), s.noDebug = true → (modeOf (s.cpsr.extractLsb' 0 5)).isSome = true →
    s.thumb = false → s.pc.extractLsb' 0 2 = 0#2 →
    Completes (.swi 14#4 imm24) s fun t =>
      Completes (.mov 14#4 true 15#4 (.shift 0#5 0#2 14#4)) t fun u =>
        u.cpsr = s.cpsr ∧ u.pc = s.pc + 4#32 ∧ BytesKept s u ∧
          (∀ i : Fin 32, i ≠ regIndex .svc 14#4 → u.gpr[i.val] = s.gpr[i.val])

/-! ### Coprocessors -/

/-- Coprocessors that do not exist or may not be used (44_coprocessor.md R541 to R544, R549; 60_exceptions.md R883):
every form raises Undefined Instruction; so do the two-register and CDP forms to CP14 and CP15, LDC and STC to all but
CP14, and every instruction of CP0 while CPAR bit 0 is clear (R542). -/
def Obligations.AbsentCoprocessors : Prop :=
  ∀ (s : State) (cond : BitVec 4) (u n w : Bool) (op1 op2 acc : BitVec 3) (a b c d cp : BitVec 4) (off : BitVec 8),
    s.passes cond = true → s.noDebug = true →
    let enters (i : Instr) : Prop :=
      Completes i s fun t => Entered .und 0x04#32 (s.pc + s.instrBytes) false s t ∧ t.cp15 = s.cp15 ∧
        t.dbgUnit = s.dbgUnit
    (cp ≠ 0#4 → ∀ i ∈ [Instr.cdp cond a b c cp op2 d, .mcrr cond a b cp c d, .mrrc cond a b cp c d], enters i) ∧
    (cp ≠ 0#4 → cp ≠ 14#4 → cp ≠ 15#4 →
      ∀ i ∈ [Instr.mcr cond op1 a b cp op2 c, .mrc cond op1 a b cp op2 c], enters i) ∧
    (cp ≠ 14#4 →
      ∀ i ∈ [Instr.ldcOffset cond u n w a b cp off, .ldcPost cond u n a b cp off, .ldcUnindexed cond n a b cp off,
             .stcOffset cond u n w a b cp off, .stcPost cond u n a b cp off, .stcUnindexed cond n a b cp off],
        enters i) ∧
    (s.cp0Allowed = false →
      ∀ i ∈ [Instr.mia cond a acc b, .miaph cond a acc b, .miabb cond a acc b, .miabt cond a acc b,
             .miatb cond a acc b, .miatt cond a acc b, .mar cond a b acc, .mra cond a b acc,
             .cdp cond a b c 0#4 op2 d, .mcr cond op1 a b 0#4 op2 c, .mrc cond op1 a b 0#4 op2 c,
             .mcrr cond a b 0#4 c d, .mrrc cond a b 0#4 c d],
        enters i)

/-- In User mode every access to CP15 and CP14 raises Undefined Instruction (44_coprocessor.md R543, R544;
60_exceptions.md R883): MRC and MCR of each register and function that the tables list, the generic MRC and MCR to the
two coprocessors, LDC and STC to CP14 in each form. No register of CP15, the performance monitor or the debug unit
changes. (CDP, MCRR and MRRC to them, and LDC and STC to CP15, are undefined in every mode: AbsentCoprocessors.) -/
def Obligations.UserModeDenied : Prop :=
  ∀ (s : State) (cond : BitVec 4) (rd : RegNum) (u n w : Bool) (op1 op2 : BitVec 3) (a b c cp : BitVec 4)
    (off : BitVec 8), s.passes cond = true → s.noDebug = true → s.mode = .usr →
    let denied (i : Instr) : Prop :=
      Completes i s fun t => Entered .und 0x04#32 (s.pc + s.instrBytes) false s t ∧ t.cp15 = s.cp15 ∧
        t.dbgUnit = s.dbgUnit ∧ t.pmu = s.pmu
    (∀ i ∈ [Instr.ldcOffset cond u n w a b 14#4 off, .ldcPost cond u n a b 14#4 off, .ldcUnindexed cond n a b 14#4 off,
            .stcOffset cond u n w a b 14#4 off, .stcPost cond u n a b 14#4 off, .stcUnindexed cond n a b 14#4 off],
      denied i) ∧
    (cp = 14#4 ∨ cp = 15#4 → ∀ i ∈ [Instr.mcr cond op1 a b cp op2 c, .mrc cond op1 a b cp op2 c], denied i) ∧
    ∀ i ∈ [Instr.mrcId cond rd, .mcrId cond rd, .mrcCacheType cond rd, .mcrCacheType cond rd, .mrcControl cond rd,
           .mcrControl cond rd, .mrcAuxControl cond rd, .mcrAuxControl cond rd, .mrcTtb cond rd, .mcrTtb cond rd,
           .mrcDacr cond rd, .mcrDacr cond rd, .mrcFsr cond rd, .mcrFsr cond rd, .mrcFar cond rd, .mcrFar cond rd,
           .mcrInvIDCacheBtb cond rd, .mcrInvICacheBtb cond rd, .mcrInvICacheLine cond rd, .mcrInvDCache cond rd,
           .mcrInvDCacheLine cond rd, .mcrCleanDCacheLine cond rd, .mcrDrainWriteBuffer cond rd, .mcrInvBtb cond rd,
           .mcrAllocateDLine cond rd, .mcrInvIDTlb cond rd, .mcrInvITlb cond rd, .mcrInvITlbEntry cond rd,
           .mcrInvDTlb cond rd, .mcrInvDTlbEntry cond rd, .mcrLockILine cond rd, .mcrUnlockICache cond rd,
           .mrcDCacheLock cond rd, .mcrDCacheLock cond rd, .mcrUnlockDCache cond rd, .mcrLockITlbEntry cond rd,
           .mcrLockDTlbEntry cond rd, .mcrUnlockITlb cond rd, .mcrUnlockDTlb cond rd, .mrcPid cond rd,
           .mcrPid cond rd, .mrcIbcr0 cond rd, .mcrIbcr0 cond rd, .mrcIbcr1 cond rd, .mcrIbcr1 cond rd,
           .mrcDbr0 cond rd, .mcrDbr0 cond rd, .mrcDbr1 cond rd, .mcrDbr1 cond rd, .mrcDbcon cond rd,
           .mcrDbcon cond rd, .mrcCpar cond rd, .mcrCpar cond rd, .mrcPmnc cond rd, .mcrPmnc cond rd,
           .mrcCcnt cond rd, .mcrCcnt cond rd, .mrcPmn0 cond rd, .mcrPmn0 cond rd, .mrcPmn1 cond rd,
           .mcrPmn1 cond rd, .mrcCclkcfg cond rd, .mcrCclkcfg cond rd, .mrcPwrmode cond rd, .mcrPwrmode cond rd,
           .mrcTx cond rd, .mcrTx cond rd, .mrcRx cond rd, .mcrRx cond rd, .mrcDcsr cond rd, .mcrDcsr cond rd,
           .mrcTbreg cond rd, .mcrTbreg cond rd, .mrcChkpt0 cond rd, .mcrChkpt0 cond rd, .mrcChkpt1 cond rd,
           .mcrChkpt1 cond rd, .mrcTxrxctrl cond rd, .mcrTxrxctrl cond rd], denied i

/-- MRC of the registers of CP15 and CP14 (44_coprocessor.md R545, R547; 45_cp15_cp14_operations.md R581, R584 to R589,
R612, R620 to R623, R631 to R641), Halt mode's lock and the trace buffer being off: the value in Rd, or its top bits in
the flags where Rd is R15; a bit under the mask is open; nothing else changes, but that a read of RX clears RR and a
read of TBREG takes the oldest byte out of the trace buffer. -/
def Obligations.RegisterReads : Prop :=
  ∀ (s : State) (cond : BitVec 4) (rd : RegNum),
    s.passes cond = true → s.privileged = true → s.debugLocked = false → s.tracing = false →
    let reads (i : Instr) (value mask : Word) (undo : State → State) : Prop :=
      Completes i s fun t => ∃ v : Word, v &&& ~~~mask = value &&& ~~~mask ∧ Advances s t ∧
        if rd = 15#4 then FlagsAre (v.getLsbD 31) (v.getLsbD 30) (v.getLsbD 29) (v.getLsbD 28) s t ∧ Frame [] s (undo t)
        else t.reg rd = v ∧ FlagsKept s t ∧ Frame [rd] s (undo t)
    (∀ p ∈ [(Instr.mrcId cond rd, s.idRegister, 0#32), (.mrcCacheType cond rd, 0x0B1AA1AA#32, 0#32),
           (.mrcControl cond rd, s.cp15.control, 0xFFFFC000#32),
           (.mrcAuxControl cond rd, s.cp15.auxControl, 0xFFFFFFCC#32), (.mrcTtb cond rd, s.cp15.ttb, 0x3FFF#32),
           (.mrcDacr cond rd, s.cp15.dacr, 0#32), (.mrcFsr cond rd, s.cp15.fsr &&& 0x6FF#32, 0xFFFFF800#32),
           (.mrcFar cond rd, s.cp15.far, 0#32),
           (.mrcDCacheLock cond rd, (if s.cp15.dcacheLock then 1#32 else 0#32), 0xFFFFFFFE#32),
           (.mrcPid cond rd, s.cp15.pid, 0#32), (.mrcIbcr0 cond rd, s.cp15.ibcr0, 0#32),
           (.mrcIbcr1 cond rd, s.cp15.ibcr1, 0#32), (.mrcDbr0 cond rd, s.cp15.dbr0, 0#32),
           (.mrcDbr1 cond rd, s.cp15.dbr1, 0#32), (.mrcDbcon cond rd, s.cp15.dbcon, 0#32),
           (.mrcCpar cond rd, s.cp15.cpar &&& 0x3FFF#32, 0xFFFF0000#32), (.mrcPmnc cond rd, s.pmu.pmnc, 0xF0000886#32),
           (.mrcCcnt cond rd, s.pmu.ccnt, 0#32), (.mrcPmn0 cond rd, s.pmu.pmn0, 0#32),
           (.mrcPmn1 cond rd, s.pmu.pmn1, 0#32),
           (.mrcCclkcfg cond rd, s.pmu.cclkcfg.zeroExtend 32, 0xFFFFFFF0#32), (.mrcPwrmode cond rd, 0#32, 0xFFFFFFFC#32),
           (.mrcTx cond rd, s.dbgUnit.tx, 0#32),
           (.mrcDcsr cond rd, s.dbgUnit.dcsr &&& 0xC0DF003F#32, 0x3F20FFC0#32),
           (.mrcChkpt0 cond rd, s.dbgUnit.chkpt0, 0#32), (.mrcChkpt1 cond rd, s.dbgUnit.chkpt1, 0#32),
           (.mrcTxrxctrl cond rd, s.dbgUnit.txrxctrl &&& 0xF0000000#32, 0#32)],
      reads p.1 p.2.1 p.2.2 id) ∧
    reads (.mrcRx cond rd) s.dbgUnit.rx 0#32
      (fun t => { t with dbgUnit := { t.dbgUnit with txrxctrl := s.dbgUnit.txrxctrl } }) ∧
    (Completes (.mrcRx cond rd) s fun t => t.dbgUnit.txrxctrl = s.dbgUnit.txrxctrl &&& 0x7FFFFFFF#32) ∧
    reads (.mrcTbreg cond rd) (((tblGet s.trace.bytes s.trace.pos).getD 0#8).zeroExtend 32) 0#32
      (fun t => { t with trace := s.trace }) ∧
    (Completes (.mrcTbreg cond rd) s fun t =>
      t.trace = { s.trace with bytes := tblErase s.trace.bytes s.trace.pos, pos := (s.trace.pos + 1) % 256 })

/-- MCR to the registers of CP15 (44_coprocessor.md R546; 45_cp15_cp14_operations.md R584 to R589, R612, R620 to R623):
the register named takes its writable bits, PID also empties the branch target buffer; nothing else in CP15 or outside
it changes. The lock register is written with the data cache enabled. That a 1 written to a write-as-zero bit is dropped
is the model's choice (log 12), and that the write has its effect at once (log 17). -/
def Obligations.SystemRegisterWrites : Prop :=
  ∀ (s : State) (cond : BitVec 4) (rd : RegNum),
    s.passes cond = true → s.privileged = true → s.debugLocked = false → rd ≠ 15#4 →
    let v := s.reg rd
    let c := s.cp15
    let writes (i : Instr) (c' : Cp15) : Prop :=
      Completes i s fun t => t.cp15 = c' ∧ Advances s t ∧ FlagsKept s t ∧ Frame [] s { t with cp15 := s.cp15 }
    writes (.mcrId cond rd) c ∧ writes (.mcrCacheType cond rd) c ∧
    (v.getLsbD 2 = false ∨ v.getLsbD 0 = true →
      writes (.mcrControl cond rd) { c with control := (v &&& 0x3B87#32) ||| 0x78#32 }) ∧
    (v.getLsbD 1 = false → writes (.mcrAuxControl cond rd) { c with auxControl := v &&& 0x31#32 }) ∧
    writes (.mcrTtb cond rd) { c with ttb := v &&& 0xFFFFC000#32 } ∧
    writes (.mcrDacr cond rd) { c with dacr := v } ∧
    writes (.mcrFsr cond rd) { c with fsr := v &&& 0x6FF#32 } ∧
    writes (.mcrFar cond rd) { c with far := v } ∧
    (s.dcacheOn = true → writes (.mcrDCacheLock cond rd) { c with dcacheLock := v.getLsbD 0 }) ∧
    writes (.mcrIbcr0 cond rd) { c with ibcr0 := v } ∧ writes (.mcrIbcr1 cond rd) { c with ibcr1 := v } ∧
    writes (.mcrDbr0 cond rd) { c with dbr0 := v } ∧ writes (.mcrDbr1 cond rd) { c with dbr1 := v } ∧
    writes (.mcrDbcon cond rd) { c with dbcon := v &&& 0x10F#32 } ∧
    writes (.mcrCpar cond rd) { c with cpar := v &&& 0x3FFF#32 } ∧
    (Completes (.mcrPid cond rd) s fun t =>
      t.cp15 = { c with pid := v &&& 0xFE000000#32 } ∧ t.btb = [] ∧ Advances s t ∧ FlagsKept s t ∧
        Frame [] s { t with cp15 := s.cp15, btb := s.btb })

/-- MCR to the registers of CP14 (45_cp15_cp14_operations.md R631 to R641): each takes its writable bits; PMNC's
overflow flags are cleared by ones and its C and P bits reset counters; TX sets TR; a write of RX is ignored; PWRMODE
leaves the ACTIVE mode; nothing else changes, but that a write of DCSR may start the trace buffer and one of TBREG
leaves the buffer and its checkpoints open (log 56). The model's choices: a 1 written to a write-as-zero bit is dropped
(log 12), and CCLKCFG has no other effect (R634's decision D12; log 66). -/
def Obligations.MonitorAndDebugWrites : Prop :=
  ∀ (s : State) (cond : BitVec 4) (rd : RegNum),
    s.passes cond = true → s.privileged = true → s.debugLocked = false → s.tracing = false → rd ≠ 15#4 →
    let v := s.reg rd
    let p := s.pmu
    let d := s.dbgUnit
    let monitor (i : Instr) (p' : Pmu) : Prop :=
      Completes i s fun t => t.pmu = p' ∧ Advances s t ∧ FlagsKept s t ∧ Frame [] s { t with pmu := s.pmu }
    let debugs (i : Instr) (d' : Debug) : Prop :=
      Completes i s fun t => t.dbgUnit = d' ∧ Advances s t ∧ FlagsKept s t ∧ Frame [] s { t with dbgUnit := s.dbgUnit }
    (Completes (.mcrPmnc cond rd) s fun t =>
      (∀ i ∈ [0, 3, 4, 5, 6, 12, 13, 14, 15, 16, 17, 18, 19, 20, 21, 22, 23, 24, 25, 26, 27],
        t.pmu.pmnc.getLsbD i = v.getLsbD i) ∧
        (∀ i ∈ [8, 9, 10], t.pmu.pmnc.getLsbD i = (p.pmnc.getLsbD i && !v.getLsbD i)) ∧
        t.pmu.ccnt = (if v.getLsbD 2 then 0#32 else p.ccnt) ∧ t.pmu.pmn0 = (if v.getLsbD 1 then 0#32 else p.pmn0) ∧
        t.pmu.pmn1 = (if v.getLsbD 1 then 0#32 else p.pmn1) ∧ t.pmu.cclkcfg = p.cclkcfg ∧
        Advances s t ∧ FlagsKept s t ∧ Frame [] s { t with pmu := s.pmu }) ∧
    monitor (.mcrCcnt cond rd) { p with ccnt := v } ∧ monitor (.mcrPmn0 cond rd) { p with pmn0 := v } ∧
    monitor (.mcrPmn1 cond rd) { p with pmn1 := v } ∧
    monitor (.mcrCclkcfg cond rd) { p with cclkcfg := v.truncate 4 } ∧
    (v.extractLsb' 0 2 ≠ 2#2 →
      Completes (.mcrPwrmode cond rd) s fun t =>
        (v.extractLsb' 0 2 = 0#2 → t.power = s.power ∧ t.pmu = p) ∧ (v.extractLsb' 0 2 = 1#2 → t.power = .idle) ∧
          (v.extractLsb' 0 2 = 3#2 → t.power = .sleep) ∧ Advances s t ∧ FlagsKept s t ∧
          Frame [] s { t with power := s.power, pmu := s.pmu }) ∧
    (v.extractLsb' 0 2 = 2#2 → exec (.mcrPwrmode cond rd) s = .refused .reservedPowerMode) ∧
    debugs (.mcrTx cond rd) { d with tx := v, txrxctrl := d.txrxctrl ||| 0x10000000#32 } ∧
    debugs (.mcrRx cond rd) d ∧
    (Completes (.mcrDcsr cond rd) s fun t =>
      t.dbgUnit = { d with dcsr := (d.dcsr &&& 0x7FFFFFC0#32) ||| (v &&& 0x8000003F#32) } ∧ Advances s t ∧
        FlagsKept s t ∧ Frame [] s { t with dbgUnit := s.dbgUnit, trace := s.trace }) ∧
    debugs (.mcrChkpt0 cond rd) { d with chkpt0 := v } ∧ debugs (.mcrChkpt1 cond rd) { d with chkpt1 := v } ∧
    debugs (.mcrTxrxctrl cond rd)
      { d with txrxctrl := (d.txrxctrl &&& 0xBFFFFFFF#32) ||| (v &&& 0x40000000#32) } ∧
    (Completes (.mcrTbreg cond rd) s fun t => Advances s t ∧ FlagsKept s t ∧
      Frame [] s { t with trace := s.trace,
                          dbgUnit := { t.dbgUnit with chkpt0 := d.chkpt0, chkpt1 := d.chkpt1 } })

/-- The cache functions that invalidate (45_cp15_cp14_operations.md R591 to R595, R597; 21_mmu_caches_tlb.md R228,
R253): locked lines survive the global ones; dirty data is dropped and memory keeps its bytes; pointers and lock counts
stay. The line forms remove the line from both caches of their side, and no other line. The model's readings: the
effect, which R590 lets come later, is there at once (log 17), and the instruction line form removes a locked line too
(derived in R592). -/
def Obligations.InvalidateFunctions : Prop :=
  ∀ (s : State) (cond : BitVec 4) (rd : RegNum), s.passes cond = true → s.privileged = true → rd ≠ 15#4 →
    let v := s.reg rd
    let iLocked (p : Nat × ILine) : Prop := p.1 % 32 < lockedOf s.icache.locked (p.1 / 32)
    let dLocked (p : Nat × DLine) : Prop := p.1 % 32 < lockedOf s.dcache.locked (p.1 / 32)
    let iEmptied (t : State) : Prop :=
      (∀ p, p ∈ t.icache.lines ↔ p ∈ s.icache.lines ∧ iLocked p) ∧ t.icache.rr = s.icache.rr ∧
        t.icache.locked = s.icache.locked ∧ t.fetchBuffers = [] ∧ t.btb = []
    let dEmptied (t : State) : Prop :=
      (∀ p, p ∈ t.dcache.lines ↔ p ∈ s.dcache.lines ∧ dLocked p) ∧ t.dcache.rr = s.dcache.rr ∧
        t.dcache.locked = s.dcache.locked ∧ t.miniDc.lines = []
    let atLine (ways : Nat) (p : Nat × ILine) : Prop := p.1 / ways = setOf v ∧ p.2.tag = tagOf v
    let atDLine (ways : Nat) (p : Nat × DLine) : Prop := p.1 / ways = setOf v ∧ p.2.tag = tagOf v
    (Completes (.mcrInvICacheBtb cond rd) s fun t => iEmptied t ∧ Advances s t ∧ FlagsKept s t ∧
      Frame [] s { t with icache := s.icache, fetchBuffers := s.fetchBuffers, btb := s.btb }) ∧
    (Completes (.mcrInvDCache cond rd) s fun t => dEmptied t ∧ Advances s t ∧ FlagsKept s t ∧
      Frame [] s { t with dcache := s.dcache, miniDc := { t.miniDc with lines := s.miniDc.lines } }) ∧
    (Completes (.mcrInvIDCacheBtb cond rd) s fun t => iEmptied t ∧ dEmptied t ∧ Advances s t ∧ FlagsKept s t ∧
      Frame [] s { t with icache := s.icache, fetchBuffers := s.fetchBuffers, btb := s.btb, dcache := s.dcache,
                          miniDc := { t.miniDc with lines := s.miniDc.lines } }) ∧
    (Completes (.mcrInvICacheLine cond rd) s fun t =>
      (∀ p, p ∈ t.icache.lines ↔ p ∈ s.icache.lines ∧ ¬ atLine 32 p) ∧
        (∀ p, p ∈ t.miniIc.lines ↔ p ∈ s.miniIc.lines ∧ ¬ atLine 2 p) ∧ Advances s t ∧ FlagsKept s t ∧
        Frame [] s { t with icache := { t.icache with lines := s.icache.lines },
                            miniIc := { t.miniIc with lines := s.miniIc.lines }, fetchBuffers := s.fetchBuffers }) ∧
    (Completes (.mcrInvDCacheLine cond rd) s fun t =>
      (∀ p, p ∈ t.dcache.lines ↔ p ∈ s.dcache.lines ∧ ¬ atDLine 32 p) ∧
        (∀ p, p ∈ t.miniDc.lines ↔ p ∈ s.miniDc.lines ∧ ¬ atDLine 2 p) ∧ t.findDLine v = none ∧ Advances s t ∧
        FlagsKept s t ∧
        Frame [] s { t with dcache := { t.dcache with lines := s.dcache.lines },
                            miniDc := { t.miniDc with lines := s.miniDc.lines } }) ∧
    (Completes (.mcrInvBtb cond rd) s fun t => t.btb = [] ∧ Advances s t ∧ FlagsKept s t ∧
      Frame [] s { t with btb := s.btb })

/-- The functions that move data toward memory (45_cp15_cp14_operations.md R596, R598, R600): a clean puts the dirty
halves of a line, in either data cache, where loads and memory find them and leaves the line valid and clean; a drain
empties the write buffer and leaves every byte as a load reads it; an allocate, stated for an empty data cache with the
MMU off, makes a line resident and clean. The model's readings: a clean writes where the line was filled from (log 21);
where both caches hold the line both are cleaned, and of a byte dirty in both either one may come last (log 58); and the
effects are there at once (log 17). -/
def Obligations.CleanDrainAllocate : Prop :=
  ∀ (s : State) (cond : BitVec 4) (rd : RegNum), s.passes cond = true → s.privileged = true → rd ≠ 15#4 →
    s.physMap = [] → Memory.wf s.mem = true →
    let v := s.reg rd
    (Completes (.mcrDrainWriteBuffer cond rd) s fun t =>
      t.writeBuffer = [] ∧ (∀ a, a < 2 ^ 32 → memGet t.mem a = s.dataByte a) ∧ Advances s t ∧ FlagsKept s t ∧
        RegsKept [] s t ∧ RestKept s { t with mem := s.mem, writeBuffer := s.writeBuffer }) ∧
    (Completes (.mcrCleanDCacheLine cond rd) s fun t => Advances s t ∧ FlagsKept s t ∧
      (s.findDLine v = none → Frame [] s t) ∧
      let dirty (l : DLine) (i : Nat) : Bool := if i < 16 then l.dirtyLo else l.dirtyHi
      let cleaned (l : DLine) : DLine := { l with dirtyLo := false, dirtyHi := false }
      let lines (mini : Bool) (t : State) : List (Nat × DLine) := if mini then t.miniDc.lines else t.dcache.lines
      let putClean (mini : Bool) (slot : Nat) (l : DLine) : Prop :=
        lines mini t = if l.isDirty then tblSet (lines mini s) slot (cleaned l) else lines mini s
      (∀ mini slot l, s.lineIn mini v = some (slot, l) → s.lineIn (!mini) v = none → l.bad = 0#32 →
        putClean mini slot l ∧ lines (!mini) t = lines (!mini) s ∧
          (∀ i, i < 32 → t.dataByte (l.paLine.toNat * 32 + i) =
            if dirty l i then l.data.getD i 0#8 else s.dataByte (l.paLine.toNat * 32 + i)) ∧
          (∀ a, a / 32 ≠ l.paLine.toNat → t.dataByte a = s.dataByte a)) ∧
      (∀ slot l slot' l', s.lineIn false v = some (slot, l) → s.lineIn true v = some (slot', l') →
        l.bad = 0#32 → l'.bad = 0#32 →
        putClean false slot l ∧ putClean true slot' l' ∧
          ∀ a, (t.dataByte a = l.data.getD (a % 32) 0#8 ∧ a / 32 = l.paLine.toNat ∧ dirty l (a % 32) = true) ∨
            (t.dataByte a = l'.data.getD (a % 32) 0#8 ∧ a / 32 = l'.paLine.toNat ∧ dirty l' (a % 32) = true) ∨
            (t.dataByte a = s.dataByte a ∧ ¬ (a / 32 = l.paLine.toNat ∧ dirty l (a % 32) = true) ∧
              ¬ (a / 32 = l'.paLine.toNat ∧ dirty l' (a % 32) = true))) ∧
      ((∀ mini p, s.lineIn mini v = some p → p.2.bad = 0#32) → Memory.wf t.mem = true ∧ RegsKept [] s t ∧
        RestKept s { t with mem := s.mem, writeBuffer := s.writeBuffer,
                            dcache := { t.dcache with lines := s.dcache.lines },
                            miniDc := { t.miniDc with lines := s.miniDc.lines } })) ∧
    (s.mmuOn = false → s.dcache = State.reset.dcache → s.miniDc.lines = [] →
      Completes (.mcrAllocateDLine cond rd) s fun t =>
        (∃ slot l, t.findDLine v = some (false, slot, l) ∧ l.dirtyLo = false ∧ l.dirtyHi = false) ∧
          t.writeBuffer = [] ∧ (∀ a, a < 2 ^ 32 → memGet t.mem a = s.dataByte a) ∧ Advances s t ∧ FlagsKept s t ∧
          RegsKept [] s t ∧ RestKept s { t with mem := s.mem, writeBuffer := s.writeBuffer, dcache := s.dcache })

/-- The TLB functions (45_cp15_cp14_operations.md R604 to R608; 21_mmu_caches_tlb.md R213): the global ones leave the
locked entries, the ones for an MVA remove its entry, locked or not. The model's readings: the effect, which R602 lets
come later, is there at once (log 17), and the pointers stay (derived in R604). -/
def Obligations.TlbFunctions : Prop :=
  ∀ (s : State) (cond : BitVec 4) (rd : RegNum), s.passes cond = true → s.privileged = true → rd ≠ 15#4 →
    let v := s.reg rd
    let emptied (a b : Tlb) : Prop :=
      (∀ p, p ∈ b.entries ↔ p ∈ a.entries ∧ p.1 < a.lock) ∧ b.rr = a.rr ∧ b.lock = a.lock
    let without (a b : Tlb) : Prop :=
      b.lookup v = none ∧ (∀ p, p ∈ b.entries ↔ p ∈ a.entries ∧ p.2.covers v = false) ∧ b.rr = a.rr ∧ b.lock = a.lock
    (Completes (.mcrInvIDTlb cond rd) s fun t => emptied s.itlb t.itlb ∧ emptied s.dtlb t.dtlb ∧ Advances s t ∧
      FlagsKept s t ∧ Frame [] s { t with itlb := s.itlb, dtlb := s.dtlb }) ∧
    (Completes (.mcrInvITlb cond rd) s fun t => emptied s.itlb t.itlb ∧ Advances s t ∧ FlagsKept s t ∧
      Frame [] s { t with itlb := s.itlb }) ∧
    (Completes (.mcrInvDTlb cond rd) s fun t => emptied s.dtlb t.dtlb ∧ Advances s t ∧ FlagsKept s t ∧
      Frame [] s { t with dtlb := s.dtlb }) ∧
    (Completes (.mcrInvITlbEntry cond rd) s fun t => without s.itlb t.itlb ∧ Advances s t ∧ FlagsKept s t ∧
      Frame [] s { t with itlb := s.itlb }) ∧
    (Completes (.mcrInvDTlbEntry cond rd) s fun t => without s.dtlb t.dtlb ∧ Advances s t ∧ FlagsKept s t ∧
      Frame [] s { t with dtlb := s.dtlb })

/-- The lock and unlock functions (45_cp15_cp14_operations.md R609 to R618; 21_mmu_caches_tlb.md R215, R229): where the
requirements of R229 hold, an instruction line of a cacheable page is locked into the first free way of its set while
fewer than 28 are locked, else it is put at the round-robin pointer, not locked; a section's translation put into a TLB
at the lock pointer; unlocking keeps what is valid; where a requirement fails, on a resident line, on a disabled cache
or MMU they have no meaning; a TLB lock of an address without a descriptor is a Lock Abort (60_exceptions.md R873). The
model's readings: the effects are there at once (log 17); the walk reads memory alone (log 22); how R229's requirements
are checked (log 54); a TLB lock checks the descriptor's validity alone (R615's decision D22). -/
def Obligations.LockFunctions : Prop :=
  ∀ (s : State) (cond : BitVec 4) (rd : RegNum), s.passes cond = true → s.privileged = true → rd ≠ 15#4 →
    let v := s.reg rd
    let l1 := s.firstLevel v
    let locks (a b : Tlb) : Prop :=
      (∃ e, tblGet b.entries (if a.lock ≤ 30 then a.lock else 31) = some e ∧ e.covers v = true ∧
        e.physical v = l1.extractLsb' 20 12 ++ v.extractLsb' 0 20) ∧
        b.lock = (if a.lock ≤ 30 then a.lock + 1 else a.lock) ∧ b.rr = 31
    let n := lockedOf s.icache.locked (setOf v)
    (∀ pa a u, s.mayLockCode = true → findILine s.icache.lines 32 v = none → s.physMap = [] →
      translate true (lineBase v) true false s = .ok (pa, a) u → a.c = true →
      Completes (.mcrLockILine cond rd) s fun t =>
        tblGet t.icache.lines (32 * setOf v + (if n < 28 then n else rrOf s.icache.rr (setOf v))) =
          some { tag := tagOf v, paLine := pa.extractLsb' 5 27, words := lineWords s.mem pa, bad := 0#8,
                 downloaded := false } ∧
          lockedOf t.icache.locked (setOf v) = (if n < 28 then n + 1 else n) ∧ t.itlb = u.itlb ∧ Advances s t ∧
          FlagsKept s t ∧ Frame [] s { t with icache := s.icache, itlb := s.itlb }) ∧
    (s.icacheOn = true → Completes (.mcrUnlockICache cond rd) s fun t => t.icache = { s.icache with locked := [] } ∧
      Advances s t ∧ FlagsKept s t ∧ Frame [] s { t with icache := s.icache }) ∧
    (s.dcacheOn = true → Completes (.mcrUnlockDCache cond rd) s fun t => t.dcache = { s.dcache with locked := [] } ∧
      Advances s t ∧ FlagsKept s t ∧ Frame [] s { t with dcache := s.dcache }) ∧
    (s.mmuOn = true → s.physMap = [] → l1.extractLsb' 0 2 = 2#2 → l1.getLsbD 9 = false →
      (s.itlb.lookup v = none → Completes (.mcrLockITlbEntry cond rd) s fun t => locks s.itlb t.itlb ∧ Advances s t ∧
        FlagsKept s t ∧ Frame [] s { t with itlb := s.itlb }) ∧
      (s.dtlb.lookup v = none → Completes (.mcrLockDTlbEntry cond rd) s fun t => locks s.dtlb t.dtlb ∧ Advances s t ∧
        FlagsKept s t ∧ Frame [] s { t with dtlb := s.dtlb })) ∧
    (s.mmuOn = true →
      (Completes (.mcrUnlockITlb cond rd) s fun t => t.itlb = { s.itlb with lock := 0 } ∧ Advances s t ∧
        FlagsKept s t ∧ Frame [] s { t with itlb := s.itlb }) ∧
      (Completes (.mcrUnlockDTlb cond rd) s fun t => t.dtlb = { s.dtlb with lock := 0 } ∧ Advances s t ∧
        FlagsKept s t ∧ Frame [] s { t with dtlb := s.dtlb })) ∧
    (s.mayLockCode = false ∨ (findILine s.icache.lines 32 v).isSome = true →
      exec (.mcrLockILine cond rd) s = .refused .lockFunction) ∧
    (s.icacheOn = false → exec (.mcrUnlockICache cond rd) s = .refused .lockFunction) ∧
    (s.dcacheOn = false → exec (.mcrUnlockDCache cond rd) s = .refused .lockFunction ∧
      exec (.mcrDCacheLock cond rd) s = .refused .lockFunction) ∧
    (s.mmuOn = false → ∀ i ∈ [Instr.mcrLockITlbEntry cond rd, .mcrLockDTlbEntry cond rd, .mcrUnlockITlb cond rd,
      .mcrUnlockDTlb cond rd], exec i s = .refused .lockFunction) ∧
    (s.mmuOn = true → s.noDebug = true → s.physMap = [] → l1.extractLsb' 0 2 = 0#2 →
      let aborts (i : Instr) : Prop :=
        Completes i s fun t => Entered .abt 0x10#32 (s.pc + 8#32) false s t ∧ t.cp15.fsr &&& 0xFFFFFF0F#32 = 0x404#32
      (s.itlb.lookup v = none → aborts (.mcrLockITlbEntry cond rd)) ∧
      (s.dtlb.lookup v = none → aborts (.mcrLockDTlbEntry cond rd)))

/-- LDC and STC of the registers of CP14, offset, pre-indexed and post-indexed (44_coprocessor.md R544, R548;
45_cp15_cp14_operations.md R631 to R642): a word moves between memory and the register CRd, which takes it as MCR writes
it and gives it as MRC reads it, then the base; no other register and no other byte changes. A register number that does
not exist, the long form, the unindexed form and write-back to R15 have no meaning. The model's choices: a 1 written to a
write-as-zero bit is dropped (log 12), CCLKCFG has no other effect (log 66), and TBREG loaded leaves the trace buffer and
its checkpoints open (log 56). -/
def Obligations.CoprocessorTransfers : Prop :=
  ∀ (s : State) (cond : BitVec 4) (u n w : Bool) (rn crd : BitVec 4) (off : BitVec 8),
    s.passes cond = true → s.privileged = true → s.plainData = true →
    let p := s.pmu
    let d := s.dbgUnit
    let pre := s.mode5 true u w rn off
    let post := s.mode5 false u true rn off
    let fits (ad : Address) : Prop := (ad.writes = true → rn ≠ 15#4) ∧ s.alignedFor ad.at_ 4 = true
    let ldc (crd : BitVec 4) : List (Instr × Address) :=
      [(.ldcOffset cond u false w rn crd 14#4 off, pre), (.ldcPost cond u false rn crd 14#4 off, post)]
    let stc (crd : BitVec 4) : List (Instr × Address) :=
      [(.stcOffset cond u false w rn crd 14#4 off, pre), (.stcPost cond u false rn crd 14#4 off, post)]
    let loads (crd : BitVec 4) (allows : Word → Prop) (P : Word → State → Prop) (undo : State → State) : Prop :=
      ∀ f ∈ ldc crd, fits f.2 → let v := s.loaded f.2.at_ 4
        allows v → Completes f.1 s fun t => P v t ∧ BaseIs rn f.2 t ∧ Advances s t ∧ FlagsKept s t ∧
          Frame (f.2.base rn) s (undo t)
    let stores (crd : BitVec 4) (value mask : Word) (P : State → Prop) (undo : State → State) : Prop :=
      ∀ f ∈ stc crd, fits f.2 → Completes f.1 s fun t =>
        (∃ v : Word, v &&& ~~~mask = value &&& ~~~mask ∧ Stored f.2.at_ 4 v s t) ∧ P t ∧ BaseIs rn f.2 t ∧
          Advances s t ∧ FlagsKept s t ∧ RegsKept (f.2.base rn) s t ∧ RestKeptButMemory s (undo t)
    let any (_ : Word) : Prop := True
    let monitor (crd : BitVec 4) (f : Word → Pmu) : Prop :=
      loads crd any (fun v t => t.pmu = f v) fun t => { t with pmu := p }
    let debugs (crd : BitVec 4) (f : Word → Debug) : Prop :=
      loads crd any (fun v t => t.dbgUnit = f v) fun t => { t with dbgUnit := d }
    let plainly (crd : BitVec 4) (value mask : Word) : Prop := stores crd value mask (fun _ => True) id
    monitor 0#4 (fun v => { p with
      pmnc := (v &&& 0x0FFFF079#32) ||| (p.pmnc &&& ~~~v &&& 0x700#32)
      ccnt := if v.getLsbD 2 then 0#32 else p.ccnt
      pmn0 := if v.getLsbD 1 then 0#32 else p.pmn0
      pmn1 := if v.getLsbD 1 then 0#32 else p.pmn1 }) ∧
    monitor 1#4 (fun v => { p with ccnt := v }) ∧ monitor 2#4 (fun v => { p with pmn0 := v }) ∧
    monitor 3#4 (fun v => { p with pmn1 := v }) ∧ monitor 6#4 (fun v => { p with cclkcfg := v.truncate 4 }) ∧
    loads 7#4 (fun v => v.extractLsb' 0 2 ≠ 2#2)
      (fun v t => (v.extractLsb' 0 2 = 0#2 → t.power = s.power ∧ t.pmu = p) ∧
        (v.extractLsb' 0 2 = 1#2 → t.power = .idle) ∧ (v.extractLsb' 0 2 = 3#2 → t.power = .sleep))
      (fun t => { t with power := s.power, pmu := p }) ∧
    debugs 8#4 (fun v => { d with tx := v, txrxctrl := d.txrxctrl ||| 0x10000000#32 }) ∧ debugs 9#4 (fun _ => d) ∧
    (s.debugLocked = false →
      loads 10#4 any
        (fun v t => t.dbgUnit = { d with dcsr := (d.dcsr &&& 0x7FFFFFC0#32) ||| (v &&& 0x8000003F#32) })
        (fun t => { t with dbgUnit := d, trace := s.trace })) ∧
    loads 11#4 any (fun _ _ => True)
      (fun t => { t with trace := s.trace, dbgUnit := { t.dbgUnit with chkpt0 := d.chkpt0, chkpt1 := d.chkpt1 } }) ∧
    debugs 12#4 (fun v => { d with chkpt0 := v }) ∧ debugs 13#4 (fun v => { d with chkpt1 := v }) ∧
    debugs 14#4 (fun v => { d with txrxctrl := (d.txrxctrl &&& 0xBFFFFFFF#32) ||| (v &&& 0x40000000#32) }) ∧
    plainly 0#4 p.pmnc 0xF0000886#32 ∧ plainly 1#4 p.ccnt 0#32 ∧ plainly 2#4 p.pmn0 0#32 ∧ plainly 3#4 p.pmn1 0#32 ∧
    plainly 6#4 (p.cclkcfg.zeroExtend 32) 0xFFFFFFF0#32 ∧ plainly 7#4 0#32 0xFFFFFFFC#32 ∧ plainly 8#4 d.tx 0#32 ∧
    stores 9#4 d.rx 0#32 (fun t => t.dbgUnit.txrxctrl = d.txrxctrl &&& 0x7FFFFFFF#32)
      (fun t => { t with dbgUnit := { t.dbgUnit with txrxctrl := d.txrxctrl } }) ∧
    (s.debugLocked = false → plainly 10#4 (d.dcsr &&& 0xC0DF003F#32) 0x3F20FFC0#32) ∧
    stores 11#4 (((tblGet s.trace.bytes s.trace.pos).getD 0#8).zeroExtend 32) 0#32
      (fun t => t.trace = { s.trace with bytes := tblErase s.trace.bytes s.trace.pos,
                                         pos := (s.trace.pos + 1) % 256 })
      (fun t => { t with trace := s.trace }) ∧
    plainly 12#4 d.chkpt0 0#32 ∧ plainly 13#4 d.chkpt1 0#32 ∧ plainly 14#4 (d.txrxctrl &&& 0xF0000000#32) 0#32 ∧
    (∀ f ∈ ldc crd ++ stc crd,
      (crd ∈ [4#4, 5#4, 15#4] → exec f.1 s = .refused .reservedCoprocessorRegister) ∧
      (crd ∉ [4#4, 5#4, 15#4] → f.2.writes = true → rn = 15#4 → exec f.1 s = .refused .r15Operand)) ∧
    (∀ f ∈ ldc 7#4, fits f.2 → (s.loaded f.2.at_ 4).extractLsb' 0 2 = 2#2 →
      exec f.1 s = .refused .reservedPowerMode) ∧
    (∀ i ∈ [Instr.ldcOffset cond u true w rn crd 14#4 off, .ldcPost cond u true rn crd 14#4 off,
            .stcOffset cond u true w rn crd 14#4 off, .stcPost cond u true rn crd 14#4 off,
            .ldcUnindexed cond n rn crd 14#4 off, .stcUnindexed cond n rn crd 14#4 off],
      exec i s = .refused .coprocessorTransferForm)

/-- The instructions of CP0 (44_coprocessor.md R550 to R557): the signed product of words, of both halves, or of one
half each, is added to the 40-bit accumulator modulo 2^40; MAR and MRA move it, the top byte sign-extended on the way
out; nothing else changes, no flag. R15 in either place of any of the eight, one register twice in MRA, and an
accumulator other than acc0 have no meaning. -/
def Obligations.Accumulator : Prop :=
  ∀ (s : State) (cond : BitVec 4) (rs rm : RegNum),
    s.passes cond = true → s.cp0Allowed = true →
    let all (acc : BitVec 3) : List Instr :=
      [.mia cond rs acc rm, .miaph cond rs acc rm, .miabb cond rs acc rm, .miabt cond rs acc rm, .miatb cond rs acc rm,
       .miatt cond rs acc rm, .mar cond rs rm acc, .mra cond rs rm acc]
    let half (w : Word) (top : Bool) : BitVec 40 := ((w >>> (if top then 16 else 0)).truncate 16).signExtend 40
    let m := s.reg rm
    let n := s.reg rs
    let adds (i : Instr) (p : BitVec 40) : Prop :=
      Completes i s fun t => t.acc0 = s.acc0 + p ∧ Advances s t ∧ FlagsKept s t ∧ Frame [] s { t with acc0 := s.acc0 }
    (rs ≠ 15#4 → rm ≠ 15#4 →
      adds (.mia cond rs 0#3 rm) (m.signExtend 40 * n.signExtend 40) ∧
      adds (.miaph cond rs 0#3 rm) (half m false * half n false + half m true * half n true) ∧
      adds (.miabb cond rs 0#3 rm) (half m false * half n false) ∧
      adds (.miabt cond rs 0#3 rm) (half m false * half n true) ∧
      adds (.miatb cond rs 0#3 rm) (half m true * half n false) ∧
      adds (.miatt cond rs 0#3 rm) (half m true * half n true) ∧
      (Completes (.mar cond rs rm 0#3) s fun t =>
        t.acc0 = n.truncate 8 ++ m ∧ Advances s t ∧ FlagsKept s t ∧ Frame [] s { t with acc0 := s.acc0 }) ∧
      (rs ≠ rm → Completes (.mra cond rs rm 0#3) s fun t =>
        t.reg rs = ((s.acc0 >>> 32).truncate 8).signExtend 32 ∧ t.reg rm = s.acc0.truncate 32 ∧ Advances s t ∧
          FlagsKept s t ∧ Frame [rs, rm] s t) ∧
      (rs = rm → exec (.mra cond rs rm 0#3) s = .refused .registerOverlap)) ∧
    (rs = 15#4 ∨ rm = 15#4 → ∀ i ∈ all 0#3, exec i s = .refused .r15Operand) ∧
    (∀ acc, acc ≠ 0#3 → ∀ i ∈ all acc, exec i s = .refused .cp0Encoding)

/-! ### Operands without a meaning -/

/-- The operands that the spec gives no meaning, instruction by instruction, and the name of the stop (30_encoding.md
R289, R296, R305; 41_multiply_dsp.md R401; 42_load_store.md R440, R470, R473; 44_coprocessor.md R546, R549): R15 where
it may not stand, register overlaps, addressing mode 3 with P = 0 and W = 1, other encodings of CP0, registers no table
lists. -/
def Obligations.OperandStops : Prop :=
  ∀ (s : State) (cond : BitVec 4) (p u w : Bool) (rn rd : RegNum) (am : Mode2) (off : Offset2) (off3 : Offset3)
    (list : BitVec 16) (r : Refusal) (rs rm rdHi rdLo : RegNum) (sf x y : Bool) (op2 : Op2) (op1 op2' : BitVec 3)
    (cp : BitVec 4),
    s.passes cond = true →
    (transferRefusal rn rd (mode2Rm am) (mode2Writes am) = some r →
      exec (.ldr cond rn rd am) s = .refused r ∧ exec (.str cond rn rd am) s = .refused r) ∧
    (rdRefusal rd (transferRefusal rn rd (mode2Rm am) (mode2Writes am)) = some r →
      exec (.ldrb cond rn rd am) s = .refused r ∧ exec (.strb cond rn rd am) s = .refused r) ∧
    (rdRefusal rd (transferRefusal rn rd (offset2Rm off) true) = some r →
      exec (.ldrt cond rn rd off) s = .refused r ∧ exec (.ldrbt cond rn rd off) s = .refused r ∧
      exec (.strt cond rn rd off) s = .refused r ∧ exec (.strbt cond rn rd off) s = .refused r) ∧
    (mode3Refusal p w rn rd off3 = some r →
      exec (.ldrh cond p u w rn rd off3) s = .refused r ∧ exec (.strh cond p u w rn rd off3) s = .refused r ∧
      exec (.ldrsb cond p u w rn rd off3) s = .refused r ∧ exec (.ldrsh cond p u w rn rd off3) s = .refused r) ∧
    (rd.getLsbD 0 = false → doubleRefusal p w rn rd off3 = some r →
      exec (.ldrd cond p u w rn rd off3) s = .refused r ∧ exec (.strd cond p u w rn rd off3) s = .refused r) ∧
    (listRefusal rn (listRegs list) = some r →
      exec (.ldm1 cond p u w rn list) s = .refused r ∧ exec (.stm1 cond p u w rn list) s = .refused r ∧
      exec (.stm2 cond p u w rn list) s = .refused r) ∧
    (listRefusal rn (listRegs list) = none → w = true ∨ s.lacksSpsr = true →
      exec (.stm2 cond p u w rn list) s = .refused .userBankTransfer) ∧
    (listRefusal rn (listRegs list) = none → w = true → (listRegs list).contains rn = true →
      exec (.ldm1 cond p u w rn list) s = .refused .registerOverlap) ∧
    (op2Allowed op2 rn rd = false →
      ∀ i ∈ [Instr.and cond sf rn rd op2, .eor cond sf rn rd op2, .sub cond sf rn rd op2, .rsb cond sf rn rd op2,
             .add cond sf rn rd op2, .adc cond sf rn rd op2, .sbc cond sf rn rd op2, .rsc cond sf rn rd op2,
             .orr cond sf rn rd op2, .bic cond sf rn rd op2], exec i s = .refused .r15Operand) ∧
    (op2Allowed op2 0#4 rd = false →
      ∀ i ∈ [Instr.mov cond sf rd op2, .mvn cond sf rd op2], exec i s = .refused .r15Operand) ∧
    (op2Allowed op2 rn 0#4 = false →
      ∀ i ∈ [Instr.tst cond rn op2, .teq cond rn op2, .cmp cond rn op2, .cmn cond rn op2],
        exec i s = .refused .r15Operand) ∧
    (15#4 ∈ [rd, rs, rm] →
      ∀ i ∈ [Instr.mul cond sf rd rs rm, .smulXY cond rd rs y x rm, .smulWY cond rd rs y rm, .qadd cond rs rd rm,
             .qsub cond rs rd rm, .qdadd cond rs rd rm, .qdsub cond rs rd rm], exec i s = .refused .r15Operand) ∧
    (15#4 ∈ [rd, rn, rs, rm] →
      ∀ i ∈ [Instr.mla cond sf rd rn rs rm, .smlaXY cond rd rn rs y x rm, .smlaWY cond rd rn rs y rm],
        exec i s = .refused .r15Operand) ∧
    (let longs : List Instr :=
        [.umull cond sf rdHi rdLo rs rm, .umlal cond sf rdHi rdLo rs rm, .smull cond sf rdHi rdLo rs rm,
         .smlal cond sf rdHi rdLo rs rm, .smlalXY cond rdHi rdLo rs y x rm]
     (15#4 ∈ [rdHi, rdLo, rs, rm] → ∀ i ∈ longs, exec i s = .refused .r15Operand) ∧
     (15#4 ∉ [rdHi, rdLo, rs, rm] → rdHi = rdLo → ∀ i ∈ longs, exec i s = .refused .registerOverlap)) ∧
    (s.cp0Allowed = true →
      ∀ i ∈ [Instr.cdp cond rn rd rs 0#4 op2' rm, .mcr cond op1 rn rd 0#4 op2' rm, .mrc cond op1 rn rd 0#4 op2' rm,
             .mcrr cond rn rd 0#4 rs rm, .mrrc cond rn rd 0#4 rs rm], exec i s = .refused .cp0Encoding) ∧
    (s.privileged = true → cp = 14#4 ∨ cp = 15#4 →
      exec (.mcr cond op1 rn rd cp op2' rm) s = .refused .reservedCoprocessorRegister ∧
      (cp = 14#4 → exec (.mrc cond op1 rn rd cp op2' rm) s = .refused .reservedCoprocessorRegister) ∧
      exec (.mrc cond op1 7#4 rd 15#4 op2' rm) s = .refused .writeOnlyRegister) ∧
    (s.privileged = true →
      ∀ i ∈ [Instr.mcrId cond 15#4, .mcrCacheType cond 15#4, .mcrControl cond 15#4, .mcrAuxControl cond 15#4,
             .mcrTtb cond 15#4, .mcrDacr cond 15#4, .mcrFsr cond 15#4, .mcrFar cond 15#4, .mcrInvIDCacheBtb cond 15#4,
             .mcrInvICacheBtb cond 15#4, .mcrInvICacheLine cond 15#4, .mcrInvDCache cond 15#4,
             .mcrInvDCacheLine cond 15#4, .mcrCleanDCacheLine cond 15#4, .mcrDrainWriteBuffer cond 15#4,
             .mcrInvBtb cond 15#4, .mcrAllocateDLine cond 15#4, .mcrInvIDTlb cond 15#4, .mcrInvITlb cond 15#4,
             .mcrInvITlbEntry cond 15#4, .mcrInvDTlb cond 15#4, .mcrInvDTlbEntry cond 15#4, .mcrLockILine cond 15#4,
             .mcrUnlockICache cond 15#4, .mcrDCacheLock cond 15#4, .mcrUnlockDCache cond 15#4,
             .mcrLockITlbEntry cond 15#4, .mcrLockDTlbEntry cond 15#4, .mcrUnlockITlb cond 15#4,
             .mcrUnlockDTlb cond 15#4, .mcrPid cond 15#4, .mcrIbcr0 cond 15#4, .mcrIbcr1 cond 15#4,
             .mcrDbr0 cond 15#4, .mcrDbr1 cond 15#4, .mcrDbcon cond 15#4, .mcrCpar cond 15#4, .mcrPmnc cond 15#4,
             .mcrCcnt cond 15#4, .mcrPmn0 cond 15#4, .mcrPmn1 cond 15#4, .mcrCclkcfg cond 15#4, .mcrPwrmode cond 15#4,
             .mcrTx cond 15#4, .mcrRx cond 15#4, .mcrDcsr cond 15#4, .mcrTbreg cond 15#4, .mcrChkpt0 cond 15#4,
             .mcrChkpt1 cond 15#4, .mcrTxrxctrl cond 15#4],
        exec i s = .refused .r15Operand)

/-! ### Thumb state -/

/-- The Thumb shifts, logical operations, MOV of an immediate and MUL (46_thumb.md R664, R670 to R672, R677, R681 to
R685, R688, R689, R693 to R696): N and Z from the result, V kept; C the last bit shifted out of a shift (the functions
are those of ShifterOperand), else kept; TST writes no register. That Rd of MUL may be Rm is the model's choice (R694's
decision D20; log 28). -/
def Obligations.ThumbShiftsAndLogic : Prop :=
  ∀ (s : State) (imm5 : BitVec 5) (rs rm rd : BitVec 3) (imm8 : BitVec 8),
    let r (k : BitVec 3) : Word := s.reg (lowReg k)
    let sets (i : Instr) (dest : List RegNum) (v : Word) : Prop :=
      Completes i s fun t => (∀ k ∈ dest, t.reg k = v) ∧ Advances s t ∧ Frame dest s t ∧
        FlagsAre v.msb (decide (v = 0#32)) s.flagC s.flagV s t
    let n := ((s.reg (lowReg rs)).extractLsb' 0 8).toNat
    let gives (i : Instr) (o : Shifted) : Prop :=
      Completes i s fun t => t.reg (lowReg rd) = o.value ∧ Advances s t ∧ Frame [lowReg rd] s t ∧
        FlagsAre o.value.msb (decide (o.value = 0#32)) o.carry s.flagV s t
    gives (.tLsl1 imm5 rm rd) (s.operand2 (.shift imm5 0#2 (lowReg rm))) ∧
    gives (.tLsr1 imm5 rm rd) (s.operand2 (.shift imm5 1#2 (lowReg rm))) ∧
    gives (.tAsr1 imm5 rm rd) (s.operand2 (.shift imm5 2#2 (lowReg rm))) ∧
    gives (.tLsl2 rs rd) (regShift 0#2 n (s.reg (lowReg rd)) s.flagC) ∧
    gives (.tLsr2 rs rd) (regShift 1#2 n (s.reg (lowReg rd)) s.flagC) ∧
    gives (.tAsr2 rs rd) (regShift 2#2 n (s.reg (lowReg rd)) s.flagC) ∧
    gives (.tRor rs rd) (regShift 3#2 n (s.reg (lowReg rd)) s.flagC) ∧
    sets (.tMov1 rd imm8) [lowReg rd] (imm8.zeroExtend 32) ∧
    sets (.tAnd rm rd) [lowReg rd] (r rd &&& r rm) ∧ sets (.tEor rm rd) [lowReg rd] (r rd ^^^ r rm) ∧
    sets (.tOrr rm rd) [lowReg rd] (r rd ||| r rm) ∧ sets (.tBic rm rd) [lowReg rd] (r rd &&& ~~~(r rm)) ∧
    sets (.tMvn rm rd) [lowReg rd] (~~~(r rm)) ∧ sets (.tMul rm rd) [lowReg rd] (r rd * r rm) ∧
    sets (.tTst rm rd) [] (r rd &&& r rm)

/-- The Thumb additions, subtractions and comparisons (46_thumb.md R664, R673 to R676, R678 to R680, R686, R687, R690 to
R692): the wrapped result, C as carry or "no borrow", V as signed overflow; the comparisons write no register. -/
def Obligations.ThumbArithmetic : Prop :=
  ∀ (s : State) (imm3 rm rn rd : BitVec 3) (imm8 : BitVec 8),
    let r (k : BitVec 3) : Word := s.reg (lowReg k)
    let c := bit s.flagC
    let b := 1 - c
    let sets (i : Instr) (dest : List RegNum) (v : Word) (carry : Bool) (exact : Int) : Prop :=
      Completes i s fun t => (∀ k ∈ dest, t.reg k = v) ∧ Advances s t ∧ Frame dest s t ∧
        FlagsAre v.msb (decide (v = 0#32)) carry (decide (v.toInt ≠ exact)) s t
    let plus (i : Instr) (dest : List RegNum) (x y : Word) : Prop :=
      sets i dest (x + y) (decide (2 ^ 32 ≤ x.toNat + y.toNat)) (x.toInt + y.toInt)
    let minus (i : Instr) (dest : List RegNum) (x y : Word) : Prop :=
      sets i dest (x - y) (decide (y.toNat ≤ x.toNat)) (x.toInt - y.toInt)
    plus (.tAdd3 rm rn rd) [lowReg rd] (r rn) (r rm) ∧ minus (.tSub3 rm rn rd) [lowReg rd] (r rn) (r rm) ∧
    plus (.tAdd1 imm3 rn rd) [lowReg rd] (r rn) (imm3.zeroExtend 32) ∧
    minus (.tSub1 imm3 rn rd) [lowReg rd] (r rn) (imm3.zeroExtend 32) ∧
    plus (.tAdd2 rd imm8) [lowReg rd] (r rd) (imm8.zeroExtend 32) ∧
    minus (.tSub2 rd imm8) [lowReg rd] (r rd) (imm8.zeroExtend 32) ∧
    sets (.tAdc rm rd) [lowReg rd] (r rd + r rm + BitVec.ofNat 32 c)
      (decide (2 ^ 32 ≤ (r rd).toNat + (r rm).toNat + c)) ((r rd).toInt + (r rm).toInt + c) ∧
    sets (.tSbc rm rd) [lowReg rd] (r rd - r rm - BitVec.ofNat 32 b)
      (decide ((r rm).toNat + b ≤ (r rd).toNat)) ((r rd).toInt - (r rm).toInt - b) ∧
    minus (.tNeg rm rd) [lowReg rd] 0#32 (r rm) ∧
    minus (.tCmp1 rn imm8) [] (r rn) (imm8.zeroExtend 32) ∧ minus (.tCmp2 rm rn) [] (r rn) (r rm) ∧
    plus (.tCmn rm rn) [] (r rn) (r rm)

/-- The Thumb high-register operations and address forms (46_thumb.md R700 to R702, R722 to R725;
43_branch_status_system.md R520): ADD and MOV write no flag, a result for R15 is a branch that keeps T; CMP writes the
flags; both registers low have no meaning; the address forms add four times the immediate to the PC's word address or to
SP, or move SP. -/
def Obligations.ThumbHighRegisters : Prop :=
  ∀ (s : State) (h1 h2 : Bool) (rm rd : BitVec 3) (imm8 : BitVec 8) (imm7 : BitVec 7),
    let d : RegNum := BitVec.ofBool h1 ++ rd
    let x := s.reg d
    let y := s.reg (BitVec.ofBool h2 ++ rm)
    let gives (i : Instr) (v : Word) : Prop :=
      (d ≠ 15#4 → Completes i s fun t => t.reg d = v ∧ Advances s t ∧ FlagsKept s t ∧ Frame [d] s t) ∧
      (d = 15#4 → Completes i s fun t => t.pc = v &&& 0xFFFFFFFE#32 ∧ FlagsKept s t ∧ Frame [] s t)
    (h1 = true ∨ h2 = true →
      gives (.tAdd4 h1 h2 rm rd) (x + y) ∧ gives (.tMov3 h1 h2 rm rd) y ∧
      (d ≠ 15#4 → Completes (.tCmp3 h1 h2 rm rd) s fun t => Advances s t ∧ Frame [] s t ∧
        FlagsAre (x - y).msb (decide (x - y = 0#32)) (decide (y.toNat ≤ x.toNat))
          (decide ((x - y).toInt ≠ x.toInt - y.toInt)) s t) ∧
      (d = 15#4 → exec (.tCmp3 h1 h2 rm rd) s = .refused .r15Operand)) ∧
    (h1 = false → h2 = false → ∀ i ∈ [Instr.tAdd4 h1 h2 rm rd, .tCmp3 h1 h2 rm rd, .tMov3 h1 h2 rm rd],
      exec i s = .refused .lowRegisters) ∧
    (s.thumb = true →
      let puts (i : Instr) (d : RegNum) (v : Word) : Prop :=
        Completes i s fun t => t.reg d = v ∧ Advances s t ∧ FlagsKept s t ∧ Frame [d] s t
      let times4 {n : Nat} (x : BitVec n) : Word := BitVec.ofNat 32 (4 * x.toNat)
      puts (.tAdd5 rd imm8) (lowReg rd) (((s.pc + 4#32) &&& 0xFFFFFFFC#32) + times4 imm8) ∧
      puts (.tAdd6 rd imm8) (lowReg rd) (s.reg 13#4 + times4 imm8) ∧
      puts (.tAdd7 imm7) 13#4 (s.reg 13#4 + times4 imm7) ∧ puts (.tSub4 imm7) 13#4 (s.reg 13#4 - times4 imm7))

/-- The Thumb loads of one register (46_thumb.md R665, R706, R708, R710, R714 to R719, R721): from a register plus a
register or a scaled immediate, the PC's word address, or SP. -/
def Obligations.ThumbLoads : Prop :=
  ∀ (s : State) (imm5 : BitVec 5) (imm8 : BitVec 8) (rm rn rd : BitVec 3),
    s.thumb = true → s.plainData = true →
    let base := s.reg (lowReg rn)
    let index := base + s.reg (lowReg rm)
    let scaled (k : Nat) : Word := base + BitVec.ofNat 32 (k * imm5.toNat)
    let loads (i : Instr) (a : Word) (n : Nat) (v : Word) : Prop :=
      s.alignedFor a n = true →
      Completes i s fun t => t.reg (lowReg rd) = v ∧ Advances s t ∧ FlagsKept s t ∧ Frame [lowReg rd] s t
    let word (i : Instr) (a : Word) : Prop := loads i a 4 ((s.loaded a 4).rotateRight (8 * (a.toNat % 4)))
    word (.tLdr1 imm5 rn rd) (scaled 4) ∧ word (.tLdr2 rm rn rd) index ∧
    word (.tLdr3 rd imm8) (((s.pc + 4#32) &&& 0xFFFFFFFC#32) + BitVec.ofNat 32 (4 * imm8.toNat)) ∧
    word (.tLdr4 rd imm8) (s.reg 13#4 + BitVec.ofNat 32 (4 * imm8.toNat)) ∧
    loads (.tLdrh1 imm5 rn rd) (scaled 2) 2 (s.loaded (scaled 2) 2) ∧
    loads (.tLdrh2 rm rn rd) index 2 (s.loaded index 2) ∧
    loads (.tLdrb1 imm5 rn rd) (scaled 1) 1 (s.loaded (scaled 1) 1) ∧
    loads (.tLdrb2 rm rn rd) index 1 (s.loaded index 1) ∧
    loads (.tLdrsb rm rn rd) index 1 (((s.loaded index 1).truncate 8).signExtend 32) ∧
    loads (.tLdrsh rm rn rd) index 2 (((s.loaded index 2).truncate 16).signExtend 32)

/-- The Thumb stores of one register (46_thumb.md R665, R705, R707, R709, R711 to R713, R720): the low bytes of Rd, and
no other byte or register. -/
def Obligations.ThumbStores : Prop :=
  ∀ (s : State) (imm5 : BitVec 5) (imm8 : BitVec 8) (rm rn rd : BitVec 3), s.plainData = true →
    let base := s.reg (lowReg rn)
    let index := base + s.reg (lowReg rm)
    let scaled (k : Nat) : Word := base + BitVec.ofNat 32 (k * imm5.toNat)
    let stores (i : Instr) (a : Word) (n : Nat) : Prop :=
      s.alignedFor a n = true →
      Completes i s fun t => Stored a n (s.reg (lowReg rd)) s t ∧ Advances s t ∧ FlagsKept s t ∧ RegsKept [] s t ∧
        RestKeptButMemory s t
    stores (.tStr1 imm5 rn rd) (scaled 4) 4 ∧ stores (.tStr2 rm rn rd) index 4 ∧
    stores (.tStr3 rd imm8) (s.reg 13#4 + BitVec.ofNat 32 (4 * imm8.toNat)) 4 ∧
    stores (.tStrh1 imm5 rn rd) (scaled 2) 2 ∧ stores (.tStrh2 rm rn rd) index 2 ∧
    stores (.tStrb1 imm5 rn rd) (scaled 1) 1 ∧ stores (.tStrb2 rm rn rd) index 1

/-- PUSH, POP, STMIA and LDMIA (46_thumb.md R726 to R729): the registers of the list, rising, R14 last for PUSH and R15
last for POP; SP or the base moves by the length; LDMIA of its own base keeps the loaded value, POP of R15 selects the
state; an empty list has no meaning. -/
def Obligations.ThumbMultiple : Prop :=
  ∀ (s : State) (r : Bool) (rn : BitVec 3) (list : BitVec 8), s.plainData = true →
    let low := listRegs (list.zeroExtend 16)
    let k := low.length + bit r
    let sp := s.reg 13#4
    let base := s.reg (lowReg rn)
    let top := sp - BitVec.ofNat 32 (4 * k)
    let at_ (a : Word) (j : Nat) : Word := a + BitVec.ofNat 32 (4 * j)
    let fits (a : Word) (n : Nat) : Prop :=
      s.alignedFor a 4 = true ∧ a.toNat / 4 + n ≤ 2 ^ 30 ∧
        ∀ j, j < n → s.mva (at_ a j) = s.mva a + BitVec.ofNat 32 (4 * j)
    (list ≠ 0#8 ∨ r = true → fits top k → Completes (.tPush r list) s fun t =>
      StoredWords ((low ++ if r then [14#4] else []).mapIdx fun j q => (at_ top j, some (s.reg q))) s t ∧
        t.reg 13#4 = top ∧ Advances s t ∧ FlagsKept s t ∧ RegsKept [13#4] s t ∧ RestKeptButMemory s t) ∧
    (list ≠ 0#8 → fits base low.length → Completes (.tStmia rn list) s fun t =>
      StoredWords (low.mapIdx fun j q =>
          (at_ base j, if q == lowReg rn && decide (j ≠ 0) then none else some (s.reg q))) s t ∧
        t.reg (lowReg rn) = at_ base low.length ∧ Advances s t ∧ FlagsKept s t ∧ RegsKept [lowReg rn] s t ∧
        RestKeptButMemory s t) ∧
    (list ≠ 0#8 → fits base low.length → Completes (.tLdmia rn list) s fun t =>
      (∀ j q, low[j]? = some q → t.reg q = s.loaded (at_ base j) 4) ∧
        (low.contains (lowReg rn) = false → t.reg (lowReg rn) = at_ base low.length) ∧ Advances s t ∧ FlagsKept s t ∧
        Frame (lowReg rn :: low) s t) ∧
    (list ≠ 0#8 ∨ r = true → fits sp k →
      let v := s.loaded (at_ sp low.length) 4
      (r = false → Completes (.tPop r list) s fun t =>
        (∀ j q, low[j]? = some q → t.reg q = s.loaded (at_ sp j) 4) ∧ t.reg 13#4 = at_ sp k ∧ Advances s t ∧
          FlagsKept s t ∧ Frame (13#4 :: low) s t) ∧
      (r = true → v.extractLsb' 0 2 ≠ 2#2 → Completes (.tPop r list) s fun t =>
        (∀ j q, low[j]? = some q → t.reg q = s.loaded (at_ sp j) 4) ∧ t.reg 13#4 = at_ sp k ∧ Interworks v s t ∧
          Frame (13#4 :: low) s t)) ∧
    (∀ i ∈ [Instr.tPush false 0#8, .tPop false 0#8, .tStmia rn 0#8, .tLdmia rn 0#8],
      exec i s = .refused .registerOverlap)

/-- The Thumb branches (46_thumb.md R703, R704, R730, R740 to R743): the conditional ones on the four flags, the two
halves of a long call through R14, BX and BLX by bit 0 of the register; R14 of a call has bit 0 set. That the second
half clears bit 0 of its target is read from R662 (log 50). -/
def Obligations.ThumbBranches : Prop :=
  ∀ (s : State) (lo : BitVec 3) (mid : BitVec 2) (hi h2 : Bool) (imm8 : BitVec 8) (imm11 : BitVec 11) (imm10 : BitVec 10)
    (rm : BitVec 3), s.thumb = true →
    let here := s.pc + 4#32
    let link := (s.pc + 2#32) ||| 1#32
    let lr := s.reg 14#4
    let r : RegNum := BitVec.ofBool h2 ++ rm
    let v := s.reg r
    let conditional (i : Instr) (cond : BitVec 4) : Prop :=
      Completes i s fun t =>
        t.pc = (if s.passes cond then here + (imm8 ++ 0#1).signExtend 32 else s.pc + 2#32) ∧ FlagsKept s t ∧
          Frame [] s { t with btb := s.btb }
    conditional (.tB1Low lo imm8) (0#1 ++ lo) ∧ conditional (.tB1Mid mid imm8) (0b10#2 ++ mid) ∧
    conditional (.tB1High hi imm8) (0b110#3 ++ BitVec.ofBool hi) ∧
    (Completes (.tB2 imm11) s fun t => t.pc = here + (imm11 ++ 0#1).signExtend 32 ∧ FlagsKept s t ∧
      Frame [] s { t with btb := s.btb }) ∧
    (Completes (.tBlPrefix imm11) s fun t => t.reg 14#4 = here + (imm11 ++ 0#12).signExtend 32 ∧
      t.pc = s.pc + 2#32 ∧ FlagsKept s t ∧ Frame [14#4] s t) ∧
    (Completes (.tBlSuffix imm11) s fun t =>
      t.pc = (lr + BitVec.ofNat 32 (2 * imm11.toNat)) &&& 0xFFFFFFFE#32 ∧ t.reg 14#4 = link ∧ FlagsKept s t ∧
        Frame [14#4] s { t with btb := s.btb }) ∧
    (Completes (.tBlxSuffix imm10) s fun t =>
      t.pc = (lr + BitVec.ofNat 32 (4 * imm10.toNat)) &&& 0xFFFFFFFC#32 ∧ t.reg 14#4 = link ∧ t.thumb = false ∧
        t.cpsr &&& 0xFFFFFFDF#32 = s.cpsr &&& 0xFFFFFFDF#32 ∧ Frame [14#4] s t) ∧
    (v.extractLsb' 0 2 ≠ 2#2 →
      (Completes (.tBx h2 rm) s fun t => Interworks v s t ∧ Frame [] s t) ∧
      (r ≠ 15#4 → Completes (.tBlx2 h2 rm) s fun t =>
        Interworks v s t ∧ t.bankReg s.mode 14#4 = link ∧ Frame [14#4] s t)) ∧
    (v.extractLsb' 0 2 = 2#2 → exec (.tBx h2 rm) s = .refused .unalignedTarget) ∧
    exec (.tBlx2 true 7#3) s = .refused .r15Operand

/-! ### Reset -/

/-- The machine after reset (10_state.md R100; 70_reset_and_hazards.md R941, R942, R945, R946): Supervisor mode in ARM
state with both interrupts masked, the PC at 0, the CP15 and CP14 registers that have a reset value at it, caches, branch
target buffer and write buffer empty, the round-robin pointers of the TLBs and of the two 32-way caches at 31 and no TLB
entry locked. That the two fetch buffers are empty, to which the spec gives no value at reset, is the model's choice
(log 19). -/
def Obligations.ResetState : Prop :=
  let r := State.reset
  r.pc = 0#32 ∧ r.mode = .svc ∧ r.maskI = true ∧ r.maskF = true ∧ r.thumb = false ∧
    r.cp15.control = 0x78#32 ∧ r.cp15.auxControl &&& 0x33#32 = 0#32 ∧ r.cp15.pid = 0#32 ∧ r.cp15.cpar = 0#32 ∧
    r.cp15.dbcon = 0#32 ∧ r.cp15.dcacheLock = false ∧ r.cp15.ibcr0.getLsbD 0 = false ∧
    r.cp15.ibcr1.getLsbD 0 = false ∧ r.pmu.pmnc &&& 0x71#32 = 0#32 ∧ r.power = .active ∧
    r.dbgUnit.dcsr &&& 0xC0DF003F#32 = 0#32 ∧ r.dbgUnit.txrxctrl = 0#32 ∧
    r.icache.lines = [] ∧ r.miniIc.lines = [] ∧ r.dcache.lines = [] ∧ r.miniDc.lines = [] ∧ r.fetchBuffers = [] ∧
    r.writeBuffer = [] ∧ r.btb = [] ∧
    (∀ set, rrOf r.icache.rr set = 31 ∧ lockedOf r.icache.locked set = 0 ∧
      rrOf r.dcache.rr set = 31 ∧ lockedOf r.dcache.locked set = 0) ∧
    r.itlb.rr = 31 ∧ r.itlb.lock = 0 ∧ r.dtlb.rr = 31 ∧ r.dtlb.lock = 0

/-- The invariants of the machine hold after reset. -/
def Obligations.ResetInvariants : Prop :=
  State.reset.memoryInv ∧ State.reset.modeInv ∧ State.reset.fixedBitsInv

/-- The reset pin (70_reset_and_hazards.md R940, R941, R944, R945, R947; 48_debug_jtag.md R772, R830): its step puts the
core into reset. The registers with a reset value have it, caches and buffers are empty but for the instruction caches
in LDIC mode and the mini instruction cache in Halt mode, locks are undone and the round-robin pointers at their reset
values; memory, the debugger's bits of DCSR, the trace bytes and the test port stay, but that DBG_REG[33:2] is open. The
model's choices: the values are applied when the pin is asserted (log 33); general registers and SPSRs, which R941 leaves
open, stay (log 1, 2); the two fetch buffers are empty, in LDIC mode too (log 19); the pointers of a mini cache that is
invalidated are at way 0 (log 7); those of the instruction cache are at way 31 in LDIC mode too (log 33). -/
def Obligations.ProcessorReset : Prop :=
  ∀ (s : State) (rest : List Turn), s.schedule = .outside (.resetPin true) :: rest → s.power ≠ .sleep →
    s.powerFault = false → ∃ t, step s = .next t ∧ t.inReset = true ∧ t.resetPin = true ∧ t.schedule = rest ∧
      t.pc = 0#32 ∧ t.mode = .svc ∧ t.thumb = false ∧
      t.maskI = true ∧ t.maskF = true ∧ t.cp15.control = 0x78#32 ∧ t.cp15.auxControl &&& 0x33#32 = 0#32 ∧ t.cp15.pid = 0#32 ∧
      t.cp15.cpar = 0#32 ∧
      t.cp15.dbcon = 0#32 ∧ t.cp15.dcacheLock = false ∧ t.cp15.ibcr0.getLsbD 0 = false ∧
      t.cp15.ibcr1.getLsbD 0 = false ∧ t.pmu.pmnc &&& 0x71#32 = 0#32 ∧ t.dbgUnit.dcsr &&& 0x8000003F#32 = 0#32 ∧
      (∀ i ∈ [16, 17, 18, 19, 20, 22, 23, 30], t.dbgUnit.dcsr.getLsbD i = s.dbgUnit.dcsr.getLsbD i) ∧
      t.dbgUnit.txrxctrl = 0#32 ∧ t.dbgUnit.sds = false ∧ t.pendingAbort = none ∧ t.asyncWait = none ∧
      t.bankHazard = false ∧ t.power = .active ∧
      t.dcache = State.reset.dcache ∧ t.miniDc = State.reset.miniDc ∧ t.writeBuffer = [] ∧ t.btb = [] ∧
      t.fetchBuffers = [] ∧ (∀ set, lockedOf t.icache.locked set = 0 ∧ rrOf t.icache.rr set = 31) ∧
      (s.ldicMode = false → t.icache = State.reset.icache ∧ (s.haltMode = false → t.miniIc = State.reset.miniIc)) ∧
      (s.ldicMode = true → t.icache.lines = s.icache.lines) ∧
      (s.ldicMode = true ∨ s.haltMode = true → t.miniIc = s.miniIc) ∧
      t.itlb.lock = 0 ∧ t.dtlb.lock = 0 ∧ t.itlb.rr = 31 ∧ t.dtlb.rr = 31 ∧
      t.gpr = s.gpr ∧ t.spsr = s.spsr ∧ t.mem = s.mem ∧ t.trace.bytes = s.trace.bytes ∧
      t.jtag = { s.jtag with dbgReg := t.jtag.dbgReg } ∧
      ∀ i ∈ [0, 1, 34], t.jtag.dbgReg.getLsbD i = s.jtag.dbgReg.getLsbD i

/-! ### The step -/

/-- A step runs the decoded instruction (00_scope.md R18; 20_memory.md R153; 10_state.md R27): where nothing else
happens and the fetch is plain, the step is exec of the instruction at the PC, in the state whose notes are cleared and
whose fetch buffer holds the line, with the turn taken off the schedule; what follows exec leaves its answer as it is
unless a data breakpoint was hit, DEBUG mode is involved, or the PC ran past the top. -/
def Obligations.StepRunsDecoded : Prop :=
  ∀ (s : State) (i : Instr), s.quiet = true → s.plainFetch = true → s.decodeFetched s.fetchedWord = .instr i →
    let line : FetchBuffer :=
      { line := (s.mva s.pc).extractLsb' 5 27, paLine := (s.mva s.pc).extractLsb' 5 27,
        words := lineWords s.mem (s.mva s.pc) }
    let s0 : State := { s with schedule := s.schedule.tail, scratch := Scratch.clear }
    let s1 : State := { s0 with scratch := { Scratch.clear with icacheMiss := 1 }, fetchBuffers := [line] }
    step s = endInstr s0 (exec i s1) ∧
      ∀ t, exec i s1 = .next t → t.scratch.dataBreak = false → s.mode ≠ .dbg → t.mode ≠ .dbg →
        s.tracing = false → ranPastTop s t = false → s.pmu.pmnc.getLsbD 0 = false → step s = .next t

/-- The events at the boundary before an instruction (60_exceptions.md R863, R875, R880 to R882, R890, R891;
48_debug_jtag.md R792): an imprecise abort that is due comes first, then FIQ, then IRQ, where they are asserted and not
masked; masked ones are not taken. An interrupt that is pending is taken when its wait is over, and while the wait lasts
the instruction goes on; that the wait is a number drawn at the first boundary that sees it pending is the model's
choice (log 15). -/
def Obligations.BoundaryEvents : Prop :=
  ∀ (s : State) (code : BitVec 5), s.schedule = [] → s.inReset = false → s.power = .active →
    s.dbgUnit.resetTrap = false → s.noDebug = true → s.mode ≠ .dbg → s.bankHazard = false → s.writeBuffer = [] →
    s.pmu.pmnc.getLsbD 0 = false →
    let fiq := s.fiqLevel && !s.maskF
    let irq := s.irqLevel && !s.maskI
    let goesOn (w : Option Nat) : Prop := ∃ k,
      boundary s.beginStep = ({ s.holdBreak with scratch := Scratch.clear, freeCtr := k, asyncWait := w }, false)
    let takes (m : Mode) (vector : Word) (setF : Bool) : Prop := ∃ t, step s = .next t ∧ t.asyncWait = none ∧
      Entered m vector (s.pc + 4#32) setF s { t with asyncWait := s.asyncWait } ∧ t.cp15 = s.cp15
    let taken : Prop := if fiq then takes .fiq 0x1C#32 true else takes .irq 0x18#32 false
    (s.pendingAbort = some { code := code, wait := 0 } → ∃ t, step s = .next t ∧ t.pendingAbort = none ∧
      Entered .abt 0x10#32 (s.pc + 4#32) false s { t with pendingAbort := s.pendingAbort } ∧
      t.cp15.fsr.getLsbD 10 = code.getLsbD 4 ∧ t.cp15.fsr.extractLsb' 0 4 = code.extractLsb' 0 4) ∧
    (s.pendingAbort = none →
      (fiq = false → irq = false → goesOn none) ∧
      (fiq = true ∨ irq = true →
        (s.asyncWait = some 0 → taken) ∧
        (∀ n, s.asyncWait = some (n + 1) → goesOn (some n)) ∧
        (s.asyncWait = none → taken ∨ ∃ n, goesOn (some n))))

/-! ### Invariants of every step -/

/-- Every step keeps memory in its canonical form and the write buffer within its eight entries (20_memory.md R120,
R142). -/
def Obligations.StepKeepsMemory : Prop := ∀ s t : State, s.memoryInv → step s = .next t → t.memoryInv

/-- Every step keeps one of the eight modes in the CPSR and the PC aligned for the state the CPSR selects (10_state.md
R21, R23, R27; 43_branch_status_system.md R520; 60_exceptions.md R885). -/
def Obligations.StepKeepsMode : Prop := ∀ s t : State, s.modeInv → step s = .next t → t.modeInv

/-- Every step keeps the bits of the CP15 registers that are fixed, those of Control, Auxiliary Control, TTB, FSR, PID,
DBCON and CPAR (10_state.md R52 to R54, R56, R62, R65, R66): they are never stored, which for a 1 written to a
write-as-zero bit is the model's choice (log 12). -/
def Obligations.StepKeepsFixedBits : Prop := ∀ s t : State, s.fixedBitsInv → step s = .next t → t.fixedBitsInv

/-- What a User-mode instruction cannot do (10_state.md R21; 44_coprocessor.md R543; 43_branch_status_system.md R511):
outside Special Debug State it changes no CP15 register but the FSR and the FAR, and these only by an exception; no
register of the performance monitor, no debugger's register, no TLB lock, no power mode. It leaves User mode only by an
exception, at a vector, in ARM state with IRQ masked; where it stays in User mode, no register of another mode, no SPSR
and no control bit of the CPSR but T changes. -/
def Obligations.UserIsolation : Prop :=
  ∀ (i : Instr) (s t : State), s.mode = .usr → s.dbgUnit.sds = false → exec i s = .next t →
    t.cp15 = { s.cp15 with fsr := t.cp15.fsr, far := t.cp15.far } ∧ t.pmu = s.pmu ∧ t.power = s.power ∧
    t.dbgUnit.tx = s.dbgUnit.tx ∧ t.dbgUnit.rx = s.dbgUnit.rx ∧ t.dbgUnit.txrxctrl = s.dbgUnit.txrxctrl ∧
    t.dbgUnit.dcsr &&& 0xC0DF0020#32 = s.dbgUnit.dcsr &&& 0xC0DF0020#32 ∧
    t.itlb.lock = s.itlb.lock ∧ t.dtlb.lock = s.dtlb.lock ∧ t.icache = s.icache ∧ t.miniIc = s.miniIc ∧
    (s.cp0Allowed = false → t.acc0 = s.acc0) ∧
    (t.mode = .usr →
      t.cp15 = s.cp15 ∧ t.spsr = s.spsr ∧ t.cpsr &&& 0x07FFFFDF#32 = s.cpsr &&& 0x07FFFFDF#32 ∧
        ∀ j : Fin 32, 13 ≤ j.val → j.val ≠ 18 → j.val ≠ 19 → t.gpr[j.val] = s.gpr[j.val]) ∧
    (t.mode ≠ .usr →
      t.maskI = true ∧ t.thumb = false ∧ t.mode ∈ [Mode.svc, .abt, .und, .dbg] ∧
        (t.pc = s.vectorBase ∨ t.pc - s.vectorBase ∈ [0x04#32, 0x08#32, 0x0C#32, 0x10#32]))

/-! ### Encoding -/

/-- Decoding an encoded instruction gives it back, for every well-formed instruction of both sets with every operand at
every value (30_encoding.md R284 to R303; 46_thumb.md). -/
def Obligations.DecodeEncode : Prop :=
  ∀ i : Instr, i.wf = true →
    match i.isa with
    | .arm => decodeArm (encodeArm i) = .instr i
    | .thumb => decodeThumb (encodeThumb i) = .instr i

/-- A few words of each family, as the encoding tables write them, decode to the instruction they stand for
(30_encoding.md R285 to R302; 45_cp15_cp14_operations.md R604; 46_thumb.md). -/
def Obligations.DecodedWords : Prop :=
  decodeArm 0b1110_000_0100_1_0001_0010_00011_01_0_0100#32 =
    .instr (.add 14#4 true 1#4 2#4 (.shift 3#5 1#2 4#4)) ∧
  decodeArm 0b0000_000_0000_1_0101_0000_0111_1001_1000#32 = .instr (.mul 0#4 true 5#4 7#4 8#4) ∧
  decodeArm 0b1110_00010100_0011_0111_0000_0101_0010#32 = .instr (.qdadd 14#4 3#4 7#4 2#4) ∧
  decodeArm 0b1110_010_1_1_0_0_1_0010_0001_000000001000#32 = .instr (.ldr 14#4 2#4 1#4 (.imm true false 8#12)) ∧
  decodeArm 0b1110_100_1_0_0_1_0_1101_0100000000110000#32 = .instr (.stm1 14#4 true false true 13#4 0x4030#16) ∧
  decodeArm 0b0001_101_0_111111111111111111111110#32 = .instr (.b 1#4 0xFFFFFE#24) ∧
  decodeArm 0b1110_00010_0_10_1001_1111_00000000_0011#32 = .instr (.msrReg 14#4 false 9#4 3#4) ∧
  decodeArm 0b1110_1111_000000000000000000010001#32 = .instr (.swi 14#4 17#24) ∧
  decodeArm 0b1110_11100010_0000_0011_0000_000_1_0100#32 = .instr (.mia 14#4 3#4 0#3 4#4) ∧
  decodeArm 0b1110_1110_000_0_1000_0000_1111_000_1_0111#32 = .instr (.mcrInvIDTlb 14#4 0#4) ∧
  decodeThumb 0b0001110_011_010_001#16 = .instr (.tAdd1 3#3 2#3 1#3) ∧
  decodeThumb 0b01101_00010_011_100#16 = .instr (.tLdr1 2#5 3#3 4#3) ∧
  decodeThumb 0b1101_0001_11111110#16 = .instr (.tB1Low 1#3 0xFE#8)
end

