-- ==== Sys2Proof/Laws/Bits.lean ====
section
/-!
SUPPORT. The fields of an encoding: what `bits` and `flag` read from a number that `put` and `putBit` built, and how
large such a number is.
-/

namespace Sys2Proof

theorem put_testBit {m : Nat} (x : BitVec m) (h i : Nat) :
    (put x h).testBit i = if i < m then x.getLsbD i else h.testBit (i - m) := by
  simp only [put, Nat.mul_comm h, Nat.testBit_two_pow_mul_add _ x.isLt]
  rfl

/-- A field inside the last one put. -/
theorem bits_put_low {m : Nat} (x : BitVec m) (h lo len : Nat) (hl : lo + len ≤ m) :
    bits (put x h) lo len = bits x.toNat lo len := by
  apply BitVec.eq_of_getLsbD_eq
  intro i hi
  have : lo + i < m := by omega
  simp [bits, BitVec.getLsbD_ofNat, Nat.testBit_shiftRight, put_testBit, this, -BitVec.getLsbD_eq_getElem, hi]
  rfl

/-- A field above the last one put. -/
theorem bits_put_high {m : Nat} (x : BitVec m) (h lo len : Nat) (hl : m ≤ lo) :
    bits (put x h) lo len = bits h (lo - m) len := by
  apply BitVec.eq_of_getLsbD_eq
  intro i hi
  have : ¬ lo + i < m := by omega
  have e : lo + i - m = lo - m + i := by omega
  simp [bits, BitVec.getLsbD_ofNat, Nat.testBit_shiftRight, put_testBit, this, e, -BitVec.getLsbD_eq_getElem, hi]

/-- A field that is all of a bit vector. -/
theorem bits_toNat {n : Nat} (x : BitVec n) : bits x.toNat 0 n = x := by simp [bits]

theorem flag_put {m : Nat} (x : BitVec m) (h i : Nat) :
    flag (put x h) i = if i < m then x.getLsbD i else flag h (i - m) := by
  simp only [flag, put_testBit]

/-- A number with one more field is below the bound of one more field. -/
theorem put_lt {m k : Nat} (x : BitVec m) (h : Nat) (hh : h < 2 ^ k) : put x h < 2 ^ (k + m) := by
  have hx := x.isLt
  have : (h + 1) * 2 ^ m ≤ 2 ^ k * 2 ^ m := Nat.mul_le_mul_right _ hh
  simp only [put, Nat.pow_add]
  linarith [Nat.add_mul h 1 (2 ^ m)]

theorem putBit_lt {k : Nat} (b : Bool) (h : Nat) (hh : h < 2 ^ k) : putBit b h < 2 ^ (k + 1) := put_lt _ _ hh

end Sys2Proof
end

