-- ==== Sys2Proof/Laws/State.lean ====
section
/-!
SUPPORT. One lemma per field per update of the state, so that no later proof unfolds an update.
-/

namespace Sys2Proof.Machine

variable (s : State)

/-! ### setBankReg -/

@[simp] theorem setBankReg_spsr (m : Mode) (r : RegNum) (v : Word) : (s.setBankReg m r v).spsr = s.spsr := rfl
@[simp] theorem setBankReg_pc (m : Mode) (r : RegNum) (v : Word) : (s.setBankReg m r v).pc = s.pc := rfl
@[simp] theorem setBankReg_cpsr (m : Mode) (r : RegNum) (v : Word) : (s.setBankReg m r v).cpsr = s.cpsr := rfl
@[simp] theorem setBankReg_acc0 (m : Mode) (r : RegNum) (v : Word) : (s.setBankReg m r v).acc0 = s.acc0 := rfl
@[simp] theorem setBankReg_cp15 (m : Mode) (r : RegNum) (v : Word) : (s.setBankReg m r v).cp15 = s.cp15 := rfl
@[simp] theorem setBankReg_pmu (m : Mode) (r : RegNum) (v : Word) : (s.setBankReg m r v).pmu = s.pmu := rfl
@[simp] theorem setBankReg_dbgUnit (m : Mode) (r : RegNum) (v : Word) : (s.setBankReg m r v).dbgUnit = s.dbgUnit := rfl
@[simp] theorem setBankReg_trace (m : Mode) (r : RegNum) (v : Word) : (s.setBankReg m r v).trace = s.trace := rfl
@[simp] theorem setBankReg_jtag (m : Mode) (r : RegNum) (v : Word) : (s.setBankReg m r v).jtag = s.jtag := rfl
@[simp] theorem setBankReg_itlb (m : Mode) (r : RegNum) (v : Word) : (s.setBankReg m r v).itlb = s.itlb := rfl
@[simp] theorem setBankReg_dtlb (m : Mode) (r : RegNum) (v : Word) : (s.setBankReg m r v).dtlb = s.dtlb := rfl
@[simp] theorem setBankReg_icache (m : Mode) (r : RegNum) (v : Word) : (s.setBankReg m r v).icache = s.icache := rfl
@[simp] theorem setBankReg_miniIc (m : Mode) (r : RegNum) (v : Word) : (s.setBankReg m r v).miniIc = s.miniIc := rfl
@[simp] theorem setBankReg_fetchBuffers (m : Mode) (r : RegNum) (v : Word) : (s.setBankReg m r v).fetchBuffers = s.fetchBuffers := rfl
@[simp] theorem setBankReg_dcache (m : Mode) (r : RegNum) (v : Word) : (s.setBankReg m r v).dcache = s.dcache := rfl
@[simp] theorem setBankReg_miniDc (m : Mode) (r : RegNum) (v : Word) : (s.setBankReg m r v).miniDc = s.miniDc := rfl
@[simp] theorem setBankReg_writeBuffer (m : Mode) (r : RegNum) (v : Word) : (s.setBankReg m r v).writeBuffer = s.writeBuffer := rfl
@[simp] theorem setBankReg_btb (m : Mode) (r : RegNum) (v : Word) : (s.setBankReg m r v).btb = s.btb := rfl
@[simp] theorem setBankReg_mem (m : Mode) (r : RegNum) (v : Word) : (s.setBankReg m r v).mem = s.mem := rfl
@[simp] theorem setBankReg_modified (m : Mode) (r : RegNum) (v : Word) : (s.setBankReg m r v).modified = s.modified := rfl
@[simp] theorem setBankReg_physMap (m : Mode) (r : RegNum) (v : Word) : (s.setBankReg m r v).physMap = s.physMap := rfl
@[simp] theorem setBankReg_deviceLog (m : Mode) (r : RegNum) (v : Word) : (s.setBankReg m r v).deviceLog = s.deviceLog := rfl
@[simp] theorem setBankReg_deviceReplies (m : Mode) (r : RegNum) (v : Word) : (s.setBankReg m r v).deviceReplies = s.deviceReplies := rfl
@[simp] theorem setBankReg_between (m : Mode) (r : RegNum) (v : Word) : (s.setBankReg m r v).between = s.between := rfl
@[simp] theorem setBankReg_irqLine (m : Mode) (r : RegNum) (v : Word) : (s.setBankReg m r v).irqLine = s.irqLine := rfl
@[simp] theorem setBankReg_fiqLine (m : Mode) (r : RegNum) (v : Word) : (s.setBankReg m r v).fiqLine = s.fiqLine := rfl
@[simp] theorem setBankReg_pmuRoute (m : Mode) (r : RegNum) (v : Word) : (s.setBankReg m r v).pmuRoute = s.pmuRoute := rfl
@[simp] theorem setBankReg_wakeOnLines (m : Mode) (r : RegNum) (v : Word) : (s.setBankReg m r v).wakeOnLines = s.wakeOnLines := rfl
@[simp] theorem setBankReg_productRevision (m : Mode) (r : RegNum) (v : Word) : (s.setBankReg m r v).productRevision = s.productRevision := rfl
@[simp] theorem setBankReg_pendingAbort (m : Mode) (r : RegNum) (v : Word) : (s.setBankReg m r v).pendingAbort = s.pendingAbort := rfl
@[simp] theorem setBankReg_asyncWait (m : Mode) (r : RegNum) (v : Word) : (s.setBankReg m r v).asyncWait = s.asyncWait := rfl
@[simp] theorem setBankReg_power (m : Mode) (r : RegNum) (v : Word) : (s.setBankReg m r v).power = s.power := rfl
@[simp] theorem setBankReg_resetPin (m : Mode) (r : RegNum) (v : Word) : (s.setBankReg m r v).resetPin = s.resetPin := rfl
@[simp] theorem setBankReg_inReset (m : Mode) (r : RegNum) (v : Word) : (s.setBankReg m r v).inReset = s.inReset := rfl
@[simp] theorem setBankReg_battFault (m : Mode) (r : RegNum) (v : Word) : (s.setBankReg m r v).battFault = s.battFault := rfl
@[simp] theorem setBankReg_vddFault (m : Mode) (r : RegNum) (v : Word) : (s.setBankReg m r v).vddFault = s.vddFault := rfl
@[simp] theorem setBankReg_trstPin (m : Mode) (r : RegNum) (v : Word) : (s.setBankReg m r v).trstPin = s.trstPin := rfl
@[simp] theorem setBankReg_schedule (m : Mode) (r : RegNum) (v : Word) : (s.setBankReg m r v).schedule = s.schedule := rfl
@[simp] theorem setBankReg_hostReply (m : Mode) (r : RegNum) (v : Word) : (s.setBankReg m r v).hostReply = s.hostReply := rfl
@[simp] theorem setBankReg_freeCtr (m : Mode) (r : RegNum) (v : Word) : (s.setBankReg m r v).freeCtr = s.freeCtr := rfl
@[simp] theorem setBankReg_bankHazard (m : Mode) (r : RegNum) (v : Word) : (s.setBankReg m r v).bankHazard = s.bankHazard := rfl
@[simp] theorem setBankReg_scratch (m : Mode) (r : RegNum) (v : Word) : (s.setBankReg m r v).scratch = s.scratch := rfl

/-! ### setReg -/

@[simp] theorem setReg_spsr (r : RegNum) (v : Word) : (s.setReg r v).spsr = s.spsr := by unfold State.setReg; split <;> rfl
@[simp] theorem setReg_pc (r : RegNum) (v : Word) : (s.setReg r v).pc = s.pc := by unfold State.setReg; split <;> rfl
@[simp] theorem setReg_cpsr (r : RegNum) (v : Word) : (s.setReg r v).cpsr = s.cpsr := by unfold State.setReg; split <;> rfl
@[simp] theorem setReg_acc0 (r : RegNum) (v : Word) : (s.setReg r v).acc0 = s.acc0 := by unfold State.setReg; split <;> rfl
@[simp] theorem setReg_cp15 (r : RegNum) (v : Word) : (s.setReg r v).cp15 = s.cp15 := by unfold State.setReg; split <;> rfl
@[simp] theorem setReg_pmu (r : RegNum) (v : Word) : (s.setReg r v).pmu = s.pmu := by unfold State.setReg; split <;> rfl
@[simp] theorem setReg_dbgUnit (r : RegNum) (v : Word) : (s.setReg r v).dbgUnit = s.dbgUnit := by unfold State.setReg; split <;> rfl
@[simp] theorem setReg_trace (r : RegNum) (v : Word) : (s.setReg r v).trace = s.trace := by unfold State.setReg; split <;> rfl
@[simp] theorem setReg_jtag (r : RegNum) (v : Word) : (s.setReg r v).jtag = s.jtag := by unfold State.setReg; split <;> rfl
@[simp] theorem setReg_itlb (r : RegNum) (v : Word) : (s.setReg r v).itlb = s.itlb := by unfold State.setReg; split <;> rfl
@[simp] theorem setReg_dtlb (r : RegNum) (v : Word) : (s.setReg r v).dtlb = s.dtlb := by unfold State.setReg; split <;> rfl
@[simp] theorem setReg_icache (r : RegNum) (v : Word) : (s.setReg r v).icache = s.icache := by unfold State.setReg; split <;> rfl
@[simp] theorem setReg_miniIc (r : RegNum) (v : Word) : (s.setReg r v).miniIc = s.miniIc := by unfold State.setReg; split <;> rfl
@[simp] theorem setReg_fetchBuffers (r : RegNum) (v : Word) : (s.setReg r v).fetchBuffers = s.fetchBuffers := by unfold State.setReg; split <;> rfl
@[simp] theorem setReg_dcache (r : RegNum) (v : Word) : (s.setReg r v).dcache = s.dcache := by unfold State.setReg; split <;> rfl
@[simp] theorem setReg_miniDc (r : RegNum) (v : Word) : (s.setReg r v).miniDc = s.miniDc := by unfold State.setReg; split <;> rfl
@[simp] theorem setReg_writeBuffer (r : RegNum) (v : Word) : (s.setReg r v).writeBuffer = s.writeBuffer := by unfold State.setReg; split <;> rfl
@[simp] theorem setReg_btb (r : RegNum) (v : Word) : (s.setReg r v).btb = s.btb := by unfold State.setReg; split <;> rfl
@[simp] theorem setReg_mem (r : RegNum) (v : Word) : (s.setReg r v).mem = s.mem := by unfold State.setReg; split <;> rfl
@[simp] theorem setReg_modified (r : RegNum) (v : Word) : (s.setReg r v).modified = s.modified := by unfold State.setReg; split <;> rfl
@[simp] theorem setReg_physMap (r : RegNum) (v : Word) : (s.setReg r v).physMap = s.physMap := by unfold State.setReg; split <;> rfl
@[simp] theorem setReg_deviceLog (r : RegNum) (v : Word) : (s.setReg r v).deviceLog = s.deviceLog := by unfold State.setReg; split <;> rfl
@[simp] theorem setReg_deviceReplies (r : RegNum) (v : Word) : (s.setReg r v).deviceReplies = s.deviceReplies := by unfold State.setReg; split <;> rfl
@[simp] theorem setReg_between (r : RegNum) (v : Word) : (s.setReg r v).between = s.between := by unfold State.setReg; split <;> rfl
@[simp] theorem setReg_irqLine (r : RegNum) (v : Word) : (s.setReg r v).irqLine = s.irqLine := by unfold State.setReg; split <;> rfl
@[simp] theorem setReg_fiqLine (r : RegNum) (v : Word) : (s.setReg r v).fiqLine = s.fiqLine := by unfold State.setReg; split <;> rfl
@[simp] theorem setReg_pmuRoute (r : RegNum) (v : Word) : (s.setReg r v).pmuRoute = s.pmuRoute := by unfold State.setReg; split <;> rfl
@[simp] theorem setReg_wakeOnLines (r : RegNum) (v : Word) : (s.setReg r v).wakeOnLines = s.wakeOnLines := by unfold State.setReg; split <;> rfl
@[simp] theorem setReg_productRevision (r : RegNum) (v : Word) : (s.setReg r v).productRevision = s.productRevision := by unfold State.setReg; split <;> rfl
@[simp] theorem setReg_pendingAbort (r : RegNum) (v : Word) : (s.setReg r v).pendingAbort = s.pendingAbort := by unfold State.setReg; split <;> rfl
@[simp] theorem setReg_asyncWait (r : RegNum) (v : Word) : (s.setReg r v).asyncWait = s.asyncWait := by unfold State.setReg; split <;> rfl
@[simp] theorem setReg_power (r : RegNum) (v : Word) : (s.setReg r v).power = s.power := by unfold State.setReg; split <;> rfl
@[simp] theorem setReg_resetPin (r : RegNum) (v : Word) : (s.setReg r v).resetPin = s.resetPin := by unfold State.setReg; split <;> rfl
@[simp] theorem setReg_inReset (r : RegNum) (v : Word) : (s.setReg r v).inReset = s.inReset := by unfold State.setReg; split <;> rfl
@[simp] theorem setReg_battFault (r : RegNum) (v : Word) : (s.setReg r v).battFault = s.battFault := by unfold State.setReg; split <;> rfl
@[simp] theorem setReg_vddFault (r : RegNum) (v : Word) : (s.setReg r v).vddFault = s.vddFault := by unfold State.setReg; split <;> rfl
@[simp] theorem setReg_trstPin (r : RegNum) (v : Word) : (s.setReg r v).trstPin = s.trstPin := by unfold State.setReg; split <;> rfl
@[simp] theorem setReg_schedule (r : RegNum) (v : Word) : (s.setReg r v).schedule = s.schedule := by unfold State.setReg; split <;> rfl
@[simp] theorem setReg_hostReply (r : RegNum) (v : Word) : (s.setReg r v).hostReply = s.hostReply := by unfold State.setReg; split <;> rfl
@[simp] theorem setReg_freeCtr (r : RegNum) (v : Word) : (s.setReg r v).freeCtr = s.freeCtr := by unfold State.setReg; split <;> rfl
@[simp] theorem setReg_bankHazard (r : RegNum) (v : Word) : (s.setReg r v).bankHazard = s.bankHazard := by unfold State.setReg; split <;> rfl
@[simp] theorem setReg_scratch (r : RegNum) (v : Word) : (s.setReg r v).scratch = s.scratch := by unfold State.setReg; split <;> rfl

/-! ### advance -/

@[simp] theorem advance_gpr : (s.advance).gpr = s.gpr := rfl
@[simp] theorem advance_spsr : (s.advance).spsr = s.spsr := rfl
@[simp] theorem advance_cpsr : (s.advance).cpsr = s.cpsr := rfl
@[simp] theorem advance_acc0 : (s.advance).acc0 = s.acc0 := rfl
@[simp] theorem advance_cp15 : (s.advance).cp15 = s.cp15 := rfl
@[simp] theorem advance_pmu : (s.advance).pmu = s.pmu := rfl
@[simp] theorem advance_dbgUnit : (s.advance).dbgUnit = s.dbgUnit := rfl
@[simp] theorem advance_trace : (s.advance).trace = s.trace := rfl
@[simp] theorem advance_jtag : (s.advance).jtag = s.jtag := rfl
@[simp] theorem advance_itlb : (s.advance).itlb = s.itlb := rfl
@[simp] theorem advance_dtlb : (s.advance).dtlb = s.dtlb := rfl
@[simp] theorem advance_icache : (s.advance).icache = s.icache := rfl
@[simp] theorem advance_miniIc : (s.advance).miniIc = s.miniIc := rfl
@[simp] theorem advance_fetchBuffers : (s.advance).fetchBuffers = s.fetchBuffers := rfl
@[simp] theorem advance_dcache : (s.advance).dcache = s.dcache := rfl
@[simp] theorem advance_miniDc : (s.advance).miniDc = s.miniDc := rfl
@[simp] theorem advance_writeBuffer : (s.advance).writeBuffer = s.writeBuffer := rfl
@[simp] theorem advance_btb : (s.advance).btb = s.btb := rfl
@[simp] theorem advance_mem : (s.advance).mem = s.mem := rfl
@[simp] theorem advance_modified : (s.advance).modified = s.modified := rfl
@[simp] theorem advance_physMap : (s.advance).physMap = s.physMap := rfl
@[simp] theorem advance_deviceLog : (s.advance).deviceLog = s.deviceLog := rfl
@[simp] theorem advance_deviceReplies : (s.advance).deviceReplies = s.deviceReplies := rfl
@[simp] theorem advance_between : (s.advance).between = s.between := rfl
@[simp] theorem advance_irqLine : (s.advance).irqLine = s.irqLine := rfl
@[simp] theorem advance_fiqLine : (s.advance).fiqLine = s.fiqLine := rfl
@[simp] theorem advance_pmuRoute : (s.advance).pmuRoute = s.pmuRoute := rfl
@[simp] theorem advance_wakeOnLines : (s.advance).wakeOnLines = s.wakeOnLines := rfl
@[simp] theorem advance_productRevision : (s.advance).productRevision = s.productRevision := rfl
@[simp] theorem advance_pendingAbort : (s.advance).pendingAbort = s.pendingAbort := rfl
@[simp] theorem advance_asyncWait : (s.advance).asyncWait = s.asyncWait := rfl
@[simp] theorem advance_power : (s.advance).power = s.power := rfl
@[simp] theorem advance_resetPin : (s.advance).resetPin = s.resetPin := rfl
@[simp] theorem advance_inReset : (s.advance).inReset = s.inReset := rfl
@[simp] theorem advance_battFault : (s.advance).battFault = s.battFault := rfl
@[simp] theorem advance_vddFault : (s.advance).vddFault = s.vddFault := rfl
@[simp] theorem advance_trstPin : (s.advance).trstPin = s.trstPin := rfl
@[simp] theorem advance_schedule : (s.advance).schedule = s.schedule := rfl
@[simp] theorem advance_hostReply : (s.advance).hostReply = s.hostReply := rfl
@[simp] theorem advance_freeCtr : (s.advance).freeCtr = s.freeCtr := rfl
@[simp] theorem advance_bankHazard : (s.advance).bankHazard = s.bankHazard := rfl
@[simp] theorem advance_scratch : (s.advance).scratch = s.scratch := rfl

/-! ### skip -/

@[simp] theorem skip_gpr : (s.skip).gpr = s.gpr := rfl
@[simp] theorem skip_spsr : (s.skip).spsr = s.spsr := rfl
@[simp] theorem skip_cpsr : (s.skip).cpsr = s.cpsr := rfl
@[simp] theorem skip_acc0 : (s.skip).acc0 = s.acc0 := rfl
@[simp] theorem skip_cp15 : (s.skip).cp15 = s.cp15 := rfl
@[simp] theorem skip_pmu : (s.skip).pmu = s.pmu := rfl
@[simp] theorem skip_dbgUnit : (s.skip).dbgUnit = s.dbgUnit := rfl
@[simp] theorem skip_trace : (s.skip).trace = s.trace := rfl
@[simp] theorem skip_jtag : (s.skip).jtag = s.jtag := rfl
@[simp] theorem skip_itlb : (s.skip).itlb = s.itlb := rfl
@[simp] theorem skip_dtlb : (s.skip).dtlb = s.dtlb := rfl
@[simp] theorem skip_icache : (s.skip).icache = s.icache := rfl
@[simp] theorem skip_miniIc : (s.skip).miniIc = s.miniIc := rfl
@[simp] theorem skip_fetchBuffers : (s.skip).fetchBuffers = s.fetchBuffers := rfl
@[simp] theorem skip_dcache : (s.skip).dcache = s.dcache := rfl
@[simp] theorem skip_miniDc : (s.skip).miniDc = s.miniDc := rfl
@[simp] theorem skip_writeBuffer : (s.skip).writeBuffer = s.writeBuffer := rfl
@[simp] theorem skip_btb : (s.skip).btb = s.btb := rfl
@[simp] theorem skip_mem : (s.skip).mem = s.mem := rfl
@[simp] theorem skip_modified : (s.skip).modified = s.modified := rfl
@[simp] theorem skip_physMap : (s.skip).physMap = s.physMap := rfl
@[simp] theorem skip_deviceLog : (s.skip).deviceLog = s.deviceLog := rfl
@[simp] theorem skip_deviceReplies : (s.skip).deviceReplies = s.deviceReplies := rfl
@[simp] theorem skip_between : (s.skip).between = s.between := rfl
@[simp] theorem skip_irqLine : (s.skip).irqLine = s.irqLine := rfl
@[simp] theorem skip_fiqLine : (s.skip).fiqLine = s.fiqLine := rfl
@[simp] theorem skip_pmuRoute : (s.skip).pmuRoute = s.pmuRoute := rfl
@[simp] theorem skip_wakeOnLines : (s.skip).wakeOnLines = s.wakeOnLines := rfl
@[simp] theorem skip_productRevision : (s.skip).productRevision = s.productRevision := rfl
@[simp] theorem skip_pendingAbort : (s.skip).pendingAbort = s.pendingAbort := rfl
@[simp] theorem skip_asyncWait : (s.skip).asyncWait = s.asyncWait := rfl
@[simp] theorem skip_power : (s.skip).power = s.power := rfl
@[simp] theorem skip_resetPin : (s.skip).resetPin = s.resetPin := rfl
@[simp] theorem skip_inReset : (s.skip).inReset = s.inReset := rfl
@[simp] theorem skip_battFault : (s.skip).battFault = s.battFault := rfl
@[simp] theorem skip_vddFault : (s.skip).vddFault = s.vddFault := rfl
@[simp] theorem skip_trstPin : (s.skip).trstPin = s.trstPin := rfl
@[simp] theorem skip_schedule : (s.skip).schedule = s.schedule := rfl
@[simp] theorem skip_hostReply : (s.skip).hostReply = s.hostReply := rfl
@[simp] theorem skip_freeCtr : (s.skip).freeCtr = s.freeCtr := rfl
@[simp] theorem skip_bankHazard : (s.skip).bankHazard = s.bankHazard := rfl

/-! ### setNzcv -/

@[simp] theorem setNzcv_gpr (n z c v : Bool) : (s.setNzcv n z c v).gpr = s.gpr := rfl
@[simp] theorem setNzcv_spsr (n z c v : Bool) : (s.setNzcv n z c v).spsr = s.spsr := rfl
@[simp] theorem setNzcv_pc (n z c v : Bool) : (s.setNzcv n z c v).pc = s.pc := rfl
@[simp] theorem setNzcv_acc0 (n z c v : Bool) : (s.setNzcv n z c v).acc0 = s.acc0 := rfl
@[simp] theorem setNzcv_cp15 (n z c v : Bool) : (s.setNzcv n z c v).cp15 = s.cp15 := rfl
@[simp] theorem setNzcv_pmu (n z c v : Bool) : (s.setNzcv n z c v).pmu = s.pmu := rfl
@[simp] theorem setNzcv_dbgUnit (n z c v : Bool) : (s.setNzcv n z c v).dbgUnit = s.dbgUnit := rfl
@[simp] theorem setNzcv_trace (n z c v : Bool) : (s.setNzcv n z c v).trace = s.trace := rfl
@[simp] theorem setNzcv_jtag (n z c v : Bool) : (s.setNzcv n z c v).jtag = s.jtag := rfl
@[simp] theorem setNzcv_itlb (n z c v : Bool) : (s.setNzcv n z c v).itlb = s.itlb := rfl
@[simp] theorem setNzcv_dtlb (n z c v : Bool) : (s.setNzcv n z c v).dtlb = s.dtlb := rfl
@[simp] theorem setNzcv_icache (n z c v : Bool) : (s.setNzcv n z c v).icache = s.icache := rfl
@[simp] theorem setNzcv_miniIc (n z c v : Bool) : (s.setNzcv n z c v).miniIc = s.miniIc := rfl
@[simp] theorem setNzcv_fetchBuffers (n z c v : Bool) : (s.setNzcv n z c v).fetchBuffers = s.fetchBuffers := rfl
@[simp] theorem setNzcv_dcache (n z c v : Bool) : (s.setNzcv n z c v).dcache = s.dcache := rfl
@[simp] theorem setNzcv_miniDc (n z c v : Bool) : (s.setNzcv n z c v).miniDc = s.miniDc := rfl
@[simp] theorem setNzcv_writeBuffer (n z c v : Bool) : (s.setNzcv n z c v).writeBuffer = s.writeBuffer := rfl
@[simp] theorem setNzcv_btb (n z c v : Bool) : (s.setNzcv n z c v).btb = s.btb := rfl
@[simp] theorem setNzcv_mem (n z c v : Bool) : (s.setNzcv n z c v).mem = s.mem := rfl
@[simp] theorem setNzcv_modified (n z c v : Bool) : (s.setNzcv n z c v).modified = s.modified := rfl
@[simp] theorem setNzcv_physMap (n z c v : Bool) : (s.setNzcv n z c v).physMap = s.physMap := rfl
@[simp] theorem setNzcv_deviceLog (n z c v : Bool) : (s.setNzcv n z c v).deviceLog = s.deviceLog := rfl
@[simp] theorem setNzcv_deviceReplies (n z c v : Bool) : (s.setNzcv n z c v).deviceReplies = s.deviceReplies := rfl
@[simp] theorem setNzcv_between (n z c v : Bool) : (s.setNzcv n z c v).between = s.between := rfl
@[simp] theorem setNzcv_irqLine (n z c v : Bool) : (s.setNzcv n z c v).irqLine = s.irqLine := rfl
@[simp] theorem setNzcv_fiqLine (n z c v : Bool) : (s.setNzcv n z c v).fiqLine = s.fiqLine := rfl
@[simp] theorem setNzcv_pmuRoute (n z c v : Bool) : (s.setNzcv n z c v).pmuRoute = s.pmuRoute := rfl
@[simp] theorem setNzcv_wakeOnLines (n z c v : Bool) : (s.setNzcv n z c v).wakeOnLines = s.wakeOnLines := rfl
@[simp] theorem setNzcv_productRevision (n z c v : Bool) : (s.setNzcv n z c v).productRevision = s.productRevision := rfl
@[simp] theorem setNzcv_pendingAbort (n z c v : Bool) : (s.setNzcv n z c v).pendingAbort = s.pendingAbort := rfl
@[simp] theorem setNzcv_asyncWait (n z c v : Bool) : (s.setNzcv n z c v).asyncWait = s.asyncWait := rfl
@[simp] theorem setNzcv_power (n z c v : Bool) : (s.setNzcv n z c v).power = s.power := rfl
@[simp] theorem setNzcv_resetPin (n z c v : Bool) : (s.setNzcv n z c v).resetPin = s.resetPin := rfl
@[simp] theorem setNzcv_inReset (n z c v : Bool) : (s.setNzcv n z c v).inReset = s.inReset := rfl
@[simp] theorem setNzcv_battFault (n z c v : Bool) : (s.setNzcv n z c v).battFault = s.battFault := rfl
@[simp] theorem setNzcv_vddFault (n z c v : Bool) : (s.setNzcv n z c v).vddFault = s.vddFault := rfl
@[simp] theorem setNzcv_trstPin (n z c v : Bool) : (s.setNzcv n z c v).trstPin = s.trstPin := rfl
@[simp] theorem setNzcv_schedule (n z c v : Bool) : (s.setNzcv n z c v).schedule = s.schedule := rfl
@[simp] theorem setNzcv_hostReply (n z c v : Bool) : (s.setNzcv n z c v).hostReply = s.hostReply := rfl
@[simp] theorem setNzcv_freeCtr (n z c v : Bool) : (s.setNzcv n z c v).freeCtr = s.freeCtr := rfl
@[simp] theorem setNzcv_bankHazard (n z c v : Bool) : (s.setNzcv n z c v).bankHazard = s.bankHazard := rfl
@[simp] theorem setNzcv_scratch (n z c v : Bool) : (s.setNzcv n z c v).scratch = s.scratch := rfl

/-! ### orQ -/

@[simp] theorem orQ_gpr (q : Bool) : (s.orQ q).gpr = s.gpr := rfl
@[simp] theorem orQ_spsr (q : Bool) : (s.orQ q).spsr = s.spsr := rfl
@[simp] theorem orQ_pc (q : Bool) : (s.orQ q).pc = s.pc := rfl
@[simp] theorem orQ_acc0 (q : Bool) : (s.orQ q).acc0 = s.acc0 := rfl
@[simp] theorem orQ_cp15 (q : Bool) : (s.orQ q).cp15 = s.cp15 := rfl
@[simp] theorem orQ_pmu (q : Bool) : (s.orQ q).pmu = s.pmu := rfl
@[simp] theorem orQ_dbgUnit (q : Bool) : (s.orQ q).dbgUnit = s.dbgUnit := rfl
@[simp] theorem orQ_trace (q : Bool) : (s.orQ q).trace = s.trace := rfl
@[simp] theorem orQ_jtag (q : Bool) : (s.orQ q).jtag = s.jtag := rfl
@[simp] theorem orQ_itlb (q : Bool) : (s.orQ q).itlb = s.itlb := rfl
@[simp] theorem orQ_dtlb (q : Bool) : (s.orQ q).dtlb = s.dtlb := rfl
@[simp] theorem orQ_icache (q : Bool) : (s.orQ q).icache = s.icache := rfl
@[simp] theorem orQ_miniIc (q : Bool) : (s.orQ q).miniIc = s.miniIc := rfl
@[simp] theorem orQ_fetchBuffers (q : Bool) : (s.orQ q).fetchBuffers = s.fetchBuffers := rfl
@[simp] theorem orQ_dcache (q : Bool) : (s.orQ q).dcache = s.dcache := rfl
@[simp] theorem orQ_miniDc (q : Bool) : (s.orQ q).miniDc = s.miniDc := rfl
@[simp] theorem orQ_writeBuffer (q : Bool) : (s.orQ q).writeBuffer = s.writeBuffer := rfl
@[simp] theorem orQ_btb (q : Bool) : (s.orQ q).btb = s.btb := rfl
@[simp] theorem orQ_mem (q : Bool) : (s.orQ q).mem = s.mem := rfl
@[simp] theorem orQ_modified (q : Bool) : (s.orQ q).modified = s.modified := rfl
@[simp] theorem orQ_physMap (q : Bool) : (s.orQ q).physMap = s.physMap := rfl
@[simp] theorem orQ_deviceLog (q : Bool) : (s.orQ q).deviceLog = s.deviceLog := rfl
@[simp] theorem orQ_deviceReplies (q : Bool) : (s.orQ q).deviceReplies = s.deviceReplies := rfl
@[simp] theorem orQ_between (q : Bool) : (s.orQ q).between = s.between := rfl
@[simp] theorem orQ_irqLine (q : Bool) : (s.orQ q).irqLine = s.irqLine := rfl
@[simp] theorem orQ_fiqLine (q : Bool) : (s.orQ q).fiqLine = s.fiqLine := rfl
@[simp] theorem orQ_pmuRoute (q : Bool) : (s.orQ q).pmuRoute = s.pmuRoute := rfl
@[simp] theorem orQ_wakeOnLines (q : Bool) : (s.orQ q).wakeOnLines = s.wakeOnLines := rfl
@[simp] theorem orQ_productRevision (q : Bool) : (s.orQ q).productRevision = s.productRevision := rfl
@[simp] theorem orQ_pendingAbort (q : Bool) : (s.orQ q).pendingAbort = s.pendingAbort := rfl
@[simp] theorem orQ_asyncWait (q : Bool) : (s.orQ q).asyncWait = s.asyncWait := rfl
@[simp] theorem orQ_power (q : Bool) : (s.orQ q).power = s.power := rfl
@[simp] theorem orQ_resetPin (q : Bool) : (s.orQ q).resetPin = s.resetPin := rfl
@[simp] theorem orQ_inReset (q : Bool) : (s.orQ q).inReset = s.inReset := rfl
@[simp] theorem orQ_battFault (q : Bool) : (s.orQ q).battFault = s.battFault := rfl
@[simp] theorem orQ_vddFault (q : Bool) : (s.orQ q).vddFault = s.vddFault := rfl
@[simp] theorem orQ_trstPin (q : Bool) : (s.orQ q).trstPin = s.trstPin := rfl
@[simp] theorem orQ_schedule (q : Bool) : (s.orQ q).schedule = s.schedule := rfl
@[simp] theorem orQ_hostReply (q : Bool) : (s.orQ q).hostReply = s.hostReply := rfl
@[simp] theorem orQ_freeCtr (q : Bool) : (s.orQ q).freeCtr = s.freeCtr := rfl
@[simp] theorem orQ_bankHazard (q : Bool) : (s.orQ q).bankHazard = s.bankHazard := rfl
@[simp] theorem orQ_scratch (q : Bool) : (s.orQ q).scratch = s.scratch := rfl

/-! ### setThumb -/

@[simp] theorem setThumb_gpr (t : Bool) : (s.setThumb t).gpr = s.gpr := rfl
@[simp] theorem setThumb_spsr (t : Bool) : (s.setThumb t).spsr = s.spsr := rfl
@[simp] theorem setThumb_pc (t : Bool) : (s.setThumb t).pc = s.pc := rfl
@[simp] theorem setThumb_acc0 (t : Bool) : (s.setThumb t).acc0 = s.acc0 := rfl
@[simp] theorem setThumb_cp15 (t : Bool) : (s.setThumb t).cp15 = s.cp15 := rfl
@[simp] theorem setThumb_pmu (t : Bool) : (s.setThumb t).pmu = s.pmu := rfl
@[simp] theorem setThumb_dbgUnit (t : Bool) : (s.setThumb t).dbgUnit = s.dbgUnit := rfl
@[simp] theorem setThumb_trace (t : Bool) : (s.setThumb t).trace = s.trace := rfl
@[simp] theorem setThumb_jtag (t : Bool) : (s.setThumb t).jtag = s.jtag := rfl
@[simp] theorem setThumb_itlb (t : Bool) : (s.setThumb t).itlb = s.itlb := rfl
@[simp] theorem setThumb_dtlb (t : Bool) : (s.setThumb t).dtlb = s.dtlb := rfl
@[simp] theorem setThumb_icache (t : Bool) : (s.setThumb t).icache = s.icache := rfl
@[simp] theorem setThumb_miniIc (t : Bool) : (s.setThumb t).miniIc = s.miniIc := rfl
@[simp] theorem setThumb_fetchBuffers (t : Bool) : (s.setThumb t).fetchBuffers = s.fetchBuffers := rfl
@[simp] theorem setThumb_dcache (t : Bool) : (s.setThumb t).dcache = s.dcache := rfl
@[simp] theorem setThumb_miniDc (t : Bool) : (s.setThumb t).miniDc = s.miniDc := rfl
@[simp] theorem setThumb_writeBuffer (t : Bool) : (s.setThumb t).writeBuffer = s.writeBuffer := rfl
@[simp] theorem setThumb_btb (t : Bool) : (s.setThumb t).btb = s.btb := rfl
@[simp] theorem setThumb_mem (t : Bool) : (s.setThumb t).mem = s.mem := rfl
@[simp] theorem setThumb_modified (t : Bool) : (s.setThumb t).modified = s.modified := rfl
@[simp] theorem setThumb_physMap (t : Bool) : (s.setThumb t).physMap = s.physMap := rfl
@[simp] theorem setThumb_deviceLog (t : Bool) : (s.setThumb t).deviceLog = s.deviceLog := rfl
@[simp] theorem setThumb_deviceReplies (t : Bool) : (s.setThumb t).deviceReplies = s.deviceReplies := rfl
@[simp] theorem setThumb_between (t : Bool) : (s.setThumb t).between = s.between := rfl
@[simp] theorem setThumb_irqLine (t : Bool) : (s.setThumb t).irqLine = s.irqLine := rfl
@[simp] theorem setThumb_fiqLine (t : Bool) : (s.setThumb t).fiqLine = s.fiqLine := rfl
@[simp] theorem setThumb_pmuRoute (t : Bool) : (s.setThumb t).pmuRoute = s.pmuRoute := rfl
@[simp] theorem setThumb_wakeOnLines (t : Bool) : (s.setThumb t).wakeOnLines = s.wakeOnLines := rfl
@[simp] theorem setThumb_productRevision (t : Bool) : (s.setThumb t).productRevision = s.productRevision := rfl
@[simp] theorem setThumb_pendingAbort (t : Bool) : (s.setThumb t).pendingAbort = s.pendingAbort := rfl
@[simp] theorem setThumb_asyncWait (t : Bool) : (s.setThumb t).asyncWait = s.asyncWait := rfl
@[simp] theorem setThumb_power (t : Bool) : (s.setThumb t).power = s.power := rfl
@[simp] theorem setThumb_resetPin (t : Bool) : (s.setThumb t).resetPin = s.resetPin := rfl
@[simp] theorem setThumb_inReset (t : Bool) : (s.setThumb t).inReset = s.inReset := rfl
@[simp] theorem setThumb_battFault (t : Bool) : (s.setThumb t).battFault = s.battFault := rfl
@[simp] theorem setThumb_vddFault (t : Bool) : (s.setThumb t).vddFault = s.vddFault := rfl
@[simp] theorem setThumb_trstPin (t : Bool) : (s.setThumb t).trstPin = s.trstPin := rfl
@[simp] theorem setThumb_schedule (t : Bool) : (s.setThumb t).schedule = s.schedule := rfl
@[simp] theorem setThumb_hostReply (t : Bool) : (s.setThumb t).hostReply = s.hostReply := rfl
@[simp] theorem setThumb_freeCtr (t : Bool) : (s.setThumb t).freeCtr = s.freeCtr := rfl
@[simp] theorem setThumb_bankHazard (t : Bool) : (s.setThumb t).bankHazard = s.bankHazard := rfl
@[simp] theorem setThumb_scratch (t : Bool) : (s.setThumb t).scratch = s.scratch := rfl

/-! ### setSpsr -/

@[simp] theorem setSpsr_gpr (m : Mode) (v : Word) : (s.setSpsr m v).gpr = s.gpr := by unfold State.setSpsr; split <;> rfl
@[simp] theorem setSpsr_pc (m : Mode) (v : Word) : (s.setSpsr m v).pc = s.pc := by unfold State.setSpsr; split <;> rfl
@[simp] theorem setSpsr_cpsr (m : Mode) (v : Word) : (s.setSpsr m v).cpsr = s.cpsr := by unfold State.setSpsr; split <;> rfl
@[simp] theorem setSpsr_acc0 (m : Mode) (v : Word) : (s.setSpsr m v).acc0 = s.acc0 := by unfold State.setSpsr; split <;> rfl
@[simp] theorem setSpsr_cp15 (m : Mode) (v : Word) : (s.setSpsr m v).cp15 = s.cp15 := by unfold State.setSpsr; split <;> rfl
@[simp] theorem setSpsr_pmu (m : Mode) (v : Word) : (s.setSpsr m v).pmu = s.pmu := by unfold State.setSpsr; split <;> rfl
@[simp] theorem setSpsr_dbgUnit (m : Mode) (v : Word) : (s.setSpsr m v).dbgUnit = s.dbgUnit := by unfold State.setSpsr; split <;> rfl
@[simp] theorem setSpsr_trace (m : Mode) (v : Word) : (s.setSpsr m v).trace = s.trace := by unfold State.setSpsr; split <;> rfl
@[simp] theorem setSpsr_jtag (m : Mode) (v : Word) : (s.setSpsr m v).jtag = s.jtag := by unfold State.setSpsr; split <;> rfl
@[simp] theorem setSpsr_itlb (m : Mode) (v : Word) : (s.setSpsr m v).itlb = s.itlb := by unfold State.setSpsr; split <;> rfl
@[simp] theorem setSpsr_dtlb (m : Mode) (v : Word) : (s.setSpsr m v).dtlb = s.dtlb := by unfold State.setSpsr; split <;> rfl
@[simp] theorem setSpsr_icache (m : Mode) (v : Word) : (s.setSpsr m v).icache = s.icache := by unfold State.setSpsr; split <;> rfl
@[simp] theorem setSpsr_miniIc (m : Mode) (v : Word) : (s.setSpsr m v).miniIc = s.miniIc := by unfold State.setSpsr; split <;> rfl
@[simp] theorem setSpsr_fetchBuffers (m : Mode) (v : Word) : (s.setSpsr m v).fetchBuffers = s.fetchBuffers := by unfold State.setSpsr; split <;> rfl
@[simp] theorem setSpsr_dcache (m : Mode) (v : Word) : (s.setSpsr m v).dcache = s.dcache := by unfold State.setSpsr; split <;> rfl
@[simp] theorem setSpsr_miniDc (m : Mode) (v : Word) : (s.setSpsr m v).miniDc = s.miniDc := by unfold State.setSpsr; split <;> rfl
@[simp] theorem setSpsr_writeBuffer (m : Mode) (v : Word) : (s.setSpsr m v).writeBuffer = s.writeBuffer := by unfold State.setSpsr; split <;> rfl
@[simp] theorem setSpsr_btb (m : Mode) (v : Word) : (s.setSpsr m v).btb = s.btb := by unfold State.setSpsr; split <;> rfl
@[simp] theorem setSpsr_mem (m : Mode) (v : Word) : (s.setSpsr m v).mem = s.mem := by unfold State.setSpsr; split <;> rfl
@[simp] theorem setSpsr_modified (m : Mode) (v : Word) : (s.setSpsr m v).modified = s.modified := by unfold State.setSpsr; split <;> rfl
@[simp] theorem setSpsr_physMap (m : Mode) (v : Word) : (s.setSpsr m v).physMap = s.physMap := by unfold State.setSpsr; split <;> rfl
@[simp] theorem setSpsr_deviceLog (m : Mode) (v : Word) : (s.setSpsr m v).deviceLog = s.deviceLog := by unfold State.setSpsr; split <;> rfl
@[simp] theorem setSpsr_deviceReplies (m : Mode) (v : Word) : (s.setSpsr m v).deviceReplies = s.deviceReplies := by unfold State.setSpsr; split <;> rfl
@[simp] theorem setSpsr_between (m : Mode) (v : Word) : (s.setSpsr m v).between = s.between := by unfold State.setSpsr; split <;> rfl
@[simp] theorem setSpsr_irqLine (m : Mode) (v : Word) : (s.setSpsr m v).irqLine = s.irqLine := by unfold State.setSpsr; split <;> rfl
@[simp] theorem setSpsr_fiqLine (m : Mode) (v : Word) : (s.setSpsr m v).fiqLine = s.fiqLine := by unfold State.setSpsr; split <;> rfl
@[simp] theorem setSpsr_pmuRoute (m : Mode) (v : Word) : (s.setSpsr m v).pmuRoute = s.pmuRoute := by unfold State.setSpsr; split <;> rfl
@[simp] theorem setSpsr_wakeOnLines (m : Mode) (v : Word) : (s.setSpsr m v).wakeOnLines = s.wakeOnLines := by unfold State.setSpsr; split <;> rfl
@[simp] theorem setSpsr_productRevision (m : Mode) (v : Word) : (s.setSpsr m v).productRevision = s.productRevision := by unfold State.setSpsr; split <;> rfl
@[simp] theorem setSpsr_pendingAbort (m : Mode) (v : Word) : (s.setSpsr m v).pendingAbort = s.pendingAbort := by unfold State.setSpsr; split <;> rfl
@[simp] theorem setSpsr_asyncWait (m : Mode) (v : Word) : (s.setSpsr m v).asyncWait = s.asyncWait := by unfold State.setSpsr; split <;> rfl
@[simp] theorem setSpsr_power (m : Mode) (v : Word) : (s.setSpsr m v).power = s.power := by unfold State.setSpsr; split <;> rfl
@[simp] theorem setSpsr_resetPin (m : Mode) (v : Word) : (s.setSpsr m v).resetPin = s.resetPin := by unfold State.setSpsr; split <;> rfl
@[simp] theorem setSpsr_inReset (m : Mode) (v : Word) : (s.setSpsr m v).inReset = s.inReset := by unfold State.setSpsr; split <;> rfl
@[simp] theorem setSpsr_battFault (m : Mode) (v : Word) : (s.setSpsr m v).battFault = s.battFault := by unfold State.setSpsr; split <;> rfl
@[simp] theorem setSpsr_vddFault (m : Mode) (v : Word) : (s.setSpsr m v).vddFault = s.vddFault := by unfold State.setSpsr; split <;> rfl
@[simp] theorem setSpsr_trstPin (m : Mode) (v : Word) : (s.setSpsr m v).trstPin = s.trstPin := by unfold State.setSpsr; split <;> rfl
@[simp] theorem setSpsr_schedule (m : Mode) (v : Word) : (s.setSpsr m v).schedule = s.schedule := by unfold State.setSpsr; split <;> rfl
@[simp] theorem setSpsr_hostReply (m : Mode) (v : Word) : (s.setSpsr m v).hostReply = s.hostReply := by unfold State.setSpsr; split <;> rfl
@[simp] theorem setSpsr_freeCtr (m : Mode) (v : Word) : (s.setSpsr m v).freeCtr = s.freeCtr := by unfold State.setSpsr; split <;> rfl
@[simp] theorem setSpsr_bankHazard (m : Mode) (v : Word) : (s.setSpsr m v).bankHazard = s.bankHazard := by unfold State.setSpsr; split <;> rfl
@[simp] theorem setSpsr_scratch (m : Mode) (v : Word) : (s.setSpsr m v).scratch = s.scratch := by unfold State.setSpsr; split <;> rfl

/-! ### jump -/

@[simp] theorem jump_gpr (a : Word) (i : Bool) : (s.jump a i).gpr = s.gpr := rfl
@[simp] theorem jump_spsr (a : Word) (i : Bool) : (s.jump a i).spsr = s.spsr := rfl
@[simp] theorem jump_cpsr (a : Word) (i : Bool) : (s.jump a i).cpsr = s.cpsr := rfl
@[simp] theorem jump_acc0 (a : Word) (i : Bool) : (s.jump a i).acc0 = s.acc0 := rfl
@[simp] theorem jump_cp15 (a : Word) (i : Bool) : (s.jump a i).cp15 = s.cp15 := rfl
@[simp] theorem jump_pmu (a : Word) (i : Bool) : (s.jump a i).pmu = s.pmu := rfl
@[simp] theorem jump_dbgUnit (a : Word) (i : Bool) : (s.jump a i).dbgUnit = s.dbgUnit := rfl
@[simp] theorem jump_trace (a : Word) (i : Bool) : (s.jump a i).trace = s.trace := rfl
@[simp] theorem jump_jtag (a : Word) (i : Bool) : (s.jump a i).jtag = s.jtag := rfl
@[simp] theorem jump_itlb (a : Word) (i : Bool) : (s.jump a i).itlb = s.itlb := rfl
@[simp] theorem jump_dtlb (a : Word) (i : Bool) : (s.jump a i).dtlb = s.dtlb := rfl
@[simp] theorem jump_icache (a : Word) (i : Bool) : (s.jump a i).icache = s.icache := rfl
@[simp] theorem jump_miniIc (a : Word) (i : Bool) : (s.jump a i).miniIc = s.miniIc := rfl
@[simp] theorem jump_fetchBuffers (a : Word) (i : Bool) : (s.jump a i).fetchBuffers = s.fetchBuffers := rfl
@[simp] theorem jump_dcache (a : Word) (i : Bool) : (s.jump a i).dcache = s.dcache := rfl
@[simp] theorem jump_miniDc (a : Word) (i : Bool) : (s.jump a i).miniDc = s.miniDc := rfl
@[simp] theorem jump_writeBuffer (a : Word) (i : Bool) : (s.jump a i).writeBuffer = s.writeBuffer := rfl
@[simp] theorem jump_btb (a : Word) (i : Bool) : (s.jump a i).btb = s.btb := rfl
@[simp] theorem jump_mem (a : Word) (i : Bool) : (s.jump a i).mem = s.mem := rfl
@[simp] theorem jump_modified (a : Word) (i : Bool) : (s.jump a i).modified = s.modified := rfl
@[simp] theorem jump_physMap (a : Word) (i : Bool) : (s.jump a i).physMap = s.physMap := rfl
@[simp] theorem jump_deviceLog (a : Word) (i : Bool) : (s.jump a i).deviceLog = s.deviceLog := rfl
@[simp] theorem jump_deviceReplies (a : Word) (i : Bool) : (s.jump a i).deviceReplies = s.deviceReplies := rfl
@[simp] theorem jump_between (a : Word) (i : Bool) : (s.jump a i).between = s.between := rfl
@[simp] theorem jump_irqLine (a : Word) (i : Bool) : (s.jump a i).irqLine = s.irqLine := rfl
@[simp] theorem jump_fiqLine (a : Word) (i : Bool) : (s.jump a i).fiqLine = s.fiqLine := rfl
@[simp] theorem jump_pmuRoute (a : Word) (i : Bool) : (s.jump a i).pmuRoute = s.pmuRoute := rfl
@[simp] theorem jump_wakeOnLines (a : Word) (i : Bool) : (s.jump a i).wakeOnLines = s.wakeOnLines := rfl
@[simp] theorem jump_productRevision (a : Word) (i : Bool) : (s.jump a i).productRevision = s.productRevision := rfl
@[simp] theorem jump_pendingAbort (a : Word) (i : Bool) : (s.jump a i).pendingAbort = s.pendingAbort := rfl
@[simp] theorem jump_asyncWait (a : Word) (i : Bool) : (s.jump a i).asyncWait = s.asyncWait := rfl
@[simp] theorem jump_power (a : Word) (i : Bool) : (s.jump a i).power = s.power := rfl
@[simp] theorem jump_resetPin (a : Word) (i : Bool) : (s.jump a i).resetPin = s.resetPin := rfl
@[simp] theorem jump_inReset (a : Word) (i : Bool) : (s.jump a i).inReset = s.inReset := rfl
@[simp] theorem jump_battFault (a : Word) (i : Bool) : (s.jump a i).battFault = s.battFault := rfl
@[simp] theorem jump_vddFault (a : Word) (i : Bool) : (s.jump a i).vddFault = s.vddFault := rfl
@[simp] theorem jump_trstPin (a : Word) (i : Bool) : (s.jump a i).trstPin = s.trstPin := rfl
@[simp] theorem jump_schedule (a : Word) (i : Bool) : (s.jump a i).schedule = s.schedule := rfl
@[simp] theorem jump_hostReply (a : Word) (i : Bool) : (s.jump a i).hostReply = s.hostReply := rfl
@[simp] theorem jump_freeCtr (a : Word) (i : Bool) : (s.jump a i).freeCtr = s.freeCtr := rfl
@[simp] theorem jump_bankHazard (a : Word) (i : Bool) : (s.jump a i).bankHazard = s.bankHazard := rfl

/-! ### keepR13Dbg -/

@[simp] theorem keepR13Dbg_gpr : (s.keepR13Dbg).gpr = s.gpr := rfl
@[simp] theorem keepR13Dbg_spsr : (s.keepR13Dbg).spsr = s.spsr := rfl
@[simp] theorem keepR13Dbg_pc : (s.keepR13Dbg).pc = s.pc := rfl
@[simp] theorem keepR13Dbg_cpsr : (s.keepR13Dbg).cpsr = s.cpsr := rfl
@[simp] theorem keepR13Dbg_acc0 : (s.keepR13Dbg).acc0 = s.acc0 := rfl
@[simp] theorem keepR13Dbg_cp15 : (s.keepR13Dbg).cp15 = s.cp15 := rfl
@[simp] theorem keepR13Dbg_pmu : (s.keepR13Dbg).pmu = s.pmu := rfl
@[simp] theorem keepR13Dbg_dbgUnit : (s.keepR13Dbg).dbgUnit = s.dbgUnit := rfl
@[simp] theorem keepR13Dbg_trace : (s.keepR13Dbg).trace = s.trace := rfl
@[simp] theorem keepR13Dbg_jtag : (s.keepR13Dbg).jtag = s.jtag := rfl
@[simp] theorem keepR13Dbg_itlb : (s.keepR13Dbg).itlb = s.itlb := rfl
@[simp] theorem keepR13Dbg_dtlb : (s.keepR13Dbg).dtlb = s.dtlb := rfl
@[simp] theorem keepR13Dbg_icache : (s.keepR13Dbg).icache = s.icache := rfl
@[simp] theorem keepR13Dbg_miniIc : (s.keepR13Dbg).miniIc = s.miniIc := rfl
@[simp] theorem keepR13Dbg_fetchBuffers : (s.keepR13Dbg).fetchBuffers = s.fetchBuffers := rfl
@[simp] theorem keepR13Dbg_dcache : (s.keepR13Dbg).dcache = s.dcache := rfl
@[simp] theorem keepR13Dbg_miniDc : (s.keepR13Dbg).miniDc = s.miniDc := rfl
@[simp] theorem keepR13Dbg_writeBuffer : (s.keepR13Dbg).writeBuffer = s.writeBuffer := rfl
@[simp] theorem keepR13Dbg_btb : (s.keepR13Dbg).btb = s.btb := rfl
@[simp] theorem keepR13Dbg_mem : (s.keepR13Dbg).mem = s.mem := rfl
@[simp] theorem keepR13Dbg_modified : (s.keepR13Dbg).modified = s.modified := rfl
@[simp] theorem keepR13Dbg_physMap : (s.keepR13Dbg).physMap = s.physMap := rfl
@[simp] theorem keepR13Dbg_deviceLog : (s.keepR13Dbg).deviceLog = s.deviceLog := rfl
@[simp] theorem keepR13Dbg_deviceReplies : (s.keepR13Dbg).deviceReplies = s.deviceReplies := rfl
@[simp] theorem keepR13Dbg_between : (s.keepR13Dbg).between = s.between := rfl
@[simp] theorem keepR13Dbg_irqLine : (s.keepR13Dbg).irqLine = s.irqLine := rfl
@[simp] theorem keepR13Dbg_fiqLine : (s.keepR13Dbg).fiqLine = s.fiqLine := rfl
@[simp] theorem keepR13Dbg_pmuRoute : (s.keepR13Dbg).pmuRoute = s.pmuRoute := rfl
@[simp] theorem keepR13Dbg_wakeOnLines : (s.keepR13Dbg).wakeOnLines = s.wakeOnLines := rfl
@[simp] theorem keepR13Dbg_productRevision : (s.keepR13Dbg).productRevision = s.productRevision := rfl
@[simp] theorem keepR13Dbg_pendingAbort : (s.keepR13Dbg).pendingAbort = s.pendingAbort := rfl
@[simp] theorem keepR13Dbg_asyncWait : (s.keepR13Dbg).asyncWait = s.asyncWait := rfl
@[simp] theorem keepR13Dbg_power : (s.keepR13Dbg).power = s.power := rfl
@[simp] theorem keepR13Dbg_resetPin : (s.keepR13Dbg).resetPin = s.resetPin := rfl
@[simp] theorem keepR13Dbg_inReset : (s.keepR13Dbg).inReset = s.inReset := rfl
@[simp] theorem keepR13Dbg_battFault : (s.keepR13Dbg).battFault = s.battFault := rfl
@[simp] theorem keepR13Dbg_vddFault : (s.keepR13Dbg).vddFault = s.vddFault := rfl
@[simp] theorem keepR13Dbg_trstPin : (s.keepR13Dbg).trstPin = s.trstPin := rfl
@[simp] theorem keepR13Dbg_schedule : (s.keepR13Dbg).schedule = s.schedule := rfl
@[simp] theorem keepR13Dbg_hostReply : (s.keepR13Dbg).hostReply = s.hostReply := rfl
@[simp] theorem keepR13Dbg_freeCtr : (s.keepR13Dbg).freeCtr = s.freeCtr := rfl
@[simp] theorem keepR13Dbg_bankHazard : (s.keepR13Dbg).bankHazard = s.bankHazard := rfl

/-! ### noteBranch -/

@[simp] theorem noteBranch_gpr : (s.noteBranch).gpr = s.gpr := rfl
@[simp] theorem noteBranch_spsr : (s.noteBranch).spsr = s.spsr := rfl
@[simp] theorem noteBranch_pc : (s.noteBranch).pc = s.pc := rfl
@[simp] theorem noteBranch_cpsr : (s.noteBranch).cpsr = s.cpsr := rfl
@[simp] theorem noteBranch_acc0 : (s.noteBranch).acc0 = s.acc0 := rfl
@[simp] theorem noteBranch_cp15 : (s.noteBranch).cp15 = s.cp15 := rfl
@[simp] theorem noteBranch_pmu : (s.noteBranch).pmu = s.pmu := rfl
@[simp] theorem noteBranch_dbgUnit : (s.noteBranch).dbgUnit = s.dbgUnit := rfl
@[simp] theorem noteBranch_trace : (s.noteBranch).trace = s.trace := rfl
@[simp] theorem noteBranch_jtag : (s.noteBranch).jtag = s.jtag := rfl
@[simp] theorem noteBranch_itlb : (s.noteBranch).itlb = s.itlb := rfl
@[simp] theorem noteBranch_dtlb : (s.noteBranch).dtlb = s.dtlb := rfl
@[simp] theorem noteBranch_icache : (s.noteBranch).icache = s.icache := rfl
@[simp] theorem noteBranch_miniIc : (s.noteBranch).miniIc = s.miniIc := rfl
@[simp] theorem noteBranch_fetchBuffers : (s.noteBranch).fetchBuffers = s.fetchBuffers := rfl
@[simp] theorem noteBranch_dcache : (s.noteBranch).dcache = s.dcache := rfl
@[simp] theorem noteBranch_miniDc : (s.noteBranch).miniDc = s.miniDc := rfl
@[simp] theorem noteBranch_writeBuffer : (s.noteBranch).writeBuffer = s.writeBuffer := rfl
@[simp] theorem noteBranch_btb : (s.noteBranch).btb = s.btb := rfl
@[simp] theorem noteBranch_mem : (s.noteBranch).mem = s.mem := rfl
@[simp] theorem noteBranch_modified : (s.noteBranch).modified = s.modified := rfl
@[simp] theorem noteBranch_physMap : (s.noteBranch).physMap = s.physMap := rfl
@[simp] theorem noteBranch_deviceLog : (s.noteBranch).deviceLog = s.deviceLog := rfl
@[simp] theorem noteBranch_deviceReplies : (s.noteBranch).deviceReplies = s.deviceReplies := rfl
@[simp] theorem noteBranch_between : (s.noteBranch).between = s.between := rfl
@[simp] theorem noteBranch_irqLine : (s.noteBranch).irqLine = s.irqLine := rfl
@[simp] theorem noteBranch_fiqLine : (s.noteBranch).fiqLine = s.fiqLine := rfl
@[simp] theorem noteBranch_pmuRoute : (s.noteBranch).pmuRoute = s.pmuRoute := rfl
@[simp] theorem noteBranch_wakeOnLines : (s.noteBranch).wakeOnLines = s.wakeOnLines := rfl
@[simp] theorem noteBranch_productRevision : (s.noteBranch).productRevision = s.productRevision := rfl
@[simp] theorem noteBranch_pendingAbort : (s.noteBranch).pendingAbort = s.pendingAbort := rfl
@[simp] theorem noteBranch_asyncWait : (s.noteBranch).asyncWait = s.asyncWait := rfl
@[simp] theorem noteBranch_power : (s.noteBranch).power = s.power := rfl
@[simp] theorem noteBranch_resetPin : (s.noteBranch).resetPin = s.resetPin := rfl
@[simp] theorem noteBranch_inReset : (s.noteBranch).inReset = s.inReset := rfl
@[simp] theorem noteBranch_battFault : (s.noteBranch).battFault = s.battFault := rfl
@[simp] theorem noteBranch_vddFault : (s.noteBranch).vddFault = s.vddFault := rfl
@[simp] theorem noteBranch_trstPin : (s.noteBranch).trstPin = s.trstPin := rfl
@[simp] theorem noteBranch_schedule : (s.noteBranch).schedule = s.schedule := rfl
@[simp] theorem noteBranch_hostReply : (s.noteBranch).hostReply = s.hostReply := rfl
@[simp] theorem noteBranch_freeCtr : (s.noteBranch).freeCtr = s.freeCtr := rfl
@[simp] theorem noteBranch_bankHazard : (s.noteBranch).bankHazard = s.bankHazard := rfl

/-! ### noteLoadsPc -/

@[simp] theorem noteLoadsPc_gpr : (s.noteLoadsPc).gpr = s.gpr := rfl
@[simp] theorem noteLoadsPc_spsr : (s.noteLoadsPc).spsr = s.spsr := rfl
@[simp] theorem noteLoadsPc_pc : (s.noteLoadsPc).pc = s.pc := rfl
@[simp] theorem noteLoadsPc_cpsr : (s.noteLoadsPc).cpsr = s.cpsr := rfl
@[simp] theorem noteLoadsPc_acc0 : (s.noteLoadsPc).acc0 = s.acc0 := rfl
@[simp] theorem noteLoadsPc_cp15 : (s.noteLoadsPc).cp15 = s.cp15 := rfl
@[simp] theorem noteLoadsPc_pmu : (s.noteLoadsPc).pmu = s.pmu := rfl
@[simp] theorem noteLoadsPc_dbgUnit : (s.noteLoadsPc).dbgUnit = s.dbgUnit := rfl
@[simp] theorem noteLoadsPc_trace : (s.noteLoadsPc).trace = s.trace := rfl
@[simp] theorem noteLoadsPc_jtag : (s.noteLoadsPc).jtag = s.jtag := rfl
@[simp] theorem noteLoadsPc_itlb : (s.noteLoadsPc).itlb = s.itlb := rfl
@[simp] theorem noteLoadsPc_dtlb : (s.noteLoadsPc).dtlb = s.dtlb := rfl
@[simp] theorem noteLoadsPc_icache : (s.noteLoadsPc).icache = s.icache := rfl
@[simp] theorem noteLoadsPc_miniIc : (s.noteLoadsPc).miniIc = s.miniIc := rfl
@[simp] theorem noteLoadsPc_fetchBuffers : (s.noteLoadsPc).fetchBuffers = s.fetchBuffers := rfl
@[simp] theorem noteLoadsPc_dcache : (s.noteLoadsPc).dcache = s.dcache := rfl
@[simp] theorem noteLoadsPc_miniDc : (s.noteLoadsPc).miniDc = s.miniDc := rfl
@[simp] theorem noteLoadsPc_writeBuffer : (s.noteLoadsPc).writeBuffer = s.writeBuffer := rfl
@[simp] theorem noteLoadsPc_btb : (s.noteLoadsPc).btb = s.btb := rfl
@[simp] theorem noteLoadsPc_mem : (s.noteLoadsPc).mem = s.mem := rfl
@[simp] theorem noteLoadsPc_modified : (s.noteLoadsPc).modified = s.modified := rfl
@[simp] theorem noteLoadsPc_physMap : (s.noteLoadsPc).physMap = s.physMap := rfl
@[simp] theorem noteLoadsPc_deviceLog : (s.noteLoadsPc).deviceLog = s.deviceLog := rfl
@[simp] theorem noteLoadsPc_deviceReplies : (s.noteLoadsPc).deviceReplies = s.deviceReplies := rfl
@[simp] theorem noteLoadsPc_between : (s.noteLoadsPc).between = s.between := rfl
@[simp] theorem noteLoadsPc_irqLine : (s.noteLoadsPc).irqLine = s.irqLine := rfl
@[simp] theorem noteLoadsPc_fiqLine : (s.noteLoadsPc).fiqLine = s.fiqLine := rfl
@[simp] theorem noteLoadsPc_pmuRoute : (s.noteLoadsPc).pmuRoute = s.pmuRoute := rfl
@[simp] theorem noteLoadsPc_wakeOnLines : (s.noteLoadsPc).wakeOnLines = s.wakeOnLines := rfl
@[simp] theorem noteLoadsPc_productRevision : (s.noteLoadsPc).productRevision = s.productRevision := rfl
@[simp] theorem noteLoadsPc_pendingAbort : (s.noteLoadsPc).pendingAbort = s.pendingAbort := rfl
@[simp] theorem noteLoadsPc_asyncWait : (s.noteLoadsPc).asyncWait = s.asyncWait := rfl
@[simp] theorem noteLoadsPc_power : (s.noteLoadsPc).power = s.power := rfl
@[simp] theorem noteLoadsPc_resetPin : (s.noteLoadsPc).resetPin = s.resetPin := rfl
@[simp] theorem noteLoadsPc_inReset : (s.noteLoadsPc).inReset = s.inReset := rfl
@[simp] theorem noteLoadsPc_battFault : (s.noteLoadsPc).battFault = s.battFault := rfl
@[simp] theorem noteLoadsPc_vddFault : (s.noteLoadsPc).vddFault = s.vddFault := rfl
@[simp] theorem noteLoadsPc_trstPin : (s.noteLoadsPc).trstPin = s.trstPin := rfl
@[simp] theorem noteLoadsPc_schedule : (s.noteLoadsPc).schedule = s.schedule := rfl
@[simp] theorem noteLoadsPc_hostReply : (s.noteLoadsPc).hostReply = s.hostReply := rfl
@[simp] theorem noteLoadsPc_freeCtr : (s.noteLoadsPc).freeCtr = s.freeCtr := rfl
@[simp] theorem noteLoadsPc_bankHazard : (s.noteLoadsPc).bankHazard = s.bankHazard := rfl

/-! ### noteAccess -/

@[simp] theorem noteAccess_gpr (b : Bool) : (s.noteAccess b).gpr = s.gpr := rfl
@[simp] theorem noteAccess_spsr (b : Bool) : (s.noteAccess b).spsr = s.spsr := rfl
@[simp] theorem noteAccess_pc (b : Bool) : (s.noteAccess b).pc = s.pc := rfl
@[simp] theorem noteAccess_cpsr (b : Bool) : (s.noteAccess b).cpsr = s.cpsr := rfl
@[simp] theorem noteAccess_acc0 (b : Bool) : (s.noteAccess b).acc0 = s.acc0 := rfl
@[simp] theorem noteAccess_cp15 (b : Bool) : (s.noteAccess b).cp15 = s.cp15 := rfl
@[simp] theorem noteAccess_pmu (b : Bool) : (s.noteAccess b).pmu = s.pmu := rfl
@[simp] theorem noteAccess_dbgUnit (b : Bool) : (s.noteAccess b).dbgUnit = s.dbgUnit := rfl
@[simp] theorem noteAccess_trace (b : Bool) : (s.noteAccess b).trace = s.trace := rfl
@[simp] theorem noteAccess_jtag (b : Bool) : (s.noteAccess b).jtag = s.jtag := rfl
@[simp] theorem noteAccess_itlb (b : Bool) : (s.noteAccess b).itlb = s.itlb := rfl
@[simp] theorem noteAccess_dtlb (b : Bool) : (s.noteAccess b).dtlb = s.dtlb := rfl
@[simp] theorem noteAccess_icache (b : Bool) : (s.noteAccess b).icache = s.icache := rfl
@[simp] theorem noteAccess_miniIc (b : Bool) : (s.noteAccess b).miniIc = s.miniIc := rfl
@[simp] theorem noteAccess_fetchBuffers (b : Bool) : (s.noteAccess b).fetchBuffers = s.fetchBuffers := rfl
@[simp] theorem noteAccess_dcache (b : Bool) : (s.noteAccess b).dcache = s.dcache := rfl
@[simp] theorem noteAccess_miniDc (b : Bool) : (s.noteAccess b).miniDc = s.miniDc := rfl
@[simp] theorem noteAccess_writeBuffer (b : Bool) : (s.noteAccess b).writeBuffer = s.writeBuffer := rfl
@[simp] theorem noteAccess_btb (b : Bool) : (s.noteAccess b).btb = s.btb := rfl
@[simp] theorem noteAccess_mem (b : Bool) : (s.noteAccess b).mem = s.mem := rfl
@[simp] theorem noteAccess_modified (b : Bool) : (s.noteAccess b).modified = s.modified := rfl
@[simp] theorem noteAccess_physMap (b : Bool) : (s.noteAccess b).physMap = s.physMap := rfl
@[simp] theorem noteAccess_deviceLog (b : Bool) : (s.noteAccess b).deviceLog = s.deviceLog := rfl
@[simp] theorem noteAccess_deviceReplies (b : Bool) : (s.noteAccess b).deviceReplies = s.deviceReplies := rfl
@[simp] theorem noteAccess_between (b : Bool) : (s.noteAccess b).between = s.between := rfl
@[simp] theorem noteAccess_irqLine (b : Bool) : (s.noteAccess b).irqLine = s.irqLine := rfl
@[simp] theorem noteAccess_fiqLine (b : Bool) : (s.noteAccess b).fiqLine = s.fiqLine := rfl
@[simp] theorem noteAccess_pmuRoute (b : Bool) : (s.noteAccess b).pmuRoute = s.pmuRoute := rfl
@[simp] theorem noteAccess_wakeOnLines (b : Bool) : (s.noteAccess b).wakeOnLines = s.wakeOnLines := rfl
@[simp] theorem noteAccess_productRevision (b : Bool) : (s.noteAccess b).productRevision = s.productRevision := rfl
@[simp] theorem noteAccess_pendingAbort (b : Bool) : (s.noteAccess b).pendingAbort = s.pendingAbort := rfl
@[simp] theorem noteAccess_asyncWait (b : Bool) : (s.noteAccess b).asyncWait = s.asyncWait := rfl
@[simp] theorem noteAccess_power (b : Bool) : (s.noteAccess b).power = s.power := rfl
@[simp] theorem noteAccess_resetPin (b : Bool) : (s.noteAccess b).resetPin = s.resetPin := rfl
@[simp] theorem noteAccess_inReset (b : Bool) : (s.noteAccess b).inReset = s.inReset := rfl
@[simp] theorem noteAccess_battFault (b : Bool) : (s.noteAccess b).battFault = s.battFault := rfl
@[simp] theorem noteAccess_vddFault (b : Bool) : (s.noteAccess b).vddFault = s.vddFault := rfl
@[simp] theorem noteAccess_trstPin (b : Bool) : (s.noteAccess b).trstPin = s.trstPin := rfl
@[simp] theorem noteAccess_schedule (b : Bool) : (s.noteAccess b).schedule = s.schedule := rfl
@[simp] theorem noteAccess_hostReply (b : Bool) : (s.noteAccess b).hostReply = s.hostReply := rfl
@[simp] theorem noteAccess_freeCtr (b : Bool) : (s.noteAccess b).freeCtr = s.freeCtr := rfl
@[simp] theorem noteAccess_bankHazard (b : Bool) : (s.noteAccess b).bankHazard = s.bankHazard := rfl

/-! ### noteModified -/

@[simp] theorem noteModified_gpr (a : Word) (bs : List Byte) : (s.noteModified a bs).gpr = s.gpr := rfl
@[simp] theorem noteModified_spsr (a : Word) (bs : List Byte) : (s.noteModified a bs).spsr = s.spsr := rfl
@[simp] theorem noteModified_pc (a : Word) (bs : List Byte) : (s.noteModified a bs).pc = s.pc := rfl
@[simp] theorem noteModified_cpsr (a : Word) (bs : List Byte) : (s.noteModified a bs).cpsr = s.cpsr := rfl
@[simp] theorem noteModified_acc0 (a : Word) (bs : List Byte) : (s.noteModified a bs).acc0 = s.acc0 := rfl
@[simp] theorem noteModified_cp15 (a : Word) (bs : List Byte) : (s.noteModified a bs).cp15 = s.cp15 := rfl
@[simp] theorem noteModified_pmu (a : Word) (bs : List Byte) : (s.noteModified a bs).pmu = s.pmu := rfl
@[simp] theorem noteModified_dbgUnit (a : Word) (bs : List Byte) : (s.noteModified a bs).dbgUnit = s.dbgUnit := rfl
@[simp] theorem noteModified_trace (a : Word) (bs : List Byte) : (s.noteModified a bs).trace = s.trace := rfl
@[simp] theorem noteModified_jtag (a : Word) (bs : List Byte) : (s.noteModified a bs).jtag = s.jtag := rfl
@[simp] theorem noteModified_itlb (a : Word) (bs : List Byte) : (s.noteModified a bs).itlb = s.itlb := rfl
@[simp] theorem noteModified_dtlb (a : Word) (bs : List Byte) : (s.noteModified a bs).dtlb = s.dtlb := rfl
@[simp] theorem noteModified_icache (a : Word) (bs : List Byte) : (s.noteModified a bs).icache = s.icache := rfl
@[simp] theorem noteModified_miniIc (a : Word) (bs : List Byte) : (s.noteModified a bs).miniIc = s.miniIc := rfl
@[simp] theorem noteModified_fetchBuffers (a : Word) (bs : List Byte) : (s.noteModified a bs).fetchBuffers = s.fetchBuffers := rfl
@[simp] theorem noteModified_dcache (a : Word) (bs : List Byte) : (s.noteModified a bs).dcache = s.dcache := rfl
@[simp] theorem noteModified_miniDc (a : Word) (bs : List Byte) : (s.noteModified a bs).miniDc = s.miniDc := rfl
@[simp] theorem noteModified_writeBuffer (a : Word) (bs : List Byte) : (s.noteModified a bs).writeBuffer = s.writeBuffer := rfl
@[simp] theorem noteModified_btb (a : Word) (bs : List Byte) : (s.noteModified a bs).btb = s.btb := rfl
@[simp] theorem noteModified_mem (a : Word) (bs : List Byte) : (s.noteModified a bs).mem = s.mem := rfl
@[simp] theorem noteModified_physMap (a : Word) (bs : List Byte) : (s.noteModified a bs).physMap = s.physMap := rfl
@[simp] theorem noteModified_deviceLog (a : Word) (bs : List Byte) : (s.noteModified a bs).deviceLog = s.deviceLog := rfl
@[simp] theorem noteModified_deviceReplies (a : Word) (bs : List Byte) : (s.noteModified a bs).deviceReplies = s.deviceReplies := rfl
@[simp] theorem noteModified_between (a : Word) (bs : List Byte) : (s.noteModified a bs).between = s.between := rfl
@[simp] theorem noteModified_irqLine (a : Word) (bs : List Byte) : (s.noteModified a bs).irqLine = s.irqLine := rfl
@[simp] theorem noteModified_fiqLine (a : Word) (bs : List Byte) : (s.noteModified a bs).fiqLine = s.fiqLine := rfl
@[simp] theorem noteModified_pmuRoute (a : Word) (bs : List Byte) : (s.noteModified a bs).pmuRoute = s.pmuRoute := rfl
@[simp] theorem noteModified_wakeOnLines (a : Word) (bs : List Byte) : (s.noteModified a bs).wakeOnLines = s.wakeOnLines := rfl
@[simp] theorem noteModified_productRevision (a : Word) (bs : List Byte) : (s.noteModified a bs).productRevision = s.productRevision := rfl
@[simp] theorem noteModified_pendingAbort (a : Word) (bs : List Byte) : (s.noteModified a bs).pendingAbort = s.pendingAbort := rfl
@[simp] theorem noteModified_asyncWait (a : Word) (bs : List Byte) : (s.noteModified a bs).asyncWait = s.asyncWait := rfl
@[simp] theorem noteModified_power (a : Word) (bs : List Byte) : (s.noteModified a bs).power = s.power := rfl
@[simp] theorem noteModified_resetPin (a : Word) (bs : List Byte) : (s.noteModified a bs).resetPin = s.resetPin := rfl
@[simp] theorem noteModified_inReset (a : Word) (bs : List Byte) : (s.noteModified a bs).inReset = s.inReset := rfl
@[simp] theorem noteModified_battFault (a : Word) (bs : List Byte) : (s.noteModified a bs).battFault = s.battFault := rfl
@[simp] theorem noteModified_vddFault (a : Word) (bs : List Byte) : (s.noteModified a bs).vddFault = s.vddFault := rfl
@[simp] theorem noteModified_trstPin (a : Word) (bs : List Byte) : (s.noteModified a bs).trstPin = s.trstPin := rfl
@[simp] theorem noteModified_schedule (a : Word) (bs : List Byte) : (s.noteModified a bs).schedule = s.schedule := rfl
@[simp] theorem noteModified_hostReply (a : Word) (bs : List Byte) : (s.noteModified a bs).hostReply = s.hostReply := rfl
@[simp] theorem noteModified_freeCtr (a : Word) (bs : List Byte) : (s.noteModified a bs).freeCtr = s.freeCtr := rfl
@[simp] theorem noteModified_bankHazard (a : Word) (bs : List Byte) : (s.noteModified a bs).bankHazard = s.bankHazard := rfl
@[simp] theorem noteModified_scratch (a : Word) (bs : List Byte) : (s.noteModified a bs).scratch = s.scratch := rfl

/-! ### settle -/

@[simp] theorem settle_gpr (f : Nat → Bool) : (s.settle f).gpr = s.gpr := rfl
@[simp] theorem settle_spsr (f : Nat → Bool) : (s.settle f).spsr = s.spsr := rfl
@[simp] theorem settle_pc (f : Nat → Bool) : (s.settle f).pc = s.pc := rfl
@[simp] theorem settle_cpsr (f : Nat → Bool) : (s.settle f).cpsr = s.cpsr := rfl
@[simp] theorem settle_acc0 (f : Nat → Bool) : (s.settle f).acc0 = s.acc0 := rfl
@[simp] theorem settle_cp15 (f : Nat → Bool) : (s.settle f).cp15 = s.cp15 := rfl
@[simp] theorem settle_pmu (f : Nat → Bool) : (s.settle f).pmu = s.pmu := rfl
@[simp] theorem settle_dbgUnit (f : Nat → Bool) : (s.settle f).dbgUnit = s.dbgUnit := rfl
@[simp] theorem settle_trace (f : Nat → Bool) : (s.settle f).trace = s.trace := rfl
@[simp] theorem settle_jtag (f : Nat → Bool) : (s.settle f).jtag = s.jtag := rfl
@[simp] theorem settle_itlb (f : Nat → Bool) : (s.settle f).itlb = s.itlb := rfl
@[simp] theorem settle_dtlb (f : Nat → Bool) : (s.settle f).dtlb = s.dtlb := rfl
@[simp] theorem settle_icache (f : Nat → Bool) : (s.settle f).icache = s.icache := rfl
@[simp] theorem settle_miniIc (f : Nat → Bool) : (s.settle f).miniIc = s.miniIc := rfl
@[simp] theorem settle_fetchBuffers (f : Nat → Bool) : (s.settle f).fetchBuffers = s.fetchBuffers := rfl
@[simp] theorem settle_dcache (f : Nat → Bool) : (s.settle f).dcache = s.dcache := rfl
@[simp] theorem settle_miniDc (f : Nat → Bool) : (s.settle f).miniDc = s.miniDc := rfl
@[simp] theorem settle_writeBuffer (f : Nat → Bool) : (s.settle f).writeBuffer = s.writeBuffer := rfl
@[simp] theorem settle_btb (f : Nat → Bool) : (s.settle f).btb = s.btb := rfl
@[simp] theorem settle_mem (f : Nat → Bool) : (s.settle f).mem = s.mem := rfl
@[simp] theorem settle_physMap (f : Nat → Bool) : (s.settle f).physMap = s.physMap := rfl
@[simp] theorem settle_deviceLog (f : Nat → Bool) : (s.settle f).deviceLog = s.deviceLog := rfl
@[simp] theorem settle_deviceReplies (f : Nat → Bool) : (s.settle f).deviceReplies = s.deviceReplies := rfl
@[simp] theorem settle_between (f : Nat → Bool) : (s.settle f).between = s.between := rfl
@[simp] theorem settle_irqLine (f : Nat → Bool) : (s.settle f).irqLine = s.irqLine := rfl
@[simp] theorem settle_fiqLine (f : Nat → Bool) : (s.settle f).fiqLine = s.fiqLine := rfl
@[simp] theorem settle_pmuRoute (f : Nat → Bool) : (s.settle f).pmuRoute = s.pmuRoute := rfl
@[simp] theorem settle_wakeOnLines (f : Nat → Bool) : (s.settle f).wakeOnLines = s.wakeOnLines := rfl
@[simp] theorem settle_productRevision (f : Nat → Bool) : (s.settle f).productRevision = s.productRevision := rfl
@[simp] theorem settle_pendingAbort (f : Nat → Bool) : (s.settle f).pendingAbort = s.pendingAbort := rfl
@[simp] theorem settle_asyncWait (f : Nat → Bool) : (s.settle f).asyncWait = s.asyncWait := rfl
@[simp] theorem settle_power (f : Nat → Bool) : (s.settle f).power = s.power := rfl
@[simp] theorem settle_resetPin (f : Nat → Bool) : (s.settle f).resetPin = s.resetPin := rfl
@[simp] theorem settle_inReset (f : Nat → Bool) : (s.settle f).inReset = s.inReset := rfl
@[simp] theorem settle_battFault (f : Nat → Bool) : (s.settle f).battFault = s.battFault := rfl
@[simp] theorem settle_vddFault (f : Nat → Bool) : (s.settle f).vddFault = s.vddFault := rfl
@[simp] theorem settle_trstPin (f : Nat → Bool) : (s.settle f).trstPin = s.trstPin := rfl
@[simp] theorem settle_schedule (f : Nat → Bool) : (s.settle f).schedule = s.schedule := rfl
@[simp] theorem settle_hostReply (f : Nat → Bool) : (s.settle f).hostReply = s.hostReply := rfl
@[simp] theorem settle_freeCtr (f : Nat → Bool) : (s.settle f).freeCtr = s.freeCtr := rfl
@[simp] theorem settle_bankHazard (f : Nat → Bool) : (s.settle f).bankHazard = s.bankHazard := rfl
@[simp] theorem settle_scratch (f : Nat → Bool) : (s.settle f).scratch = s.scratch := rfl

/-! ### logDevice -/

@[simp] theorem logDevice_gpr (w : Bool) (a : Word) (bs : List Byte) : (s.logDevice w a bs).gpr = s.gpr := rfl
@[simp] theorem logDevice_spsr (w : Bool) (a : Word) (bs : List Byte) : (s.logDevice w a bs).spsr = s.spsr := rfl
@[simp] theorem logDevice_pc (w : Bool) (a : Word) (bs : List Byte) : (s.logDevice w a bs).pc = s.pc := rfl
@[simp] theorem logDevice_cpsr (w : Bool) (a : Word) (bs : List Byte) : (s.logDevice w a bs).cpsr = s.cpsr := rfl
@[simp] theorem logDevice_acc0 (w : Bool) (a : Word) (bs : List Byte) : (s.logDevice w a bs).acc0 = s.acc0 := rfl
@[simp] theorem logDevice_cp15 (w : Bool) (a : Word) (bs : List Byte) : (s.logDevice w a bs).cp15 = s.cp15 := rfl
@[simp] theorem logDevice_pmu (w : Bool) (a : Word) (bs : List Byte) : (s.logDevice w a bs).pmu = s.pmu := rfl
@[simp] theorem logDevice_dbgUnit (w : Bool) (a : Word) (bs : List Byte) : (s.logDevice w a bs).dbgUnit = s.dbgUnit := rfl
@[simp] theorem logDevice_trace (w : Bool) (a : Word) (bs : List Byte) : (s.logDevice w a bs).trace = s.trace := rfl
@[simp] theorem logDevice_jtag (w : Bool) (a : Word) (bs : List Byte) : (s.logDevice w a bs).jtag = s.jtag := rfl
@[simp] theorem logDevice_itlb (w : Bool) (a : Word) (bs : List Byte) : (s.logDevice w a bs).itlb = s.itlb := rfl
@[simp] theorem logDevice_dtlb (w : Bool) (a : Word) (bs : List Byte) : (s.logDevice w a bs).dtlb = s.dtlb := rfl
@[simp] theorem logDevice_icache (w : Bool) (a : Word) (bs : List Byte) : (s.logDevice w a bs).icache = s.icache := rfl
@[simp] theorem logDevice_miniIc (w : Bool) (a : Word) (bs : List Byte) : (s.logDevice w a bs).miniIc = s.miniIc := rfl
@[simp] theorem logDevice_fetchBuffers (w : Bool) (a : Word) (bs : List Byte) : (s.logDevice w a bs).fetchBuffers = s.fetchBuffers := rfl
@[simp] theorem logDevice_dcache (w : Bool) (a : Word) (bs : List Byte) : (s.logDevice w a bs).dcache = s.dcache := rfl
@[simp] theorem logDevice_miniDc (w : Bool) (a : Word) (bs : List Byte) : (s.logDevice w a bs).miniDc = s.miniDc := rfl
@[simp] theorem logDevice_writeBuffer (w : Bool) (a : Word) (bs : List Byte) : (s.logDevice w a bs).writeBuffer = s.writeBuffer := rfl
@[simp] theorem logDevice_btb (w : Bool) (a : Word) (bs : List Byte) : (s.logDevice w a bs).btb = s.btb := rfl
@[simp] theorem logDevice_mem (w : Bool) (a : Word) (bs : List Byte) : (s.logDevice w a bs).mem = s.mem := rfl
@[simp] theorem logDevice_modified (w : Bool) (a : Word) (bs : List Byte) : (s.logDevice w a bs).modified = s.modified := rfl
@[simp] theorem logDevice_physMap (w : Bool) (a : Word) (bs : List Byte) : (s.logDevice w a bs).physMap = s.physMap := rfl
@[simp] theorem logDevice_deviceReplies (w : Bool) (a : Word) (bs : List Byte) : (s.logDevice w a bs).deviceReplies = s.deviceReplies := rfl
@[simp] theorem logDevice_between (w : Bool) (a : Word) (bs : List Byte) : (s.logDevice w a bs).between = s.between := rfl
@[simp] theorem logDevice_irqLine (w : Bool) (a : Word) (bs : List Byte) : (s.logDevice w a bs).irqLine = s.irqLine := rfl
@[simp] theorem logDevice_fiqLine (w : Bool) (a : Word) (bs : List Byte) : (s.logDevice w a bs).fiqLine = s.fiqLine := rfl
@[simp] theorem logDevice_pmuRoute (w : Bool) (a : Word) (bs : List Byte) : (s.logDevice w a bs).pmuRoute = s.pmuRoute := rfl
@[simp] theorem logDevice_wakeOnLines (w : Bool) (a : Word) (bs : List Byte) : (s.logDevice w a bs).wakeOnLines = s.wakeOnLines := rfl
@[simp] theorem logDevice_productRevision (w : Bool) (a : Word) (bs : List Byte) : (s.logDevice w a bs).productRevision = s.productRevision := rfl
@[simp] theorem logDevice_pendingAbort (w : Bool) (a : Word) (bs : List Byte) : (s.logDevice w a bs).pendingAbort = s.pendingAbort := rfl
@[simp] theorem logDevice_asyncWait (w : Bool) (a : Word) (bs : List Byte) : (s.logDevice w a bs).asyncWait = s.asyncWait := rfl
@[simp] theorem logDevice_power (w : Bool) (a : Word) (bs : List Byte) : (s.logDevice w a bs).power = s.power := rfl
@[simp] theorem logDevice_resetPin (w : Bool) (a : Word) (bs : List Byte) : (s.logDevice w a bs).resetPin = s.resetPin := rfl
@[simp] theorem logDevice_inReset (w : Bool) (a : Word) (bs : List Byte) : (s.logDevice w a bs).inReset = s.inReset := rfl
@[simp] theorem logDevice_battFault (w : Bool) (a : Word) (bs : List Byte) : (s.logDevice w a bs).battFault = s.battFault := rfl
@[simp] theorem logDevice_vddFault (w : Bool) (a : Word) (bs : List Byte) : (s.logDevice w a bs).vddFault = s.vddFault := rfl
@[simp] theorem logDevice_trstPin (w : Bool) (a : Word) (bs : List Byte) : (s.logDevice w a bs).trstPin = s.trstPin := rfl
@[simp] theorem logDevice_schedule (w : Bool) (a : Word) (bs : List Byte) : (s.logDevice w a bs).schedule = s.schedule := rfl
@[simp] theorem logDevice_hostReply (w : Bool) (a : Word) (bs : List Byte) : (s.logDevice w a bs).hostReply = s.hostReply := rfl
@[simp] theorem logDevice_freeCtr (w : Bool) (a : Word) (bs : List Byte) : (s.logDevice w a bs).freeCtr = s.freeCtr := rfl
@[simp] theorem logDevice_bankHazard (w : Bool) (a : Word) (bs : List Byte) : (s.logDevice w a bs).bankHazard = s.bankHazard := rfl
@[simp] theorem logDevice_scratch (w : Bool) (a : Word) (bs : List Byte) : (s.logDevice w a bs).scratch = s.scratch := rfl

/-! ### noteBreak -/

@[simp] theorem noteBreak_gpr (a : Word) (n : Nat) (w : Bool) : (s.noteBreak a n w).gpr = s.gpr := rfl
@[simp] theorem noteBreak_spsr (a : Word) (n : Nat) (w : Bool) : (s.noteBreak a n w).spsr = s.spsr := rfl
@[simp] theorem noteBreak_pc (a : Word) (n : Nat) (w : Bool) : (s.noteBreak a n w).pc = s.pc := rfl
@[simp] theorem noteBreak_cpsr (a : Word) (n : Nat) (w : Bool) : (s.noteBreak a n w).cpsr = s.cpsr := rfl
@[simp] theorem noteBreak_acc0 (a : Word) (n : Nat) (w : Bool) : (s.noteBreak a n w).acc0 = s.acc0 := rfl
@[simp] theorem noteBreak_cp15 (a : Word) (n : Nat) (w : Bool) : (s.noteBreak a n w).cp15 = s.cp15 := rfl
@[simp] theorem noteBreak_pmu (a : Word) (n : Nat) (w : Bool) : (s.noteBreak a n w).pmu = s.pmu := rfl
@[simp] theorem noteBreak_dbgUnit (a : Word) (n : Nat) (w : Bool) : (s.noteBreak a n w).dbgUnit = s.dbgUnit := rfl
@[simp] theorem noteBreak_trace (a : Word) (n : Nat) (w : Bool) : (s.noteBreak a n w).trace = s.trace := rfl
@[simp] theorem noteBreak_jtag (a : Word) (n : Nat) (w : Bool) : (s.noteBreak a n w).jtag = s.jtag := rfl
@[simp] theorem noteBreak_itlb (a : Word) (n : Nat) (w : Bool) : (s.noteBreak a n w).itlb = s.itlb := rfl
@[simp] theorem noteBreak_dtlb (a : Word) (n : Nat) (w : Bool) : (s.noteBreak a n w).dtlb = s.dtlb := rfl
@[simp] theorem noteBreak_icache (a : Word) (n : Nat) (w : Bool) : (s.noteBreak a n w).icache = s.icache := rfl
@[simp] theorem noteBreak_miniIc (a : Word) (n : Nat) (w : Bool) : (s.noteBreak a n w).miniIc = s.miniIc := rfl
@[simp] theorem noteBreak_fetchBuffers (a : Word) (n : Nat) (w : Bool) : (s.noteBreak a n w).fetchBuffers = s.fetchBuffers := rfl
@[simp] theorem noteBreak_dcache (a : Word) (n : Nat) (w : Bool) : (s.noteBreak a n w).dcache = s.dcache := rfl
@[simp] theorem noteBreak_miniDc (a : Word) (n : Nat) (w : Bool) : (s.noteBreak a n w).miniDc = s.miniDc := rfl
@[simp] theorem noteBreak_writeBuffer (a : Word) (n : Nat) (w : Bool) : (s.noteBreak a n w).writeBuffer = s.writeBuffer := rfl
@[simp] theorem noteBreak_btb (a : Word) (n : Nat) (w : Bool) : (s.noteBreak a n w).btb = s.btb := rfl
@[simp] theorem noteBreak_mem (a : Word) (n : Nat) (w : Bool) : (s.noteBreak a n w).mem = s.mem := rfl
@[simp] theorem noteBreak_modified (a : Word) (n : Nat) (w : Bool) : (s.noteBreak a n w).modified = s.modified := rfl
@[simp] theorem noteBreak_physMap (a : Word) (n : Nat) (w : Bool) : (s.noteBreak a n w).physMap = s.physMap := rfl
@[simp] theorem noteBreak_deviceLog (a : Word) (n : Nat) (w : Bool) : (s.noteBreak a n w).deviceLog = s.deviceLog := rfl
@[simp] theorem noteBreak_deviceReplies (a : Word) (n : Nat) (w : Bool) : (s.noteBreak a n w).deviceReplies = s.deviceReplies := rfl
@[simp] theorem noteBreak_between (a : Word) (n : Nat) (w : Bool) : (s.noteBreak a n w).between = s.between := rfl
@[simp] theorem noteBreak_irqLine (a : Word) (n : Nat) (w : Bool) : (s.noteBreak a n w).irqLine = s.irqLine := rfl
@[simp] theorem noteBreak_fiqLine (a : Word) (n : Nat) (w : Bool) : (s.noteBreak a n w).fiqLine = s.fiqLine := rfl
@[simp] theorem noteBreak_pmuRoute (a : Word) (n : Nat) (w : Bool) : (s.noteBreak a n w).pmuRoute = s.pmuRoute := rfl
@[simp] theorem noteBreak_wakeOnLines (a : Word) (n : Nat) (w : Bool) : (s.noteBreak a n w).wakeOnLines = s.wakeOnLines := rfl
@[simp] theorem noteBreak_productRevision (a : Word) (n : Nat) (w : Bool) : (s.noteBreak a n w).productRevision = s.productRevision := rfl
@[simp] theorem noteBreak_pendingAbort (a : Word) (n : Nat) (w : Bool) : (s.noteBreak a n w).pendingAbort = s.pendingAbort := rfl
@[simp] theorem noteBreak_asyncWait (a : Word) (n : Nat) (w : Bool) : (s.noteBreak a n w).asyncWait = s.asyncWait := rfl
@[simp] theorem noteBreak_power (a : Word) (n : Nat) (w : Bool) : (s.noteBreak a n w).power = s.power := rfl
@[simp] theorem noteBreak_resetPin (a : Word) (n : Nat) (w : Bool) : (s.noteBreak a n w).resetPin = s.resetPin := rfl
@[simp] theorem noteBreak_inReset (a : Word) (n : Nat) (w : Bool) : (s.noteBreak a n w).inReset = s.inReset := rfl
@[simp] theorem noteBreak_battFault (a : Word) (n : Nat) (w : Bool) : (s.noteBreak a n w).battFault = s.battFault := rfl
@[simp] theorem noteBreak_vddFault (a : Word) (n : Nat) (w : Bool) : (s.noteBreak a n w).vddFault = s.vddFault := rfl
@[simp] theorem noteBreak_trstPin (a : Word) (n : Nat) (w : Bool) : (s.noteBreak a n w).trstPin = s.trstPin := rfl
@[simp] theorem noteBreak_schedule (a : Word) (n : Nat) (w : Bool) : (s.noteBreak a n w).schedule = s.schedule := rfl
@[simp] theorem noteBreak_hostReply (a : Word) (n : Nat) (w : Bool) : (s.noteBreak a n w).hostReply = s.hostReply := rfl
@[simp] theorem noteBreak_freeCtr (a : Word) (n : Nat) (w : Bool) : (s.noteBreak a n w).freeCtr = s.freeCtr := rfl
@[simp] theorem noteBreak_bankHazard (a : Word) (n : Nat) (w : Bool) : (s.noteBreak a n w).bankHazard = s.bankHazard := rfl

/-! ### The fields that an update writes -/

@[simp] theorem advance_pc : s.advance.pc = s.pc + s.instrBytes := rfl
@[simp] theorem skip_pc : s.skip.pc = s.pc + s.instrBytes := rfl
@[simp] theorem jump_pc (a : Word) (i : Bool) : (s.jump a i).pc = a := rfl

end Sys2Proof.Machine
end

