-- ==== Sys2Proof/Laws/Regs.lean ====
section
/-!
SUPPORT. Reading registers, flags and modes back after a write.
-/

namespace Sys2Proof.Machine

variable (s : State)

/-! ### Registers -/

/-- In one mode, two numbers other than R15 name two registers. -/
theorem regIndex_inj : ∀ (m : Mode) (r r' : RegNum), r ≠ 15#4 → r' ≠ 15#4 → regIndex m r = regIndex m r' → r = r' := by
  intro m; cases m <;> decide

theorem gpr_setBankReg (m : Mode) (r : RegNum) (v : Word) (i : Fin 32) :
    (s.setBankReg m r v).gpr[i.val] = if regIndex m r = i then v else s.gpr[i.val] := by
  simp only [State.setBankReg, Vector.getElem_set, Fin.ext_iff]

/-- What a register write leaves, register by physical register. -/
theorem gpr_setReg (r : RegNum) (v : Word) (i : Fin 32) (hr : r ≠ 15#4) :
    (s.setReg r v).gpr[i.val] = if regIndex s.mode r = i then v else s.gpr[i.val] := by
  simp only [State.setReg, hr, if_false, gpr_setBankReg]

theorem gpr_setReg_of_ne (r : RegNum) (v : Word) (i : Fin 32) (h : regIndex s.mode r ≠ i) :
    (s.setReg r v).gpr[i.val] = s.gpr[i.val] := by
  unfold State.setReg
  split
  · rfl
  · simp only [gpr_setBankReg, h, if_false]

theorem bankReg_setBankReg_self (m : Mode) (r : RegNum) (v : Word) : (s.setBankReg m r v).bankReg m r = v := by
  simp [State.bankReg, gpr_setBankReg]

theorem bankReg_setBankReg_of_ne (m m' : Mode) (r r' : RegNum) (v : Word) (h : regIndex m r ≠ regIndex m' r') :
    (s.setBankReg m r v).bankReg m' r' = s.bankReg m' r' := by
  simp [State.bankReg, gpr_setBankReg, h]

/-! ### The mode and the state bits after an update -/

theorem mode_of_cpsr (s t : State) (h : t.cpsr = s.cpsr) : t.mode = s.mode := by simp [State.mode, h]

@[simp] theorem mode_setReg (r : RegNum) (v : Word) : (s.setReg r v).mode = s.mode := mode_of_cpsr _ _ (by simp)
@[simp] theorem mode_setBankReg (m : Mode) (r : RegNum) (v : Word) : (s.setBankReg m r v).mode = s.mode := rfl
@[simp] theorem mode_advance : s.advance.mode = s.mode := rfl
@[simp] theorem mode_skip : s.skip.mode = s.mode := rfl
@[simp] theorem mode_keepR13Dbg : s.keepR13Dbg.mode = s.mode := rfl
@[simp] theorem mode_noteBranch : s.noteBranch.mode = s.mode := rfl
@[simp] theorem mode_noteLoadsPc : s.noteLoadsPc.mode = s.mode := rfl
@[simp] theorem mode_jump (a : Word) (i : Bool) : (s.jump a i).mode = s.mode := rfl

/-- The bits of a CPSR with new flags, one by one. -/
theorem getLsbD_nzcv (n z c v : Bool) (x : Word) (i : Nat) :
    ((BitVec.ofBool n ++ BitVec.ofBool z ++ BitVec.ofBool c ++ BitVec.ofBool v) ++ x.extractLsb' 0 28 : Word).getLsbD i =
      if i < 28 then x.getLsbD i
      else if i = 28 then v else if i = 29 then c else if i = 30 then z else if i = 31 then n else false := by
  rw [BitVec.getLsbD_append]
  by_cases h : i < 28
  · simp [h]
  · simp only [h, if_false, BitVec.getLsbD_append, BitVec.getLsbD_ofBool]
    by_cases h1 : i = 28
    · subst h1; simp
    by_cases h2 : i = 29
    · subst h2; simp
    by_cases h3 : i = 30
    · subst h3; simp
    by_cases h4 : i = 31
    · subst h4; simp
    simp only [h1, h2, h3, h4, if_false]
    have e0 : i - 28 ≠ 0 := by omega
    have e1 : i - 28 - 1 ≠ 0 := by omega
    have e2 : i - 28 - 1 - 1 ≠ 0 := by omega
    have e3 : i - 28 - 1 - 1 - 1 ≠ 0 := by omega
    have f0 : ¬ i - 28 < 1 := by omega
    have f1 : ¬ i - 28 - 1 < 1 := by omega
    have f2 : ¬ i - 28 - 1 - 1 < 1 := by omega
    simp [e0, e1, e2, e3]

theorem low_setNzcv (n z c v : Bool) (i : Nat) (h : i < 28) :
    (s.setNzcv n z c v).cpsr.getLsbD i = s.cpsr.getLsbD i := by
  simp only [State.setNzcv, getLsbD_nzcv, h, if_true]

theorem low28_setNzcv (n z c v : Bool) : (s.setNzcv n z c v).cpsr.extractLsb' 0 28 = s.cpsr.extractLsb' 0 28 := by
  apply BitVec.eq_of_getLsbD_eq
  intro i hi
  simp only [BitVec.getLsbD_extractLsb', Nat.zero_add, low_setNzcv s n z c v i hi]

@[simp] theorem mode_setNzcv (n z c v : Bool) : (s.setNzcv n z c v).mode = s.mode := by
  have h : (s.setNzcv n z c v).cpsr.extractLsb' 0 5 = s.cpsr.extractLsb' 0 5 := by
    apply BitVec.eq_of_getLsbD_eq
    intro i hi
    have := low_setNzcv s n z c v i (by omega)
    simp only [BitVec.getLsbD_extractLsb', Nat.zero_add, hi, decide_true, Bool.true_and, this]
  simp only [State.mode, modeBits, h]

@[simp] theorem thumb_setNzcv (n z c v : Bool) : (s.setNzcv n z c v).thumb = s.thumb := low_setNzcv s n z c v 5 (by omega)
@[simp] theorem thumb_setReg (r : RegNum) (v : Word) : (s.setReg r v).thumb = s.thumb := by simp [State.thumb]
@[simp] theorem thumb_keepR13Dbg : s.keepR13Dbg.thumb = s.thumb := rfl
@[simp] theorem thumb_noteBranch : s.noteBranch.thumb = s.thumb := rfl

@[simp] theorem instrBytes_setNzcv (n z c v : Bool) : (s.setNzcv n z c v).instrBytes = s.instrBytes := by
  simp [State.instrBytes]
@[simp] theorem instrBytes_setReg (r : RegNum) (v : Word) : (s.setReg r v).instrBytes = s.instrBytes := by
  simp [State.instrBytes]
@[simp] theorem instrBytes_keepR13Dbg : s.keepR13Dbg.instrBytes = s.instrBytes := rfl

/-! ### Reading an operand after an update -/

theorem bankReg_setReg_self (r : RegNum) (v : Word) (hr : r ≠ 15#4) : (s.setReg r v).bankReg s.mode r = v := by
  simp [State.setReg, hr, bankReg_setBankReg_self]

theorem reg_setReg_self (r : RegNum) (v : Word) (hr : r ≠ 15#4) : (s.setReg r v).reg r = v := by
  rw [State.reg, if_neg hr, mode_setReg, bankReg_setReg_self s r v hr]

theorem reg_setReg_of_ne (r r' : RegNum) (v : Word) (h : r' ≠ r) : (s.setReg r v).reg r' = s.reg r' := by
  by_cases h15 : r' = 15#4
  · simp [State.reg, h15, State.pcRead]
  · by_cases hr : r = 15#4
    · simp [State.setReg, hr]
    · have : regIndex s.mode r ≠ regIndex s.mode r' := fun e => h (regIndex_inj _ _ _ h15 hr e.symm)
      simp [State.reg, h15, State.setReg, hr, bankReg_setBankReg_of_ne _ _ _ _ _ _ this]

theorem reg_congr (s t : State) (r : RegNum) (hr : r ≠ 15#4) (hg : t.gpr = s.gpr) (hm : t.mode = s.mode) :
    t.reg r = s.reg r := by
  simp [State.reg, hr, State.bankReg, hg, hm]

@[simp] theorem reg_advance (r : RegNum) (hr : r ≠ 15#4) : s.advance.reg r = s.reg r := reg_congr _ _ _ hr rfl rfl
@[simp] theorem reg_keepR13Dbg (r : RegNum) : s.keepR13Dbg.reg r = s.reg r := rfl
@[simp] theorem reg_noteBranch (r : RegNum) : s.noteBranch.reg r = s.reg r := rfl
@[simp] theorem reg_setNzcv (r : RegNum) (n z c v : Bool) (hr : r ≠ 15#4) : (s.setNzcv n z c v).reg r = s.reg r :=
  reg_congr _ _ _ hr rfl (by simp)

/-! ### Flags after a write -/

@[simp] theorem flagN_setNzcv (n z c v : Bool) : (s.setNzcv n z c v).flagN = n := by
  simp [State.flagN, State.setNzcv, getLsbD_nzcv, -BitVec.getLsbD_eq_getElem]
@[simp] theorem flagZ_setNzcv (n z c v : Bool) : (s.setNzcv n z c v).flagZ = z := by
  simp [State.flagZ, State.setNzcv, getLsbD_nzcv, -BitVec.getLsbD_eq_getElem]
@[simp] theorem flagC_setNzcv (n z c v : Bool) : (s.setNzcv n z c v).flagC = c := by
  simp [State.flagC, State.setNzcv, getLsbD_nzcv, -BitVec.getLsbD_eq_getElem]
@[simp] theorem flagV_setNzcv (n z c v : Bool) : (s.setNzcv n z c v).flagV = v := by
  simp [State.flagV, State.setNzcv, getLsbD_nzcv, -BitVec.getLsbD_eq_getElem]

@[simp] theorem flagN_advance : s.advance.flagN = s.flagN := rfl
@[simp] theorem flagZ_advance : s.advance.flagZ = s.flagZ := rfl
@[simp] theorem flagC_advance : s.advance.flagC = s.flagC := rfl
@[simp] theorem flagV_advance : s.advance.flagV = s.flagV := rfl
@[simp] theorem flagN_keepR13Dbg : s.keepR13Dbg.flagN = s.flagN := rfl
@[simp] theorem flagZ_keepR13Dbg : s.keepR13Dbg.flagZ = s.flagZ := rfl
@[simp] theorem flagC_keepR13Dbg : s.keepR13Dbg.flagC = s.flagC := rfl
@[simp] theorem flagV_keepR13Dbg : s.keepR13Dbg.flagV = s.flagV := rfl
@[simp] theorem flagC_setReg (r : RegNum) (v : Word) : (s.setReg r v).flagC = s.flagC := by simp [State.flagC]
@[simp] theorem flagV_setReg (r : RegNum) (v : Word) : (s.setReg r v).flagV = s.flagV := by simp [State.flagV]
@[simp] theorem passes_keepR13Dbg (c : BitVec 4) : s.keepR13Dbg.passes c = s.passes c := rfl

end Sys2Proof.Machine
end

