-- ==== Sys2Proof/Laws/Frame.lean ====
section
/-!
SUPPORT. The frames of the shared updates: what a register write, a flag write, a jump and the notes of a step leave
unchanged. A frame of a meaning is a chain of these.
-/

namespace Sys2Proof.Machine

variable {s t u : State} {rs : List RegNum}

/-! ### The parts of a frame -/

theorem RestKept.refl (s : State) : RestKept s s := rfl

theorem RestKept.trans (h : RestKept s t) (h' : RestKept t u) : RestKept s u := by
  unfold RestKept at *
  rw [← h, ← h']

theorem RegsKept.refl (rs : List RegNum) (s : State) : RegsKept rs s s := fun _ _ => rfl

theorem RegsKept.trans (h : RegsKept rs s t) (hm : t.mode = s.mode) (h' : RegsKept rs t u) : RegsKept rs s u :=
  fun i hi => (h' i (by rw [hm]; exact hi)).trans (h i hi)

theorem RegsKept.mono {rs' : List RegNum} (h : RegsKept rs s t) (hs : ∀ r ∈ rs, r ∈ rs') : RegsKept rs' s t :=
  fun i hi => h i fun r hr => hi r (hs r hr)

/-- The bytes of memory depend on memory and the write buffer alone. -/
theorem bytesKept_of_eq (hm : t.mem = s.mem) (hw : t.writeBuffer = s.writeBuffer) : BytesKept s t := fun a => by
  simp only [State.dataByte, State.busByte, hm, hw]

theorem BytesKept.trans (h : BytesKept s t) (h' : BytesKept t u) : BytesKept s u := fun a => (h' a).trans (h a)

theorem RestKept.mem (h : RestKept s t) : t.mem = s.mem := by
  have e := congrArg State.mem h; exact e
theorem RestKept.writeBuffer (h : RestKept s t) : t.writeBuffer = s.writeBuffer := by
  have e := congrArg State.writeBuffer h; exact e
theorem RestKept.cp15 (h : RestKept s t) : t.cp15 = s.cp15 := by
  have e := congrArg State.cp15 h; exact e
theorem RestKept.bytes (h : RestKept s t) : BytesKept s t := bytesKept_of_eq h.mem h.writeBuffer

/-- A frame is the registers and the rest; the bytes follow. -/
theorem Frame.of (hg : RegsKept rs s t) (hr : RestKept s t) : Frame rs s t := ⟨hg, hr.bytes, hr⟩

theorem Frame.trans (h : Frame rs s t) (hm : t.mode = s.mode) (h' : Frame rs t u) : Frame rs s u :=
  .of (h.1.trans hm h'.1) (h.2.2.trans h'.2.2)

theorem Frame.mono {rs' : List RegNum} (h : Frame rs s t) (hs : ∀ r ∈ rs, r ∈ rs') : Frame rs' s t :=
  .of (h.1.mono hs) h.2.2

theorem Frame.refl (rs : List RegNum) (s : State) : Frame rs s s := .of (.refl _ _) (.refl _)

/-! ### The frames of the updates -/

theorem regsKept_setReg (s : State) (r : RegNum) (v : Word) : RegsKept [r] s (s.setReg r v) :=
  fun i hi => gpr_setReg_of_ne s r v i (hi r (by simp))

theorem restKept_setReg (s : State) (r : RegNum) (v : Word) : RestKept s (s.setReg r v) := by
  unfold RestKept State.setReg State.setBankReg
  split <;> rfl

theorem frame_setReg (s : State) (r : RegNum) (v : Word) : Frame [r] s (s.setReg r v) :=
  .of (regsKept_setReg s r v) (restKept_setReg s r v)

/-- An update that touches nothing but the CPSR, the PC and the model's own notes. -/
theorem Frame.of_eq (hg : t.gpr = s.gpr) (hr : RestKept s t) : Frame rs s t :=
  .of (fun i _ => by rw [hg]) hr

theorem frame_setNzcv (s : State) (n z c v : Bool) : Frame rs s (s.setNzcv n z c v) := .of_eq rfl rfl
theorem frame_orQ (s : State) (q : Bool) : Frame rs s (s.orQ q) := .of_eq rfl rfl
theorem frame_setThumb (s : State) (b : Bool) : Frame rs s (s.setThumb b) := .of_eq rfl rfl
theorem frame_advance (s : State) : Frame rs s s.advance := .of_eq rfl rfl
theorem frame_jump (s : State) (a : Word) (i : Bool) : Frame rs s (s.jump a i) := .of_eq rfl rfl
theorem frame_keepR13Dbg (s : State) : Frame rs s s.keepR13Dbg := .of_eq rfl rfl
theorem frame_noteBranch (s : State) : Frame rs s s.noteBranch := .of_eq rfl rfl
theorem frame_skip (s : State) : Frame rs s s.skip := .of_eq rfl rfl

/-- A register write, then the next instruction. -/
theorem frame_setReg_advance (s : State) (r : RegNum) (v : Word) : Frame [r] s (s.setReg r v).advance :=
  (frame_setReg s r v).trans (by simp) (frame_advance _)

/-- A register write with flags, then the next instruction. -/
theorem frame_setReg_setNzcv_advance (s : State) (r : RegNum) (v : Word) (n z c w : Bool) :
    Frame [r] s ((s.setReg r v).setNzcv n z c w).advance :=
  ((frame_setReg s r v).trans (by simp) (frame_setNzcv _ n z c w)).trans (by simp) (frame_advance _)

/-- Two register writes. -/
theorem frame_setReg_setReg (s : State) (r r' : RegNum) (v v' : Word) :
    Frame [r, r'] s ((s.setReg r v).setReg r' v') :=
  ((frame_setReg s r v).mono (by simp)).trans (by simp) ((frame_setReg _ r' v').mono (by simp))

/-! ### Flags -/

/-- The flags after a write of all four. -/
theorem flagsAre_setNzcv (n z c v : Bool) (h : t = s.setNzcv n z c v) : FlagsAre n z c v s t := by
  subst h
  exact ⟨by simp, by simp, by simp, by simp, low28_setNzcv s n z c v⟩

/-- The flags depend on the CPSR alone. -/
theorem FlagsAre.congr {n z c v : Bool} {s' t' : State} (h : FlagsAre n z c v s t) (hs : s'.cpsr = s.cpsr)
    (ht : t'.cpsr = t.cpsr) : FlagsAre n z c v s' t' := by
  simpa only [FlagsAre, State.flagN, State.flagZ, State.flagC, State.flagV, hs, ht] using h

end Sys2Proof.Machine
end

