-- ==== Sys2Proof/Laws/DataProcessing.lean ====
section
/-!
SUPPORT. What a data-processing instruction that passes its condition and does not write R15 answers: its destination,
its flags and its frame, and the arithmetic of AddWithCarry on an inverted operand.
-/

namespace Sys2Proof.Machine

variable {s : State}

/-- An instruction whose condition passes runs its body. -/
theorem when_pass {c : BitVec 4} (h : s.passes c = true) (b : Result) : s.when c b = b := by simp [State.when, h]

theorem frame_dpBegin {rs : List RegNum} (s : State) (o : Op2) : Frame rs s (s.dpBegin o) := by
  unfold State.dpBegin
  split
  · exact .refl _ _
  · exact frame_keepR13Dbg s

@[simp] theorem mode_dpBegin (s : State) (o : Op2) : (s.dpBegin o).mode = s.mode := by
  unfold State.dpBegin; split <;> rfl

@[simp] theorem cpsr_dpBegin (s : State) (o : Op2) : (s.dpBegin o).cpsr = s.cpsr := by
  unfold State.dpBegin; split <;> rfl

@[simp] theorem pc_dpBegin (s : State) (o : Op2) : (s.dpBegin o).pc = s.pc := by
  unfold State.dpBegin; split <;> rfl

@[simp] theorem instrBytes_dpBegin (s : State) (o : Op2) : (s.dpBegin o).instrBytes = s.instrBytes := by
  unfold State.dpBegin; split <;> rfl

/-- What `dpWrite` answers for a destination other than R15, whichever flags the instruction sets. -/
theorem dpWrite_spec (sf : Bool) (s : State) (rd : RegNum) (op2 : Op2) (r : Word) (n z c v : Bool) (h15 : rd ≠ 15#4)
    (f : State → State) (hf : ∀ t, t.cpsr = s.cpsr → f t = t.setNzcv n z c v) :
    ∃ t, dpWrite sf rd r f (s.dpBegin op2) = .next t ∧ t.reg rd = r ∧ Advances s t ∧ Frame [rd] s t ∧
      if sf then FlagsAre n z c v s t else FlagsKept s t := by
  rw [dpWrite, if_neg h15]
  have e : f ((s.dpBegin op2).setReg rd r) = ((s.dpBegin op2).setReg rd r).setNzcv n z c v := hf _ (by simp)
  cases sf
  · refine ⟨_, rfl, ?_, ?_, ?_, ?_⟩
    · simp [h15, reg_setReg_self]
    · simp [Advances, State.advance]
    · exact (frame_dpBegin s op2).trans (by simp) (frame_setReg_advance _ _ _)
    · simp [FlagsKept]
  · refine ⟨_, rfl, ?_, ?_, ?_, ?_⟩
    · simp [e, h15, reg_setReg_self]
    · simp [e, Advances, State.advance]
    · simp only [e, if_true]
      exact (frame_dpBegin s op2).trans (by simp) (frame_setReg_setNzcv_advance _ _ _ _ _ _ _)
    · simp only [e, if_true]
      exact (flagsAre_setNzcv (s := (s.dpBegin op2).setReg rd r) n z c v rfl).congr (by simp) (by simp)

theorem toInt_bound (x : Word) : -2 ^ 31 ≤ x.toInt ∧ x.toInt < 2 ^ 31 := by
  have := BitVec.le_toInt x
  have := BitVec.toInt_lt (x := x)
  simp at *
  omega

/-- The same for a sum: result, carry and the exact sum are given by their own equations, so that one lemma serves
ADD, ADC, SUB, SBC, RSB, RSC and the compares. -/
theorem dpWrite_sum (x y : Word) (c : Bool) (r : Word) (carry : Bool) (total : Int)
    (hr : BitVec.ofNat 32 (x.toNat + y.toNat + bit c) = r) (hc : decide (2 ^ 32 ≤ x.toNat + y.toNat + bit c) = carry)
    (he : x.toInt + y.toInt + bit c = total) (sf : Bool) (s : State) (rd : RegNum) (op2 : Op2) (h15 : rd ≠ 15#4) :
    ∃ t, dpWrite sf rd (addWithCarry x y c).value (fun t => t.setSum (addWithCarry x y c)) (s.dpBegin op2) = .next t ∧
      t.reg rd = r ∧ Advances s t ∧ Frame [rd] s t ∧
      if sf then FlagsAre r.msb (decide (r = 0#32)) carry (decide (r.toInt ≠ total)) s t else FlagsKept s t := by
  subst hr hc he
  exact dpWrite_spec sf s rd op2 _ _ _ _ _ h15 _ fun t _ => by simp only [State.setSum, addWithCarry]; congr

theorem not_toNat (y : Word) : (~~~y).toNat = 2 ^ 32 - 1 - y.toNat := by simp [BitVec.toNat_not]

theorem not_toInt (y : Word) : (~~~y).toInt = -1 - y.toInt := by
  have := y.isLt
  rw [BitVec.toInt_eq_toNat_cond, BitVec.toInt_eq_toNat_cond, not_toNat]
  split <;> split <;> omega

/-- Adding the inverted operand subtracts it, and one more where the carry is clear. -/
theorem sum_not_eq_sub (x y : Word) (c : Bool) :
    BitVec.ofNat 32 (x.toNat + (~~~y).toNat + bit c) = x - y - BitVec.ofNat 32 (1 - bit c) := by
  apply BitVec.eq_of_toNat_eq
  have := x.isLt
  have := y.isLt
  cases c <;> simp [bit, BitVec.toNat_sub] <;> omega

/-- The carry of a subtraction is 'no borrow'. -/
theorem carry_not_eq_noBorrow (x y : Word) (c : Bool) :
    decide (2 ^ 32 ≤ x.toNat + (~~~y).toNat + bit c) = decide (y.toNat + (1 - bit c) ≤ x.toNat) := by
  have := x.isLt
  have := y.isLt
  rw [decide_eq_decide]
  cases c <;> simp [bit] <;> omega

theorem exact_not_eq_sub (x y : Word) (c : Bool) :
    x.toInt + (~~~y).toInt + bit c = x.toInt - y.toInt - ((1 - bit c : Nat) : Int) := by
  rw [not_toInt]
  cases c <;> simp [bit] <;> omega

end Sys2Proof.Machine
end

