-- ==== Sys2Proof/Laws/Exceptions.lean ====
section
/-!
SUPPORT. What the parts of taking an exception do (the handler's CPSR, entering a mode, the fault report, the trace
message), how the body of a meaning ends, and the ends that write the PC.
-/

namespace Sys2Proof.Machine

variable {s t : State}

/-! ### The handler's CPSR -/

theorem modeOf_code (m : Mode) : modeOf m.code = some m := by cases m <;> decide

theorem getLsbD_entryCpsr (c : Word) (m : Mode) (f : Bool) (i : Nat) :
    (entryCpsr c m f).getLsbD i =
      if i < 5 then m.code.getLsbD i
      else if i = 5 then false
      else if i = 6 then f || c.getLsbD 6
      else if i = 7 then true
      else c.getLsbD i := by
  unfold entryCpsr
  simp only [BitVec.getLsbD_append, BitVec.getLsbD_extractLsb', BitVec.getLsbD_ofBool]
  by_cases h5 : i < 5
  · simp [h5, show i < 8 by omega]
  · rcases eq_or_ne i 5 with rfl | h5'
    · simp
    rcases eq_or_ne i 6 with rfl | h6
    · simp
    rcases eq_or_ne i 7 with rfl | h7
    · simp
    have h8 : 8 ≤ i := by omega
    simp only [h5, h5', h6, h7, if_false, show ¬ i < 8 by omega, show 8 + (i - 8) = i by omega]
    by_cases h32 : i - 8 < 24
    · simp [h32]
    · simp [h32, BitVec.getLsbD_of_ge c i (by omega)]

theorem entryCpsr_mode (c : Word) (m : Mode) (f : Bool) : (entryCpsr c m f).extractLsb' 0 5 = m.code := by
  apply BitVec.eq_of_getLsbD_eq
  intro i hi
  simp [getLsbD_entryCpsr, hi]

theorem modeBits_entryCpsr (c : Word) (m : Mode) (f : Bool) : modeBits (entryCpsr c m f) = m := by
  simp [modeBits, entryCpsr_mode, modeOf_code]

theorem entryCpsr_high (c : Word) (m : Mode) (f : Bool) :
    (entryCpsr c m f).extractLsb' 8 24 = c.extractLsb' 8 24 := by
  apply BitVec.eq_of_getLsbD_eq
  intro i hi
  simp [getLsbD_entryCpsr, hi, show ¬ 8 + i < 5 by omega, show 8 + i ≠ 5 by omega,
    show 8 + i ≠ 6 by omega, show 8 + i ≠ 7 by omega]

/-! ### Entering a mode (60_exceptions.md R880) -/

@[simp] theorem enter_cpsr (m : Mode) (link : Word) (f : Bool) (a : Word) :
    (s.enter m link f a).cpsr = entryCpsr s.cpsr m f := rfl

@[simp] theorem enter_pc (m : Mode) (link : Word) (f : Bool) (a : Word) : (s.enter m link f a).pc = a := rfl

@[simp] theorem enter_mode (m : Mode) (link : Word) (f : Bool) (a : Word) : (s.enter m link f a).mode = m := by
  simp [State.mode, modeBits_entryCpsr]

@[simp] theorem enter_thumb (m : Mode) (link : Word) (f : Bool) (a : Word) : (s.enter m link f a).thumb = false :=
  (getLsbD_entryCpsr s.cpsr m f 5).trans (by simp)

@[simp] theorem enter_maskI (m : Mode) (link : Word) (f : Bool) (a : Word) : (s.enter m link f a).maskI = true :=
  (getLsbD_entryCpsr s.cpsr m f 7).trans (by simp)

@[simp] theorem enter_maskF (m : Mode) (link : Word) (f : Bool) (a : Word) :
    (s.enter m link f a).maskF = (f || s.maskF) :=
  (getLsbD_entryCpsr s.cpsr m f 6).trans (by simp [State.maskF])

theorem enter_gpr (m : Mode) (link : Word) (f : Bool) (a : Word) :
    (s.enter m link f a).gpr = s.gpr.set (regIndex m 14#4).val link := by
  simp [State.enter, State.setBankReg]

theorem enter_link (m : Mode) (link : Word) (f : Bool) (a : Word) : (s.enter m link f a).bankReg m 14#4 = link := by
  simp [State.bankReg, enter_gpr]

theorem enter_spsr (m : Mode) (link : Word) (f : Bool) (a : Word) (i : Fin 6) :
    (s.enter m link f a).spsr[i.val] = if m.spsrIndex = some i then s.cpsr else s.spsr[i.val] := by
  cases hm : m.spsrIndex with
  | none => simp [State.enter, State.setSpsr, hm, State.setBankReg]
  | some j =>
    simp only [State.enter, State.setSpsr, hm, State.setBankReg, Option.some.injEq]
    rw [Vector.getElem_set]
    simp only [Fin.val_inj]

/-- Entering a mode changes nothing but general registers, SPSRs, the CPSR, the PC and the model's notes. -/
theorem enter_rest (m : Mode) (link : Word) (f : Bool) (a : Word) :
    RestKept s { s.enter m link f a with spsr := s.spsr } := by
  unfold RestKept State.enter State.setSpsr
  cases m <;> rfl

/-! ### The fault report and the trace message -/

/-- The report changes only the FSR, the FAR and the count of free values (60_exceptions.md R871). -/
theorem reportFault_rest (s : State) (code : BitVec 5) (domain : Option (BitVec 4)) (far : Option Word) :
    ∃ fsr' far' n, s.reportFault code domain far =
      { s with cp15 := { s.cp15 with fsr := fsr', far := far' }, freeCtr := n } := by
  unfold State.reportFault
  cases domain <;> cases far <;> exact ⟨_, _, _, rfl⟩

theorem report_rest (e : Exception) (s : State) :
    ∃ fsr' far' n, e.report s = { s with cp15 := { s.cp15 with fsr := fsr', far := far' }, freeCtr := n } := by
  cases e <;> first | exact reportFault_rest _ _ _ _ | exact ⟨_, _, _, rfl⟩

/-- With debugging disabled nothing is traced. -/
theorem tracing_of_debugOff (h : s.debugOn = false) : s.tracing = false := by simp [State.tracing, h]

theorem traceVector_of_off (h : s.tracing = false) (v : BitVec 3) : s.traceVector v = s := by
  simp [State.traceVector, h]

theorem traceInstr_of_off (h : s.tracing = false) : s.traceInstr = s := by simp [State.traceInstr, h]

theorem exceptionTrace_of_off (h : s.tracing = false) (e : Exception) : e.trace s = s := by
  cases e <;> simp [Exception.trace, traceVector_of_off h, traceInstr_of_off h]

theorem trapped_of_debugOff (h : s.debugOn = false) (e : Exception) : e.trapped s = false := by
  simp [Exception.trapped, h]

/-! ### How the body of a meaning ends -/

theorem runThen_ok {α : Type} {x : Exec α} {k : α → State → Result} {v : α} (h : x s = .ok v t) :
    runThen x k s = k v t := by simp [runThen, h]

theorem runThen_error {α : Type} {x : Exec α} {k : α → State → Result} {e : Trap} (h : x s = .error e t) :
    runThen x k s = endTrap e t := by simp [runThen, h]

/-- A body that answers a next state completed, or was cut short by an exception that was then taken. -/
theorem runThen_next {α : Type} {x : Exec α} {k : α → State → Result} {u : State} (h : runThen x k s = .next u) :
    (∃ v t, x s = .ok v t ∧ k v t = .next u) ∨ ∃ e t, x s = .error e t ∧ endTrap e t = .next u := by
  unfold runThen at h
  split at h
  · exact .inl ⟨_, _, ‹_›, h⟩
  · exact .inr ⟨_, _, ‹_›, h⟩

/-- What is left of a body that was cut short. -/
theorem endTrap_next {e : Trap} {u : State} (h : endTrap e t = .next u) : ∃ x : Exception, u = takeException x t := by
  cases e with
  | dataAbort code domain far => exact ⟨_, by simpa [endTrap] using h.symm⟩
  | prefetchAbort code => exact ⟨_, by simpa [endTrap] using h.symm⟩
  | undefined =>
    simp only [endTrap, undefinedInstr] at h
    split at h
    · cases h
    · exact ⟨_, by simpa using h.symm⟩
  | refuse r => cases h
  | fault f => cases h

theorem undefinedInstr_of_noDebug (h : s.noDebug = true) : undefinedInstr s = .next (takeException .undefined s) := by
  have : s.dbgUnit.sds = false := by simpa [State.noDebug] using (by simpa [State.noDebug] using h : _ ∧ _).2
  simp [undefinedInstr, this]

/-! ### Ends that write the PC -/

theorem getLsbD_setBit (w : Word) (n : Nat) (b : Bool) (i : Nat) (hn : n < 32) :
    (setBit w n b).getLsbD i = if i = n then b else w.getLsbD i := by
  have one : (1#32 <<< n).getLsbD i = decide (i = n) := by
    simp only [BitVec.getLsbD_shiftLeft, BitVec.getLsbD_one]
    rcases Nat.lt_trichotomy i n with h | h | h
    · simp [h, Nat.ne_of_lt h]
    · subst h; simp [hn]
    · simp [Nat.not_lt.2 (Nat.le_of_lt h), Nat.ne_of_gt h, show i - n ≠ 0 by omega]
  by_cases hi : i < 32
  · have e : ∀ c : Bool, decide (i = n) = c → (setBit w n b).getLsbD i = if c then b else w.getLsbD i := fun c hc => by
      unfold setBit
      generalize 1#32 <<< n = m at one
      rw [hc] at one
      rw [BitVec.getLsbD_eq_getElem hi] at one
      cases b <;> cases c <;> simp [one, hi]
    simpa using e _ rfl
  · have := BitVec.getLsbD_of_ge (setBit w n b) i (by omega)
    rw [this, BitVec.getLsbD_of_ge w i (by omega), if_neg (by omega)]

@[simp] theorem thumb_setThumb (b : Bool) : (s.setThumb b).thumb = b :=
  (getLsbD_setBit s.cpsr 5 b 5 (by omega)).trans (by simp)

/-- BX, BLX and loads of the PC: what an answer of `interwork` holds (43_branch_status_system.md R520). -/
theorem interwork_next {v : Word} (h : s.interwork v = .next t) :
    v.extractLsb' 0 2 ≠ 2#2 ∧ t = (s.setThumb (v.getLsbD 0)).jump (v &&& 0xFFFFFFFE#32) true := by
  unfold State.interwork at h
  split at h
  · cases h
  · exact ⟨‹_›, by simpa using h.symm⟩

/-- The return from an exception: what an answer of `restoreCpsr` holds (60_exceptions.md R885). -/
theorem restoreCpsr_ok (h : s.restoreCpsr = .ok t) :
    ∃ w, s.spsrOf = some w ∧ (modeOf (w.extractLsb' 0 5)).isSome = true ∧
      t = { s with cpsr := w, dbgUnit := { s.dbgUnit with sds := false } } := by
  unfold State.restoreCpsr at h
  split at h
  · cases h
  · split at h
    · cases h
    · rename_i w hw hm
      exact ⟨w, hw, by simpa [Option.isSome_iff_ne_none] using hm, by simpa using h.symm⟩

/-- Every answer of `exceptionReturn` (43_branch_status_system.md R520; 60_exceptions.md R885). -/
theorem exceptionReturn_next {target : Word} (h : s.exceptionReturn target = .next t) :
    ∃ s1, s.restoreCpsr = .ok s1 ∧
      ((s1.thumb = true ∧ t = s1.jump (target &&& 0xFFFFFFFE#32) true) ∨
        (s1.thumb = false ∧ target.extractLsb' 0 2 = 0#2 ∧ t = s1.jump target true)) := by
  unfold State.exceptionReturn at h
  split at h
  · cases h
  · rename_i s1 hs
    refine ⟨s1, hs, ?_⟩
    split at h
    · rename_i ht
      exact .inl ⟨ht, by simpa using h.symm⟩
    · rename_i ht
      split at h
      · cases h
      · rename_i hc
        exact .inr ⟨by simpa using ht, by simpa using hc, by simpa using h.symm⟩

end Sys2Proof.Machine
end

