-- ==== Sys2Proof/Laws/Memory.lean ====
section
/-!
SUPPORT. Tables, memory and the write buffer: a read after a write, that every operation keeps the canonical form of
memory, and what the operations leave unchanged.
-/

namespace Sys2Proof.Machine

/-! ### Sorted tables -/

/-- The keys of a table rise strictly and are at least lo. -/
def Sorted {α : Type} : Nat → List (Nat × α) → Prop
  | _, [] => True
  | lo, (k, _) :: t => lo ≤ k ∧ Sorted (k + 1) t

variable {α : Type}

theorem Sorted.mono {lo lo' : Nat} {t : List (Nat × α)} (h : Sorted lo t) (hl : lo' ≤ lo) : Sorted lo' t := by
  cases t with
  | nil => trivial
  | cons p t => exact ⟨hl.trans h.1, h.2⟩

/-- A key below the table's bound is not in it. -/
theorem Sorted.get_below {lo : Nat} {t : List (Nat × α)} (h : Sorted lo t) {k : Nat} (hk : k < lo) : tblGet t k = none := by
  induction t generalizing lo with
  | nil => rfl
  | cons p t ih =>
    have hp := h.1
    rw [tblGet, if_neg (by omega)]
    exact ih h.2 (by omega)

@[simp] theorem tblGet_tblSet_self (t : List (Nat × α)) (k : Nat) (v : α) : tblGet (tblSet t k v) k = some v := by
  induction t with
  | nil => simp [tblSet, tblGet]
  | cons p t ih =>
    obtain ⟨k', v'⟩ := p
    simp only [tblSet]
    split
    · simp [tblGet]
    · split
      · simp [tblGet]
      · next h => simp [tblGet, h, ih]

theorem tblGet_tblSet_of_ne (t : List (Nat × α)) {k k' : Nat} (v : α) (h : k' ≠ k) :
    tblGet (tblSet t k v) k' = tblGet t k' := by
  induction t with
  | nil => simp [tblSet, tblGet, h.symm]
  | cons p t ih =>
    obtain ⟨q, w⟩ := p
    simp only [tblSet]
    split
    · simp [tblGet, h.symm]
    · split
      · next e => subst e; simp [tblGet, h.symm]
      · simp [tblGet, ih]

theorem tblGet_tblErase_of_ne (t : List (Nat × α)) {k k' : Nat} (h : k' ≠ k) :
    tblGet (tblErase t k) k' = tblGet t k' := by
  induction t with
  | nil => rfl
  | cons p t ih =>
    obtain ⟨q, w⟩ := p
    simp only [tblErase]
    split
    · next e => subst e; simp [tblGet, h.symm]
    · simp [tblGet, ih]

theorem tblGet_tblErase_self {lo : Nat} {t : List (Nat × α)} (hs : Sorted lo t) (k : Nat) :
    tblGet (tblErase t k) k = none := by
  induction t generalizing lo with
  | nil => rfl
  | cons p t ih =>
    obtain ⟨q, w⟩ := p
    simp only [tblErase]
    split
    · next e => subst e; exact hs.2.get_below (by omega)
    · next e => simp [tblGet, e, ih hs.2]

theorem Sorted.tblSet {lo : Nat} {t : List (Nat × α)} (h : Sorted lo t) {k : Nat} (v : α) (hk : lo ≤ k) :
    Sorted lo (tblSet t k v) := by
  induction t generalizing lo with
  | nil => exact ⟨hk, trivial⟩
  | cons p t ih =>
    obtain ⟨q, w⟩ := p
    simp only [Machine.tblSet]
    split
    · next e => exact ⟨hk, by simpa using e, h.2⟩
    · split
      · next e => subst e; exact ⟨hk, h.2⟩
      · exact ⟨h.1, ih h.2 (by omega)⟩

theorem Sorted.tblErase {lo : Nat} {t : List (Nat × α)} (h : Sorted lo t) (k : Nat) : Sorted lo (tblErase t k) := by
  induction t generalizing lo with
  | nil => trivial
  | cons p t ih =>
    obtain ⟨q, w⟩ := p
    simp only [Machine.tblErase]
    split
    · have hq := h.1
      exact h.2.mono (by omega)
    · exact ⟨h.1, ih h.2⟩

/-! ### Memory -/

variable {m : List Host.Cell}

theorem memWfFrom_sorted {lo : Nat} (h : memWfFrom lo m = true) : Sorted lo m := by
  induction m generalizing lo with
  | nil => trivial
  | cons p t ih =>
    simp only [memWfFrom, Bool.and_eq_true, decide_eq_true_eq] at h
    exact ⟨h.1.1.1, ih h.2⟩

theorem Memory.wf_sorted (h : Memory.wf m = true) : Sorted 0 m := memWfFrom_sorted h

theorem memWfFrom_mono {lo lo' : Nat} (h : memWfFrom lo m = true) (hl : lo' ≤ lo) : memWfFrom lo' m = true := by
  cases m with
  | nil => rfl
  | cons p t =>
    simp only [memWfFrom, Bool.and_eq_true, decide_eq_true_eq] at h ⊢
    exact ⟨⟨⟨by omega, h.1.1.2⟩, h.1.2⟩, h.2⟩

theorem memWfFrom_erase {lo : Nat} (h : memWfFrom lo m = true) (a : Nat) : memWfFrom lo (tblErase m a) = true := by
  induction m generalizing lo with
  | nil => rfl
  | cons p t ih =>
    simp only [memWfFrom, Bool.and_eq_true, decide_eq_true_eq] at h
    simp only [tblErase]
    split
    · exact memWfFrom_mono h.2 (by omega)
    · simp only [memWfFrom, Bool.and_eq_true, decide_eq_true_eq]
      exact ⟨h.1, ih h.2⟩

theorem memWfFrom_set {lo a : Nat} {b : Byte} (h : memWfFrom lo m = true) (hl : lo ≤ a) (ha : a < 2 ^ 32)
    (hb : b ≠ Config.unwrittenByte) : memWfFrom lo (tblSet m a b) = true := by
  have hb' : (b != Config.unwrittenByte) = true := by simpa using hb
  induction m generalizing lo with
  | nil => simpa [tblSet, memWfFrom, hl, hb'] using ha
  | cons p t ih =>
    obtain ⟨q, w⟩ := p
    simp only [memWfFrom, Bool.and_eq_true, decide_eq_true_eq] at h
    simp only [tblSet]
    split
    · next e =>
      simp only [memWfFrom, Bool.and_eq_true, decide_eq_true_eq]
      exact ⟨⟨⟨hl, ha⟩, hb'⟩, ⟨⟨by omega, h.1.1.2⟩, h.1.2⟩, h.2⟩
    · split
      · next e =>
        subst e
        simp only [memWfFrom, Bool.and_eq_true, decide_eq_true_eq]
        exact ⟨⟨⟨hl, ha⟩, hb'⟩, h.2⟩
      · simp only [memWfFrom, Bool.and_eq_true, decide_eq_true_eq]
        exact ⟨h.1, ih h.2 (by omega)⟩

/-- A write of a byte keeps the canonical form. -/
theorem memSet_wf (h : Memory.wf m = true) {a : Nat} (ha : a < 2 ^ 32) (b : Byte) : Memory.wf (memSet m a b) = true := by
  unfold memSet Memory.wf at *
  split
  · exact memWfFrom_erase h a
  · next e => exact memWfFrom_set h (Nat.zero_le _) ha e

/-- Reading the byte just written. -/
theorem memGet_memSet_self (h : Memory.wf m = true) (a : Nat) (b : Byte) : memGet (memSet m a b) a = b := by
  unfold memSet memGet
  split
  · next e => simp [tblGet_tblErase_self (Memory.wf_sorted h), e]
  · simp

/-- Reading any other byte. -/
theorem memGet_memSet_of_ne (m : List Host.Cell) {a a' : Nat} (b : Byte) (h : a' ≠ a) :
    memGet (memSet m a b) a' = memGet m a' := by
  unfold memSet memGet
  split
  · rw [tblGet_tblErase_of_ne _ h]
  · rw [tblGet_tblSet_of_ne _ _ h]

theorem laneAddr_lt (a : Word) (i : Nat) : laneAddr a i < 2 ^ 32 := Nat.mod_lt _ (by norm_num)

/-- A write of bytes keeps the canonical form. -/
theorem memSetList_wf (h : Memory.wf m = true) (a : Word) (i : Nat) (bs : List Byte) :
    Memory.wf (memSetList m a i bs) = true := by
  induction bs generalizing m i with
  | nil => exact h
  | cons b bs ih => exact ih (memSet_wf h (laneAddr_lt a i) b) (i + 1)

/-- A write of bytes leaves every other address. -/
theorem memGet_memSetList_of_not_mem (m : List Host.Cell) (a : Word) (i : Nat) (bs : List Byte) {x : Nat}
    (h : ∀ j, j < bs.length → x ≠ laneAddr a (i + j)) : memGet (memSetList m a i bs) x = memGet m x := by
  induction bs generalizing m i with
  | nil => rfl
  | cons b bs ih =>
    rw [memSetList, ih, memGet_memSet_of_ne]
    · simpa using h 0 (by simp)
    · intro j hj
      have := h (j + 1) (by simpa using hj)
      rwa [show i + 1 + j = i + (j + 1) by omega]

/-- Lane addresses of fewer than 2^32 bytes differ. -/
theorem laneAddr_inj (a : Word) {i j : Nat} (hi : i < 2 ^ 32) (hj : j < 2 ^ 32) (h : laneAddr a i = laneAddr a j) :
    i = j := by
  have := a.isLt
  unfold laneAddr at h
  omega

/-- Reading a byte of a list just written. -/
theorem memGet_memSetList (h : Memory.wf m = true) (a : Word) (i : Nat) (bs : List Byte) {j : Nat} (hj : j < bs.length)
    (hn : i + bs.length ≤ 2 ^ 32) : memGet (memSetList m a i bs) (laneAddr a (i + j)) = bs.getD j 0#8 := by
  induction bs generalizing m i j with
  | nil => simp at hj
  | cons b bs ih =>
    rw [memSetList]
    simp only [List.length_cons] at hj hn
    cases j with
    | zero =>
      rw [memGet_memSetList_of_not_mem]
      · simpa using memGet_memSet_self h (laneAddr a i) b
      · intro k hk e
        have := laneAddr_inj a (by omega) (by omega) e
        omega
    | succ j =>
      have := ih (memSet_wf h (laneAddr_lt a i) b) (i + 1) (j := j) (by omega) (by omega)
      rw [show i + (j + 1) = i + 1 + j by omega, this]
      simp

/-! ### Canonical memories are equal when they read the same -/

theorem eq_of_memGet_from {lo : Nat} {m' : List Host.Cell} (h : memWfFrom lo m = true) (h' : memWfFrom lo m' = true)
    (e : ∀ a, memGet m a = memGet m' a) : m = m' := by
  induction m generalizing lo m' with
  | nil =>
    cases m' with
    | nil => rfl
    | cons p t =>
      have := e p.1
      simp only [memWfFrom, Bool.and_eq_true, bne_iff_ne] at h'
      simp only [memGet, tblGet, Option.getD_none, ite_true, Option.getD_some] at this
      exact absurd this.symm h'.1.2
  | cons p t ih =>
    obtain ⟨k, b⟩ := p
    have hs := memWfFrom_sorted h
    simp only [memWfFrom, Bool.and_eq_true, decide_eq_true_eq, bne_iff_ne] at h
    cases m' with
    | nil =>
      have := e k
      simp only [memGet, tblGet, Option.getD_none, ite_true, Option.getD_some] at this
      exact absurd this h.1.2
    | cons p' t' =>
      obtain ⟨k', b'⟩ := p'
      have hs' := memWfFrom_sorted h'
      simp only [memWfFrom, Bool.and_eq_true, decide_eq_true_eq, bne_iff_ne] at h'
      have hk : k = k' := by
        by_contra hne
        rcases Nat.lt_or_gt_of_ne hne with hlt | hlt
        · have := e k
          simp only [memGet, tblGet, ite_true, Option.getD_some, if_neg (Ne.symm hne),
            hs'.2.get_below (show k < k' + 1 by omega), Option.getD_none] at this
          exact h.1.2 this
        · have := e k'
          simp only [memGet, tblGet, ite_true, Option.getD_some, if_neg hne,
            hs.2.get_below (show k' < k + 1 by omega), Option.getD_none] at this
          exact h'.1.2 this.symm
      subst hk
      have hb : b = b' := by simpa [memGet, tblGet] using e k
      subst hb
      congr 1
      refine ih h.2 h'.2 fun a => ?_
      by_cases ha : a < k + 1
      · simp [memGet, hs.2.get_below ha, hs'.2.get_below ha]
      · have := e a
        simpa [memGet, tblGet, show k ≠ a by omega] using this

/-- Two canonical memories that read the same at every address are equal. -/
theorem eq_of_memGet {m' : List Host.Cell} (h : Memory.wf m = true) (h' : Memory.wf m' = true)
    (e : ∀ a, memGet m a = memGet m' a) : m = m' := eq_of_memGet_from h h' e

/-! ### The write buffer -/

theorem retireEntry_wf (h : Memory.wf m = true) (e : WbEntry) : Memory.wf (retireEntry m e) = true := by
  unfold retireEntry
  have hb := e.block.isLt
  split
  · exact h
  · refine List.foldlRecOn (motive := fun m => Memory.wf m = true) _ _ h fun m hm i hi => ?_
    simp only [List.mem_range] at hi
    split
    · exact memSet_wf hm (by omega) _
    · exact hm

theorem foldl_retireEntry_wf (h : Memory.wf m = true) (es : List WbEntry) :
    Memory.wf (es.foldl retireEntry m) = true :=
  List.foldlRecOn (motive := fun m => Memory.wf m = true) _ _ h fun _ hm e _ => retireEntry_wf hm e

variable {s : State}

theorem retire_wf (h : Memory.wf s.mem = true) (n : Nat) : Memory.wf (s.retire n).mem = true :=
  foldl_retireEntry_wf h _

theorem drain_wf (h : Memory.wf s.mem = true) : Memory.wf s.drain.mem = true := retire_wf h _

@[simp] theorem drain_writeBuffer (s : State) : s.drain.writeBuffer = [] := by simp [State.drain, State.retire]

@[simp] theorem retire_writeBuffer (s : State) (n : Nat) : (s.retire n).writeBuffer = s.writeBuffer.drop n := rfl

theorem drain_of_empty (h : s.writeBuffer = []) : s.drain = s := by
  cases s
  simp_all [State.drain, State.retire]

/-- An access that must not overtake others finds none where nothing is buffered. -/
theorem fence_of_empty (h : s.writeBuffer = []) (f : Bool) : s.fence f = s := by
  unfold State.fence
  split
  · exact drain_of_empty h
  · rfl

theorem writeThrough_wf (h : Memory.wf s.mem = true) (a : Word) (bs : List Byte) :
    Memory.wf (s.writeThrough a bs).mem = true := memSetList_wf (drain_wf h) a 0 bs

@[simp] theorem writeThrough_writeBuffer (s : State) (a : Word) (bs : List Byte) :
    (s.writeThrough a bs).writeBuffer = [] := drain_writeBuffer s

theorem pushWrite_wf (h : Memory.wf s.mem = true) (a : Word) (bs : List Byte) (c d : Bool) :
    Memory.wf (s.pushWrite a bs c d).mem = true := by
  unfold State.pushWrite
  split
  · exact h
  · dsimp only
    split
    · exact h
    · exact retire_wf h 1

theorem coalesceInto_length {d : Bool} {es es' : List WbEntry} {a : Word} {bs : List Byte}
    (h : coalesceInto d es a bs = some es') : es'.length = es.length := by
  induction es generalizing es' with
  | nil => simp [coalesceInto] at h
  | cons e es ih =>
    simp only [coalesceInto] at h
    split at h
    · next x hx => cases h; simp [ih hx]
    · split at h
      · split at h
        · cases h; rfl
        · cases h
      · cases h

/-- The write buffer never holds more than eight entries (21_mmu_caches_tlb.md R265). -/
theorem pushWrite_length (h : s.writeBuffer.length ≤ 8) (a : Word) (bs : List Byte) (c d : Bool) :
    (s.pushWrite a bs c d).writeBuffer.length ≤ 8 := by
  unfold State.pushWrite
  split
  · next x hx =>
    split at hx
    · simpa [coalesceInto_length hx] using h
    · cases hx
  · dsimp only
    split
    · simp only [List.length_append, List.length_cons, List.length_nil]; omega
    · simp only [List.length_append, List.length_cons, List.length_nil, retire_writeBuffer, List.length_drop]; omega

/-- Memory after reset has its canonical form. -/
theorem reset_memory_wf : Memory.wf State.reset.mem = true := rfl

end Sys2Proof.Machine
end

