-- ==== Sys2Proof/Laws/Exec.lean ====
section
/-!
SUPPORT. What the data accesses may change: a relation between the state before and after a computation, and for each
shared operation on memory one lemma that it stays within `DataOnly`; the lines of the data caches after an
invalidation.
-/

namespace Sys2Proof.Machine

/-! ### Relations kept by a computation -/

variable {α β : Type} {R : State → State → Prop} {s s0 t : State}

/-- Run in s, the computation leaves a state that R relates to s0. -/
def At (R : State → State → Prop) (s0 s : State) (x : Exec α) : Prop :=
  match x s with
  | .ok _ t => R s0 t
  | .error _ t => R s0 t

/-- The computation changes the state within R. -/
def Within (R : State → State → Prop) (x : Exec α) : Prop := ∀ s, At R s s x

theorem Within.ok {x : Exec α} {a : α} (h : Within R x) (e : x s = .ok a t) : R s t := by
  have := h s; rw [At, e] at this; exact this

theorem Within.error {x : Exec α} {e : Trap} (h : Within R x) (he : x s = .error e t) : R s t := by
  have := h s; rw [At, he] at this; exact this

theorem at_pure (a : α) (h : R s0 s) : At R s0 s (pure a) := h
theorem at_error (e : Trap) (h : R s0 t) : At R s0 s (fun _ => .error e t : Exec α) := h
theorem at_refuse (r : Refusal) (h : R s0 s) : At R s0 s (refuseWith r : Exec α) := h
theorem at_fault (f : Fault) (h : R s0 s) : At R s0 s (faultWith f : Exec α) := h
theorem at_set (h : R s0 t) : At R s0 s (set t : Exec PUnit) := h
theorem at_modify (f : State → State) (h : R s0 (f s)) : At R s0 s (modify f : Exec PUnit) := h
theorem at_ofExcept (r : Except Trap α) (h : R s0 s) : At R s0 s (ofExcept r) := by
  unfold At ofExcept
  cases r <;> exact h

theorem at_get_bind {f : State → Exec β} (h : At R s0 s (f s)) : At R s0 s (get >>= f) := h
theorem at_set_bind {f : PUnit → Exec β} (h : At R s0 t (f ⟨⟩)) : At R s0 s (set t >>= f) := h
theorem at_modify_bind {g : State → State} {f : PUnit → Exec β} (h : At R s0 (g s) (f ⟨⟩)) :
    At R s0 s (modify g >>= f) := h

theorem at_bind {x : Exec α} {f : α → Exec β} (hx : At R s0 s x)
    (hf : ∀ a t, R s0 t → At R s0 t (f a)) : At R s0 s (x >>= f) := by
  unfold At at *
  simp only [bind, EStateM.bind]
  split at hx
  · next a t e => simp only [e]; exact hf a t hx
  · next e => simp only [e]; exact hx

theorem Within.at {x : Exec α} (h : Within R x) (ht : ∀ {a b c}, R a b → R b c → R a c) (hs : R s0 s) : At R s0 s x := by
  have := h s
  unfold At at *
  split <;> (next e => rw [e] at this; exact ht hs this)

/-! ### What a data access may change -/

/-- Only data memory may differ: memory, the write buffer, the data caches, the entries and the round-robin pointer of
the data TLB, the latched abort, the accesses of devices and the answers left for them, the writes of other masters that
are still to come, the model's own notes; and, in Special Debug State, where a data abort is only recorded, FSR, FAR and
the Sticky Abort bit. Memory and the write buffer keep their invariant. -/
structure DataOnly (s t : State) : Prop where
  rest : { t with mem := s.mem, writeBuffer := s.writeBuffer, dcache := s.dcache, miniDc := s.miniDc, dtlb := s.dtlb,
                  pendingAbort := s.pendingAbort, freeCtr := s.freeCtr, scratch := s.scratch, modified := s.modified,
                  deviceLog := s.deviceLog, deviceReplies := s.deviceReplies, between := s.between, cp15 := s.cp15,
                  dbgUnit := s.dbgUnit } = s
  cp15 : t.cp15 = { s.cp15 with fsr := t.cp15.fsr, far := t.cp15.far }
  dbgUnit : t.dbgUnit = { s.dbgUnit with dcsr := t.dbgUnit.dcsr }
  dcsr : t.dbgUnit.dcsr = s.dbgUnit.dcsr ∨ t.dbgUnit.dcsr = s.dbgUnit.dcsr ||| 0x20#32
  quiet : s.dbgUnit.sds = false → t.cp15 = s.cp15 ∧ t.dbgUnit = s.dbgUnit
  lock : t.dtlb.lock = s.dtlb.lock
  inv : s.memoryInv → t.memoryInv

theorem DataOnly.gpr (h : DataOnly s t) : t.gpr = s.gpr := by have e := congrArg State.gpr h.rest; exact e
theorem DataOnly.spsr (h : DataOnly s t) : t.spsr = s.spsr := by have e := congrArg State.spsr h.rest; exact e
theorem DataOnly.pc (h : DataOnly s t) : t.pc = s.pc := by have e := congrArg State.pc h.rest; exact e
theorem DataOnly.cpsr (h : DataOnly s t) : t.cpsr = s.cpsr := by have e := congrArg State.cpsr h.rest; exact e
theorem DataOnly.acc0 (h : DataOnly s t) : t.acc0 = s.acc0 := by have e := congrArg State.acc0 h.rest; exact e
theorem DataOnly.pmu (h : DataOnly s t) : t.pmu = s.pmu := by have e := congrArg State.pmu h.rest; exact e
theorem DataOnly.trace (h : DataOnly s t) : t.trace = s.trace := by have e := congrArg State.trace h.rest; exact e
theorem DataOnly.itlb (h : DataOnly s t) : t.itlb = s.itlb := by have e := congrArg State.itlb h.rest; exact e
theorem DataOnly.icache (h : DataOnly s t) : t.icache = s.icache := by have e := congrArg State.icache h.rest; exact e
theorem DataOnly.miniIc (h : DataOnly s t) : t.miniIc = s.miniIc := by have e := congrArg State.miniIc h.rest; exact e
theorem DataOnly.btb (h : DataOnly s t) : t.btb = s.btb := by have e := congrArg State.btb h.rest; exact e
theorem DataOnly.power (h : DataOnly s t) : t.power = s.power := by have e := congrArg State.power h.rest; exact e
theorem DataOnly.physMap (h : DataOnly s t) : t.physMap = s.physMap := by
  have e := congrArg State.physMap h.rest; exact e
theorem DataOnly.sds (h : DataOnly s t) : t.dbgUnit.sds = s.dbgUnit.sds := by
  rw [h.dbgUnit]
theorem DataOnly.mode (h : DataOnly s t) : t.mode = s.mode := by simp [State.mode, h.cpsr]

theorem DataOnly.refl (s : State) : DataOnly s s :=
  ⟨rfl, rfl, rfl, .inl rfl, fun _ => ⟨rfl, rfl⟩, rfl, id⟩

theorem dataOnly_trans {u : State} (h : DataOnly s t) (h' : DataOnly t u) : DataOnly s u := by
  refine ⟨?_, ?_, ?_, ?_, ?_, h'.lock.trans h.lock, fun i => h'.inv (h.inv i)⟩
  · have a := h.rest
    have b := h'.rest
    rw [← b] at a
    exact a
  · rw [h'.cp15, h.cp15]
  · rw [h'.dbgUnit, h.dbgUnit]
  · rcases h.dcsr with e | e <;> rcases h'.dcsr with e' | e' <;> rw [e', e]
    · exact .inl rfl
    · exact .inr rfl
    · exact .inr rfl
    · right; rw [BitVec.or_assoc, BitVec.or_self]
  · intro hs
    obtain ⟨a, b⟩ := h.quiet hs
    obtain ⟨a', b'⟩ := h'.quiet (h.sds.trans hs)
    exact ⟨a'.trans a, b'.trans b⟩

/-- An update of the fields of data memory that keeps the invariant. -/
theorem dataOnly_of
    (hr : { t with mem := s.mem, writeBuffer := s.writeBuffer, dcache := s.dcache, miniDc := s.miniDc, dtlb := s.dtlb,
                   pendingAbort := s.pendingAbort, freeCtr := s.freeCtr, scratch := s.scratch, modified := s.modified,
                   deviceLog := s.deviceLog, deviceReplies := s.deviceReplies,
                   between := s.between } = s)
    (hl : t.dtlb.lock = s.dtlb.lock) (hi : s.memoryInv → t.memoryInv) : DataOnly s t := by
  have c : t.cp15 = s.cp15 := by have e := congrArg State.cp15 hr; exact e
  have d : t.dbgUnit = s.dbgUnit := by have e := congrArg State.dbgUnit hr; exact e
  refine ⟨?_, by rw [c], by rw [d], .inl (by rw [d]), fun _ => ⟨c, d⟩, hl, hi⟩
  simpa only [c, d] using hr

theorem dataOnly_draw (s : State) : DataOnly s s.draw.2 := dataOnly_of rfl rfl id

theorem dataOnly_latchAbort (s : State) (c : BitVec 5) (b : Bool) : DataOnly s (s.latchAbort c b) := by
  exact dataOnly_of rfl rfl id

theorem dataOnly_noteAccess (s : State) (m : Bool) : DataOnly s (s.noteAccess m) := dataOnly_of rfl rfl id

theorem dataOnly_noteWriteBack (s : State) : DataOnly s s.noteWriteBack := dataOnly_of rfl rfl id

theorem dataOnly_drain (s : State) : DataOnly s s.drain :=
  dataOnly_of rfl rfl fun h => ⟨drain_wf h.1, by simp⟩

theorem dataOnly_writeThrough (s : State) (a : Word) (bs : List Byte) : DataOnly s (s.writeThrough a bs) :=
  dataOnly_of rfl rfl fun h => ⟨writeThrough_wf h.1 a bs, by simp⟩

theorem dataOnly_pushWrite (s : State) (a : Word) (bs : List Byte) (c d : Bool) :
    DataOnly s (s.pushWrite a bs c d) := by
  refine dataOnly_of ?_ ?_ fun h => ⟨pushWrite_wf h.1 a bs c d, pushWrite_length h.2 a bs c d⟩ <;>
  · unfold State.pushWrite
    split
    · rfl
    · dsimp only
      split <;> rfl

theorem dataOnly_fence (s : State) (f : Bool) : DataOnly s (s.fence f) := by
  unfold State.fence
  split
  · exact dataOnly_drain s
  · exact .refl s

theorem dataOnly_noteModified (s : State) (a : Word) (bs : List Byte) : DataOnly s (s.noteModified a bs) :=
  dataOnly_of rfl rfl id

theorem dataOnly_logDevice (s : State) (w : Bool) (a : Word) (bs : List Byte) : DataOnly s (s.logDevice w a bs) :=
  dataOnly_of rfl rfl id

theorem dataOnly_deviceWords (s : State) (n : Nat) : DataOnly s (s.deviceWords n).2 := by
  induction n with
  | zero => exact .refl s
  | succ n ih =>
    simp only [State.deviceWords]
    split
    · exact dataOnly_trans ih (dataOnly_of rfl rfl id)
    · exact dataOnly_trans ih (dataOnly_draw _)

/-- A read of a device changes only the answers left, the record of accesses and the count of free values. -/
theorem dataOnly_deviceRead (s : State) (a : Word) (n : Nat) : DataOnly s (s.deviceRead a n).2 :=
  dataOnly_trans (dataOnly_deviceWords s _) (dataOnly_logDevice _ _ _ _)

theorem dataOnly_setDLine (s : State) (m : Bool) (i : Nat) (l : DLine) : DataOnly s (s.setDLine m i l) := by
  unfold State.setDLine
  split <;> exact dataOnly_of rfl rfl id

theorem dataOnly_dropDLine (s : State) (a : Word) : DataOnly s (s.dropDLine a) := dataOnly_of rfl rfl id

/-! ### The lines of the data caches -/

theorem findDLine_eq_none {a : Word} : s.findDLine a = none ↔ s.lineIn false a = none ∧ s.lineIn true a = none := by
  unfold State.findDLine
  cases s.lineIn false a <;> simp

/-- An invalidated line is in neither data cache. -/
theorem lineIn_dropDLine (s : State) (mini : Bool) (a : Word) : (s.dropDLine a).lineIn mini a = none := by
  cases mini <;> simp [State.lineIn, State.dropDLine]

theorem findDLine_dropDLine (s : State) (a : Word) : (s.dropDLine a).findDLine a = none :=
  findDLine_eq_none.2 ⟨lineIn_dropDLine s _ a, lineIn_dropDLine s _ a⟩

/-- No slot holds the line of two different tags or sets. -/
theorem isDLineOf_ne {a b : Word} (h : setOf a ≠ setOf b ∨ tagOf a ≠ tagOf b) {ways : Nat} {p : Nat × DLine}
    (hp : isDLineOf ways b p = true) : isDLineOf ways a p = false := by
  simp only [isDLineOf, Bool.and_eq_true, decide_eq_true_eq, beq_iff_eq, Bool.and_eq_false_iff, decide_eq_false_iff_not,
    beq_eq_false_iff_ne, ne_eq] at *
  rw [hp.1, hp.2]
  exact h.imp Ne.symm Ne.symm

/-- The lines of other addresses stay where they are. -/
theorem lineIn_dropDLine_of_ne (s : State) (mini : Bool) {a b : Word} (h : setOf a ≠ setOf b ∨ tagOf a ≠ tagOf b) :
    (s.dropDLine a).lineIn mini b = s.lineIn mini b := by
  have drop (ways : Nat) (ls : List (Nat × DLine)) :
      (ls.filter fun p => !isDLineOf ways a p).find? (isDLineOf ways b) = ls.find? (isDLineOf ways b) := by
    rw [List.find?_filter]
    congr 1
    funext p
    cases hp : isDLineOf ways b p
    · simp
    · simp [isDLineOf_ne h hp]
  cases mini <;> simp [State.lineIn, State.dropDLine, drop]

/-! ### The operations on data memory -/

theorem drawWord_dataOnly : Within DataOnly drawWord := fun s => dataOnly_draw s

theorem writeBackHalf_dataOnly (l : DLine) (hi : Bool) : Within DataOnly (writeBackHalf l hi) := by
  intro s
  unfold writeBackHalf
  refine at_get_bind ?_
  dsimp only
  split
  · exact at_fault _ (.refl s)
  · exact at_set (dataOnly_trans (dataOnly_noteWriteBack s) (dataOnly_latchAbort _ _ _))
  · exact at_set (dataOnly_trans (dataOnly_noteWriteBack s) (dataOnly_pushWrite _ _ _ _ _))

theorem writeBack_dataOnly (l : DLine) : Within DataOnly (writeBack l) := by
  intro s
  unfold writeBack
  dsimp only
  split
  · refine at_bind (writeBackHalf_dataOnly l false s) fun _ t h => ?_
    split
    · exact (writeBackHalf_dataOnly l true).at dataOnly_trans h
    · exact at_pure _ h
  · split
    · exact writeBackHalf_dataOnly l true s
    · exact at_pure _ (.refl s)

theorem allocateLine_dataOnly (mini : Bool) (mva pa : Word) (data : List Byte) :
    Within DataOnly (allocateLine mini mva pa data) := by
  intro s
  unfold allocateLine
  refine at_get_bind ?_
  dsimp only
  split
  · split
    · exact at_refuse _ (.refl s)
    · split
      · exact at_bind (writeBack_dataOnly _ s) fun _ t h => at_modify _ (dataOnly_trans h (dataOnly_of rfl rfl id))
      · exact at_modify _ (dataOnly_of rfl rfl id)
  · split
    · exact at_bind (writeBack_dataOnly _ s) fun _ t h => at_modify _ (dataOnly_trans h (dataOnly_of rfl rfl id))
    · exact at_modify _ (dataOnly_of rfl rfl id)

theorem busRead_dataOnly (pa : Word) (n : Nat) : Within DataOnly (busRead pa n) := by
  intro s
  unfold busRead
  refine at_modify_bind (at_get_bind ?_)
  have h := dataOnly_fence s s.noCoalesce
  split
  · exact at_pure _ h
  · exact at_set_bind (at_pure _ (dataOnly_trans h (dataOnly_deviceRead _ pa n)))
  · exact at_pure _ h

theorem fillLine_dataOnly (mini : Bool) (mva pa : Word) (latch : Bool) :
    Within DataOnly (fillLine mini mva pa latch) := by
  intro s
  unfold fillLine
  refine at_bind (busRead_dataOnly _ _ s) fun bs t h => ?_
  split
  · exact at_bind ((allocateLine_dataOnly _ _ _ _).at dataOnly_trans h) fun _ u h' => at_pure _ h'
  · dsimp only
    split
    · exact at_modify_bind (at_pure _ (dataOnly_trans h (dataOnly_latchAbort t _ _)))
    · exact at_pure _ h

theorem loadBus_dataOnly (pa : Word) (a : Attrs) (n : Nat) : Within DataOnly (loadBus pa a n) := by
  intro s
  unfold loadBus
  refine at_bind (busRead_dataOnly _ _ s) fun bs t h => ?_
  split
  · exact at_pure _ h
  · exact at_modify_bind (at_pure _ (dataOnly_trans h (dataOnly_latchAbort t _ _)))

theorem loadHit_dataOnly (l : DLine) (a : Attrs) (off n : Nat) : Within DataOnly (loadHit l a off n) := by
  intro s
  unfold loadHit
  split
  · exact at_modify_bind (at_pure _ (dataOnly_latchAbort s _ _))
  · exact at_pure _ (.refl s)

theorem loadBytes_dataOnly (mva pa : Word) (a : Attrs) (n : Nat) : Within DataOnly (loadBytes mva pa a n) := by
  intro s
  unfold loadBytes
  refine at_modify_bind (at_get_bind ?_)
  have hf := dataOnly_fence s a.fencesLoad
  revert hf
  generalize s.fence a.fencesLoad = s1
  intro hf
  have hn := fun m => dataOnly_trans hf (dataOnly_noteAccess s1 m)
  split
  · exact at_fault _ hf
  · split
    · exact at_set_bind ((loadHit_dataOnly _ _ _ n).at dataOnly_trans (hn _))
    · refine at_set_bind ?_
      split
      · refine at_bind ((fillLine_dataOnly _ _ _ _).at dataOnly_trans (hn _)) fun ok t h => ?_
        refine at_get_bind ?_
        split
        · exact at_pure _ h
        · exact at_pure _ h
      · exact (loadBus_dataOnly _ _ n).at dataOnly_trans (hn _)

theorem storeBus_dataOnly (pa : Word) (a : Attrs) (bs : List Byte) : Within DataOnly (storeBus pa a bs) := by
  intro s
  unfold storeBus
  refine at_get_bind ?_
  split
  · have h := dataOnly_noteModified s pa bs
    dsimp only
    split
    · exact at_set (dataOnly_trans h (dataOnly_writeThrough _ _ _))
    · exact at_set (dataOnly_trans h (dataOnly_pushWrite _ _ _ _ _))
  · split
    · exact at_set (dataOnly_trans (dataOnly_drain s) (dataOnly_logDevice _ _ _ _))
    · exact at_set (dataOnly_pushWrite s _ _ _ _)
  · exact at_set (dataOnly_latchAbort s _ _)

theorem storeHit_dataOnly (mini : Bool) (slot : Nat) (l : DLine) (mva pa : Word) (a : Attrs) (bs : List Byte) :
    Within DataOnly (storeHit mini slot l mva pa a bs) := by
  intro s
  unfold storeHit
  refine at_get_bind ?_
  dsimp only
  split
  · exact at_set_bind ((storeBus_dataOnly _ _ _).at dataOnly_trans (dataOnly_setDLine s _ _ _))
  · exact at_set (dataOnly_trans (dataOnly_noteModified s _ _) (dataOnly_setDLine _ _ _ _))

theorem storeBytes_dataOnly (mva pa : Word) (a : Attrs) (bs : List Byte) :
    Within DataOnly (storeBytes mva pa a bs) := by
  intro s
  unfold storeBytes
  refine at_modify_bind (at_get_bind ?_)
  have hf := dataOnly_fence s a.fencesStore
  revert hf
  generalize s.fence a.fencesStore = s1
  intro hf
  have hn := fun m => dataOnly_trans hf (dataOnly_noteAccess s1 m)
  split
  · exact at_fault _ hf
  · split
    · exact at_set_bind ((storeHit_dataOnly _ _ _ _ _ _ _).at dataOnly_trans (hn _))
    · refine at_set_bind ?_
      split
      · refine at_bind ((fillLine_dataOnly _ _ _ _).at dataOnly_trans (hn _)) fun ok t h => ?_
        refine at_get_bind ?_
        split
        · exact (storeHit_dataOnly _ _ _ _ _ _ _).at dataOnly_trans h
        · exact at_pure _ h
      · exact (storeBus_dataOnly _ _ _).at dataOnly_trans (hn _)

/-! ### Translation -/

theorem dataOnly_noteTlbMiss (s : State) (i : Bool) : DataOnly s (s.noteTlbMiss i) := by
  unfold State.noteTlbMiss
  split <;> exact dataOnly_of rfl rfl id

theorem readDescriptor_dataOnly (a : Word) (code : BitVec 5) (domain : Option (BitVec 4)) (mva : Word) :
    Within DataOnly (readDescriptor a code domain mva) := by
  intro s
  unfold At readDescriptor
  split
  · next e => split at e <;> cases e <;> first | exact .refl s | exact dataOnly_deviceRead s a 4
  · next e =>
    split at e <;> cases e
    exact .refl s

theorem walkFrom_dataOnly (l1 mva : Word) : Within DataOnly (walkFrom l1 mva) := by
  intro s
  unfold walkFrom
  dsimp only
  split
  · exact at_ofExcept _ (.refl s)
  · split
    · exact at_fault _ (.refl s)
    · split
      · exact at_pure _ (.refl s)
      · exact at_bind (readDescriptor_dataOnly _ _ _ _ s) fun l2 t h => at_ofExcept _ h

/-- The walker may read devices. -/
theorem walk_dataOnly (mva : Word) : Within DataOnly (walk mva) := fun s =>
  at_get_bind (at_bind (readDescriptor_dataOnly _ _ _ _ s) fun l1 _ h => (walkFrom_dataOnly l1 mva).at dataOnly_trans h)

theorem findEntry_dataOnly (mva : Word) : Within DataOnly (findEntry false mva) := by
  intro s
  unfold findEntry
  refine at_get_bind ?_
  split
  · exact at_pure _ (.refl s)
  · refine at_set_bind (at_bind ((walk_dataOnly mva).at dataOnly_trans (dataOnly_noteTlbMiss s false)) fun e t h => ?_)
    exact at_modify_bind (at_pure _ (dataOnly_trans h (dataOnly_of rfl rfl id)))

theorem translateData_dataOnly (mva : Word) (priv write : Bool) : Within DataOnly (translateData mva priv write) := by
  intro s
  unfold translateData
  refine at_get_bind ?_
  split
  · unfold translate
    refine at_bind (findEntry_dataOnly mva s) fun e t h => at_get_bind ?_
    exact at_bind (at_ofExcept _ h) fun _ u h' => at_pure _ h'
  · exact at_pure _ (.refl s)

/-! ### MemRead and MemWrite -/

theorem alignmentFault_dataOnly (mva : Word) : Within DataOnly (alignmentFault mva : Exec α) := fun s => dataOnly_draw s

theorem dataPlace_dataOnly (va : Word) (n : Nat) (priv write store : Bool) :
    Within DataOnly (dataPlace va n priv write store) := by
  intro s
  unfold dataPlace
  refine at_get_bind ?_
  dsimp only
  split
  · exact alignmentFault_dataOnly _ s
  · split
    · exact at_refuse _ (.refl s)
    · refine at_bind (translateData_dataOnly _ _ _ s) fun p t h => ?_
      exact at_modify_bind (at_pure _ (dataOnly_trans h (dataOnly_of rfl rfl id)))

theorem dataOnly_reportFault_sds (s : State) (code : BitVec 5) (domain : Option (BitVec 4)) (far : Option Word)
    (hs : s.dbgUnit.sds = true) : DataOnly s (s.stickyAbort code domain far) := by
  refine ⟨?_, ?_, ?_, .inr ?_, fun h => (by rw [hs] at h; cases h), ?_, ?_⟩ <;>
  · unfold State.stickyAbort State.reportFault
    dsimp only
    split <;> split <;> first | rfl | exact id

theorem ignoreAbortInSds_dataOnly {x : Exec α} {y : Exec α} (hx : Within DataOnly x) (hy : Within DataOnly y) :
    Within DataOnly (ignoreAbortInSds x y) := by
  intro s
  unfold At ignoreAbortInSds
  cases e : x s with
  | ok a t => exact hx.ok e
  | error r t =>
    have h := hx.error e
    cases r with
    | dataAbort code domain far =>
      dsimp only
      cases hs : t.dbgUnit.sds with
      | true =>
        simp only [if_true]
        exact hy.at dataOnly_trans (dataOnly_trans h (dataOnly_reportFault_sds t code domain far hs))
      | false => exact h
    | _ => exact h

theorem refuseAbortInSds_dataOnly {x : Exec α} (hx : Within DataOnly x) : Within DataOnly (refuseAbortInSds x) := by
  intro s
  unfold At refuseAbortInSds
  cases e : x s with
  | ok a t => exact hx.ok e
  | error r t =>
    have h := hx.error e
    cases r with
    | dataAbort code domain far =>
      dsimp only
      cases t.dbgUnit.sds <;> exact h
    | _ => exact h

theorem loadedValue_dataOnly (f : List Byte → Word) (bs : Option (List Byte)) : Within DataOnly (loadedValue f bs) := by
  intro s
  cases bs with
  | none => exact drawWord_dataOnly s
  | some bs => exact at_pure _ (.refl s)

theorem memReadRaw_dataOnly (f : List Byte → Word) (va : Word) (n : Nat) (priv : Bool) :
    Within DataOnly (memReadRaw f va n priv) := fun s =>
  at_bind (dataPlace_dataOnly _ _ _ _ _ s) fun _ _ h =>
    at_bind ((loadBytes_dataOnly _ _ _ _).at dataOnly_trans h) fun _ _ h' =>
      (loadedValue_dataOnly _ _).at dataOnly_trans h'

/-- Every load of one register: of a word, a byte, a halfword or a signed value. -/
theorem memReadAs_dataOnly (f : List Byte → Word) (va : Word) (n : Nat) (priv : Bool) :
    Within DataOnly (memReadAs f va n priv) := ignoreAbortInSds_dataOnly (memReadRaw_dataOnly f va n priv) drawWord_dataOnly

theorem memRead_dataOnly (va : Word) (n : Nat) (priv : Bool) : Within DataOnly (memRead va n priv) :=
  memReadAs_dataOnly _ va n priv

theorem memWriteRaw_dataOnly (va : Word) (n : Nat) (priv : Bool) (v : Word) :
    Within DataOnly (memWriteRaw va n priv v) := fun s =>
  at_bind (dataPlace_dataOnly _ _ _ _ _ s) fun _ _ h => (storeBytes_dataOnly _ _ _ _).at dataOnly_trans h

theorem memWrite_dataOnly (va : Word) (n : Nat) (priv : Bool) (v : Word) : Within DataOnly (memWrite va n priv v) :=
  ignoreAbortInSds_dataOnly (memWriteRaw_dataOnly va n priv v) fun s => at_pure _ (.refl s)

theorem memReadWord_dataOnly (va : Word) (priv : Bool) : Within DataOnly (memReadWord va priv) :=
  memReadAs_dataOnly _ va 4 priv

/-! ### What other masters write in between -/

theorem dataOnly_masterWrite (s : State) (a : Word) (bs : List Byte) : DataOnly s (s.masterWrite a bs) := by
  unfold State.masterWrite
  split
  · exact dataOnly_of rfl rfl fun h => ⟨memSetList_wf h.1 a 0 bs, h.2⟩
  · exact .refl s

theorem dataOnly_masterWrites (s : State) (ws : List BusWrite) : DataOnly s (s.masterWrites ws) := by
  induction ws generalizing s with
  | nil => exact .refl s
  | cons w ws ih => exact dataOnly_trans (dataOnly_masterWrite s _ _) (ih _)

theorem dataOnly_between (s : State) (b : List (List BusWrite)) : DataOnly s { s with between := b } :=
  dataOnly_of rfl rfl id

theorem dataOnly_gap (s : State) (more : Bool) : DataOnly s (s.gap more) := by
  unfold State.gap
  split
  · exact .refl s
  · split
    · exact dataOnly_trans (dataOnly_between s _) (dataOnly_masterWrites _ _)
    · exact .refl s

theorem dataOnly_swapGap (s : State) : DataOnly s s.swapGap := by
  unfold State.swapGap
  split
  · exact .refl s
  · exact dataOnly_trans (dataOnly_between s _) (dataOnly_masterWrites _ _)

theorem checkSpan_dataOnly (a : Word) (n : Nat) : Within DataOnly (checkSpan a n) := fun s => by
  unfold At checkSpan
  by_cases h : a.toNat / 4 + n ≤ 2 ^ 30
  · rw [if_pos h]; exact .refl s
  · rw [if_neg h]; exact .refl s

theorem loadWords_dataOnly (priv : Bool) (rs : List RegNum) (a : Word) : Within DataOnly (loadWords priv rs a) := by
  induction rs generalizing a with
  | nil => exact fun s => at_pure _ (.refl s)
  | cons r rs ih =>
    intro s
    unfold At loadWords
    cases e : memReadRaw wordOf a 4 priv s with
    | ok v t =>
      have h := dataOnly_trans ((memReadRaw_dataOnly wordOf a 4 priv).ok e) (dataOnly_gap t !rs.isEmpty)
      dsimp only
      cases e' : loadWords priv rs (a + 4#32) (t.gap !rs.isEmpty) with
      | ok p u => exact dataOnly_trans h ((ih _).ok e')
      | error x u => exact dataOnly_trans h ((ih _).error e')
    | error x t =>
      have h := (memReadRaw_dataOnly wordOf a 4 priv).error e
      cases x <;> exact h

theorem storeWords_dataOnly (priv : Bool) (vs : List Word) (a : Word) : Within DataOnly (storeWords priv vs a) := by
  induction vs generalizing a with
  | nil => exact fun s => at_pure _ (.refl s)
  | cons v vs ih =>
    intro s
    exact at_bind (refuseAbortInSds_dataOnly (memWriteRaw_dataOnly a 4 priv v) s) fun _ t h =>
      at_modify_bind ((ih _).at dataOnly_trans (dataOnly_trans h (dataOnly_gap t !vs.isEmpty)))

/-- A swap: what its two accesses, the gap between them and its store to memory may change. -/
theorem swapAccess_dataOnly (va : Word) (n : Nat) (priv : Bool) (v : Word) :
    Within DataOnly (swapAccess va n priv v) := by
  intro s
  unfold swapAccess
  refine at_bind (dataPlace_dataOnly va n priv false true s) fun _ s1 h1 => ?_
  refine at_bind ((dataPlace_dataOnly va n priv true true).at dataOnly_trans h1) fun p s2 h2 => ?_
  refine at_get_bind ?_
  refine at_bind ((loadBytes_dataOnly _ _ _ _).at dataOnly_trans h2) fun bs s3 h3 => ?_
  refine at_modify_bind ?_
  refine at_bind ((storeBytes_dataOnly _ _ _ _).at dataOnly_trans (dataOnly_trans h3 (dataOnly_swapGap s3))) fun _ s4 h4 => ?_
  exact at_modify_bind ((loadedValue_dataOnly _ _).at dataOnly_trans (dataOnly_trans h4 (dataOnly_fence s4 _)))

/-! ### Cleaning a line -/

theorem cleanedBytes_dataOnly (l : DLine) : Within DataOnly (cleanedBytes l) := fun s =>
  at_bind (drawWord_dataOnly s) fun _ _ h => at_pure _ h

theorem cleanLine_dataOnly (mini : Bool) (slot : Nat) (l : DLine) : Within DataOnly (cleanLine mini slot l) := by
  intro s
  unfold cleanLine
  have done {t : State} (h : DataOnly s t) (l' : DLine) :
      At DataOnly s t (modify fun s => s.setDLine mini slot l' : Exec PUnit) :=
    at_modify _ (dataOnly_trans h (dataOnly_setDLine _ _ _ _))
  split
  · generalize l.parityError _ _ = spoilt
    cases spoilt
    · exact at_bind (writeBack_dataOnly l s) fun _ t h => done h _
    · exact at_modify_bind (at_bind ((cleanedBytes_dataOnly l).at dataOnly_trans (dataOnly_latchAbort s _ _))
        fun bs t h => at_bind ((writeBack_dataOnly _).at dataOnly_trans h) fun _ u h' => done h' _)
  · exact at_pure _ (.refl s)

theorem cleanIn_dataOnly (mini : Bool) (a : Word) : Within DataOnly (cleanIn mini a) := by
  intro s
  unfold cleanIn
  refine at_get_bind ?_
  split
  · exact at_pure _ (.refl s)
  · exact cleanLine_dataOnly _ _ _ s

/-- Clean D cache line: what both caches and the write buffer may change. -/
theorem cleanDLine_dataOnly (a : Word) : Within DataOnly (cleanDLine a) := by
  intro s
  unfold cleanDLine
  refine at_get_bind ?_
  split
  · exact at_bind (drawWord_dataOnly s) fun w t h =>
      at_bind ((cleanIn_dataOnly _ a).at dataOnly_trans h) fun _ u h' => (cleanIn_dataOnly _ a).at dataOnly_trans h'
  · exact at_bind (cleanIn_dataOnly _ a s) fun _ t h => (cleanIn_dataOnly _ a).at dataOnly_trans h

/-- Where a line is in one cache only, a clean is that of this cache (45_cp15_cp14_operations.md R596). -/
theorem cleanIn_of_none {mini : Bool} {a : Word} (h : s.lineIn mini a = none) : cleanIn mini a s = .ok () s := by
  simp only [cleanIn, bind, EStateM.bind, get, getThe, MonadStateOf.get, EStateM.get, h, pure, EStateM.pure]

end Sys2Proof.Machine
end

