-- ==== Sys2Proof/Laws/PerInstr.lean ====
section
/-!
SUPPORT. One fact for every instruction: its encoding has no bit beyond its 32 (ARM) or 16 (Thumb) bits.
-/

namespace Sys2Proof.Laws

open Sys2Proof

/-- The number of bits of an instruction. -/
def EncodesInWidth.width (i : Sys2Proof.Instr) : Nat :=
  match i.isa with
  | .arm => 32
  | .thumb => 16

/-- The encoding of an instruction fits its width. -/
def EncodesInWidth.Statement (i : Sys2Proof.Instr) : Prop :=
  Sys2Proof.encodeNat i < 2 ^ EncodesInWidth.width i

theorem EncodesInWidth.and (cond : BitVec 4) (sf : Bool) (rn : BitVec 4) (rd : BitVec 4) (op2 : Op2) :
    EncodesInWidth.Statement (.and cond sf rn rd op2) := by
  cases op2 with
  | imm _ _ =>
    exact put_lt (k := 24) _ _ (put_lt (k := 20) _ _ (put_lt (k := 16) _ _ (put_lt (k := 12) _ _ (putBit_lt (k
      := 11) _ _ (put_lt (k := 7) _ _ (put_lt (k := 4) _ _ (cond.isLt)))))))
  | shift _ _ _ =>
    exact put_lt (k := 28) _ _ (put_lt (k := 27) _ _ (put_lt (k := 25) _ _ (put_lt (k := 20) _ _ (put_lt (k :=
      16) _ _ (put_lt (k := 12) _ _ (putBit_lt (k := 11) _ _ (put_lt (k := 7) _ _ (put_lt (k := 4) _ _
      (cond.isLt)))))))))
  | reg _ _ _ =>
    exact put_lt (k := 28) _ _ (put_lt (k := 27) _ _ (put_lt (k := 25) _ _ (put_lt (k := 24) _ _ (put_lt (k :=
      20) _ _ (put_lt (k := 16) _ _ (put_lt (k := 12) _ _ (putBit_lt (k := 11) _ _ (put_lt (k := 7) _ _ (put_lt
      (k := 4) _ _ (cond.isLt))))))))))

theorem EncodesInWidth.eor (cond : BitVec 4) (sf : Bool) (rn : BitVec 4) (rd : BitVec 4) (op2 : Op2) :
    EncodesInWidth.Statement (.eor cond sf rn rd op2) := by
  cases op2 with
  | imm _ _ =>
    exact put_lt (k := 24) _ _ (put_lt (k := 20) _ _ (put_lt (k := 16) _ _ (put_lt (k := 12) _ _ (putBit_lt (k
      := 11) _ _ (put_lt (k := 7) _ _ (put_lt (k := 4) _ _ (cond.isLt)))))))
  | shift _ _ _ =>
    exact put_lt (k := 28) _ _ (put_lt (k := 27) _ _ (put_lt (k := 25) _ _ (put_lt (k := 20) _ _ (put_lt (k :=
      16) _ _ (put_lt (k := 12) _ _ (putBit_lt (k := 11) _ _ (put_lt (k := 7) _ _ (put_lt (k := 4) _ _
      (cond.isLt)))))))))
  | reg _ _ _ =>
    exact put_lt (k := 28) _ _ (put_lt (k := 27) _ _ (put_lt (k := 25) _ _ (put_lt (k := 24) _ _ (put_lt (k :=
      20) _ _ (put_lt (k := 16) _ _ (put_lt (k := 12) _ _ (putBit_lt (k := 11) _ _ (put_lt (k := 7) _ _ (put_lt
      (k := 4) _ _ (cond.isLt))))))))))

theorem EncodesInWidth.sub (cond : BitVec 4) (sf : Bool) (rn : BitVec 4) (rd : BitVec 4) (op2 : Op2) :
    EncodesInWidth.Statement (.sub cond sf rn rd op2) := by
  cases op2 with
  | imm _ _ =>
    exact put_lt (k := 24) _ _ (put_lt (k := 20) _ _ (put_lt (k := 16) _ _ (put_lt (k := 12) _ _ (putBit_lt (k
      := 11) _ _ (put_lt (k := 7) _ _ (put_lt (k := 4) _ _ (cond.isLt)))))))
  | shift _ _ _ =>
    exact put_lt (k := 28) _ _ (put_lt (k := 27) _ _ (put_lt (k := 25) _ _ (put_lt (k := 20) _ _ (put_lt (k :=
      16) _ _ (put_lt (k := 12) _ _ (putBit_lt (k := 11) _ _ (put_lt (k := 7) _ _ (put_lt (k := 4) _ _
      (cond.isLt)))))))))
  | reg _ _ _ =>
    exact put_lt (k := 28) _ _ (put_lt (k := 27) _ _ (put_lt (k := 25) _ _ (put_lt (k := 24) _ _ (put_lt (k :=
      20) _ _ (put_lt (k := 16) _ _ (put_lt (k := 12) _ _ (putBit_lt (k := 11) _ _ (put_lt (k := 7) _ _ (put_lt
      (k := 4) _ _ (cond.isLt))))))))))

theorem EncodesInWidth.rsb (cond : BitVec 4) (sf : Bool) (rn : BitVec 4) (rd : BitVec 4) (op2 : Op2) :
    EncodesInWidth.Statement (.rsb cond sf rn rd op2) := by
  cases op2 with
  | imm _ _ =>
    exact put_lt (k := 24) _ _ (put_lt (k := 20) _ _ (put_lt (k := 16) _ _ (put_lt (k := 12) _ _ (putBit_lt (k
      := 11) _ _ (put_lt (k := 7) _ _ (put_lt (k := 4) _ _ (cond.isLt)))))))
  | shift _ _ _ =>
    exact put_lt (k := 28) _ _ (put_lt (k := 27) _ _ (put_lt (k := 25) _ _ (put_lt (k := 20) _ _ (put_lt (k :=
      16) _ _ (put_lt (k := 12) _ _ (putBit_lt (k := 11) _ _ (put_lt (k := 7) _ _ (put_lt (k := 4) _ _
      (cond.isLt)))))))))
  | reg _ _ _ =>
    exact put_lt (k := 28) _ _ (put_lt (k := 27) _ _ (put_lt (k := 25) _ _ (put_lt (k := 24) _ _ (put_lt (k :=
      20) _ _ (put_lt (k := 16) _ _ (put_lt (k := 12) _ _ (putBit_lt (k := 11) _ _ (put_lt (k := 7) _ _ (put_lt
      (k := 4) _ _ (cond.isLt))))))))))

theorem EncodesInWidth.add (cond : BitVec 4) (sf : Bool) (rn : BitVec 4) (rd : BitVec 4) (op2 : Op2) :
    EncodesInWidth.Statement (.add cond sf rn rd op2) := by
  cases op2 with
  | imm _ _ =>
    exact put_lt (k := 24) _ _ (put_lt (k := 20) _ _ (put_lt (k := 16) _ _ (put_lt (k := 12) _ _ (putBit_lt (k
      := 11) _ _ (put_lt (k := 7) _ _ (put_lt (k := 4) _ _ (cond.isLt)))))))
  | shift _ _ _ =>
    exact put_lt (k := 28) _ _ (put_lt (k := 27) _ _ (put_lt (k := 25) _ _ (put_lt (k := 20) _ _ (put_lt (k :=
      16) _ _ (put_lt (k := 12) _ _ (putBit_lt (k := 11) _ _ (put_lt (k := 7) _ _ (put_lt (k := 4) _ _
      (cond.isLt)))))))))
  | reg _ _ _ =>
    exact put_lt (k := 28) _ _ (put_lt (k := 27) _ _ (put_lt (k := 25) _ _ (put_lt (k := 24) _ _ (put_lt (k :=
      20) _ _ (put_lt (k := 16) _ _ (put_lt (k := 12) _ _ (putBit_lt (k := 11) _ _ (put_lt (k := 7) _ _ (put_lt
      (k := 4) _ _ (cond.isLt))))))))))

theorem EncodesInWidth.adc (cond : BitVec 4) (sf : Bool) (rn : BitVec 4) (rd : BitVec 4) (op2 : Op2) :
    EncodesInWidth.Statement (.adc cond sf rn rd op2) := by
  cases op2 with
  | imm _ _ =>
    exact put_lt (k := 24) _ _ (put_lt (k := 20) _ _ (put_lt (k := 16) _ _ (put_lt (k := 12) _ _ (putBit_lt (k
      := 11) _ _ (put_lt (k := 7) _ _ (put_lt (k := 4) _ _ (cond.isLt)))))))
  | shift _ _ _ =>
    exact put_lt (k := 28) _ _ (put_lt (k := 27) _ _ (put_lt (k := 25) _ _ (put_lt (k := 20) _ _ (put_lt (k :=
      16) _ _ (put_lt (k := 12) _ _ (putBit_lt (k := 11) _ _ (put_lt (k := 7) _ _ (put_lt (k := 4) _ _
      (cond.isLt)))))))))
  | reg _ _ _ =>
    exact put_lt (k := 28) _ _ (put_lt (k := 27) _ _ (put_lt (k := 25) _ _ (put_lt (k := 24) _ _ (put_lt (k :=
      20) _ _ (put_lt (k := 16) _ _ (put_lt (k := 12) _ _ (putBit_lt (k := 11) _ _ (put_lt (k := 7) _ _ (put_lt
      (k := 4) _ _ (cond.isLt))))))))))

theorem EncodesInWidth.sbc (cond : BitVec 4) (sf : Bool) (rn : BitVec 4) (rd : BitVec 4) (op2 : Op2) :
    EncodesInWidth.Statement (.sbc cond sf rn rd op2) := by
  cases op2 with
  | imm _ _ =>
    exact put_lt (k := 24) _ _ (put_lt (k := 20) _ _ (put_lt (k := 16) _ _ (put_lt (k := 12) _ _ (putBit_lt (k
      := 11) _ _ (put_lt (k := 7) _ _ (put_lt (k := 4) _ _ (cond.isLt)))))))
  | shift _ _ _ =>
    exact put_lt (k := 28) _ _ (put_lt (k := 27) _ _ (put_lt (k := 25) _ _ (put_lt (k := 20) _ _ (put_lt (k :=
      16) _ _ (put_lt (k := 12) _ _ (putBit_lt (k := 11) _ _ (put_lt (k := 7) _ _ (put_lt (k := 4) _ _
      (cond.isLt)))))))))
  | reg _ _ _ =>
    exact put_lt (k := 28) _ _ (put_lt (k := 27) _ _ (put_lt (k := 25) _ _ (put_lt (k := 24) _ _ (put_lt (k :=
      20) _ _ (put_lt (k := 16) _ _ (put_lt (k := 12) _ _ (putBit_lt (k := 11) _ _ (put_lt (k := 7) _ _ (put_lt
      (k := 4) _ _ (cond.isLt))))))))))

theorem EncodesInWidth.rsc (cond : BitVec 4) (sf : Bool) (rn : BitVec 4) (rd : BitVec 4) (op2 : Op2) :
    EncodesInWidth.Statement (.rsc cond sf rn rd op2) := by
  cases op2 with
  | imm _ _ =>
    exact put_lt (k := 24) _ _ (put_lt (k := 20) _ _ (put_lt (k := 16) _ _ (put_lt (k := 12) _ _ (putBit_lt (k
      := 11) _ _ (put_lt (k := 7) _ _ (put_lt (k := 4) _ _ (cond.isLt)))))))
  | shift _ _ _ =>
    exact put_lt (k := 28) _ _ (put_lt (k := 27) _ _ (put_lt (k := 25) _ _ (put_lt (k := 20) _ _ (put_lt (k :=
      16) _ _ (put_lt (k := 12) _ _ (putBit_lt (k := 11) _ _ (put_lt (k := 7) _ _ (put_lt (k := 4) _ _
      (cond.isLt)))))))))
  | reg _ _ _ =>
    exact put_lt (k := 28) _ _ (put_lt (k := 27) _ _ (put_lt (k := 25) _ _ (put_lt (k := 24) _ _ (put_lt (k :=
      20) _ _ (put_lt (k := 16) _ _ (put_lt (k := 12) _ _ (putBit_lt (k := 11) _ _ (put_lt (k := 7) _ _ (put_lt
      (k := 4) _ _ (cond.isLt))))))))))

theorem EncodesInWidth.tst (cond : BitVec 4) (rn : BitVec 4) (op2 : Op2) :
    EncodesInWidth.Statement (.tst cond rn op2) := by
  cases op2 with
  | imm _ _ =>
    exact put_lt (k := 24) _ _ (put_lt (k := 20) _ _ (put_lt (k := 16) _ _ (put_lt (k := 12) _ _ (put_lt (k :=
      11) _ _ (put_lt (k := 7) _ _ (put_lt (k := 4) _ _ (cond.isLt)))))))
  | shift _ _ _ =>
    exact put_lt (k := 28) _ _ (put_lt (k := 27) _ _ (put_lt (k := 25) _ _ (put_lt (k := 20) _ _ (put_lt (k :=
      16) _ _ (put_lt (k := 12) _ _ (put_lt (k := 11) _ _ (put_lt (k := 7) _ _ (put_lt (k := 4) _ _
      (cond.isLt)))))))))
  | reg _ _ _ =>
    exact put_lt (k := 28) _ _ (put_lt (k := 27) _ _ (put_lt (k := 25) _ _ (put_lt (k := 24) _ _ (put_lt (k :=
      20) _ _ (put_lt (k := 16) _ _ (put_lt (k := 12) _ _ (put_lt (k := 11) _ _ (put_lt (k := 7) _ _ (put_lt (k
      := 4) _ _ (cond.isLt))))))))))

theorem EncodesInWidth.teq (cond : BitVec 4) (rn : BitVec 4) (op2 : Op2) :
    EncodesInWidth.Statement (.teq cond rn op2) := by
  cases op2 with
  | imm _ _ =>
    exact put_lt (k := 24) _ _ (put_lt (k := 20) _ _ (put_lt (k := 16) _ _ (put_lt (k := 12) _ _ (put_lt (k :=
      11) _ _ (put_lt (k := 7) _ _ (put_lt (k := 4) _ _ (cond.isLt)))))))
  | shift _ _ _ =>
    exact put_lt (k := 28) _ _ (put_lt (k := 27) _ _ (put_lt (k := 25) _ _ (put_lt (k := 20) _ _ (put_lt (k :=
      16) _ _ (put_lt (k := 12) _ _ (put_lt (k := 11) _ _ (put_lt (k := 7) _ _ (put_lt (k := 4) _ _
      (cond.isLt)))))))))
  | reg _ _ _ =>
    exact put_lt (k := 28) _ _ (put_lt (k := 27) _ _ (put_lt (k := 25) _ _ (put_lt (k := 24) _ _ (put_lt (k :=
      20) _ _ (put_lt (k := 16) _ _ (put_lt (k := 12) _ _ (put_lt (k := 11) _ _ (put_lt (k := 7) _ _ (put_lt (k
      := 4) _ _ (cond.isLt))))))))))

theorem EncodesInWidth.cmp (cond : BitVec 4) (rn : BitVec 4) (op2 : Op2) :
    EncodesInWidth.Statement (.cmp cond rn op2) := by
  cases op2 with
  | imm _ _ =>
    exact put_lt (k := 24) _ _ (put_lt (k := 20) _ _ (put_lt (k := 16) _ _ (put_lt (k := 12) _ _ (put_lt (k :=
      11) _ _ (put_lt (k := 7) _ _ (put_lt (k := 4) _ _ (cond.isLt)))))))
  | shift _ _ _ =>
    exact put_lt (k := 28) _ _ (put_lt (k := 27) _ _ (put_lt (k := 25) _ _ (put_lt (k := 20) _ _ (put_lt (k :=
      16) _ _ (put_lt (k := 12) _ _ (put_lt (k := 11) _ _ (put_lt (k := 7) _ _ (put_lt (k := 4) _ _
      (cond.isLt)))))))))
  | reg _ _ _ =>
    exact put_lt (k := 28) _ _ (put_lt (k := 27) _ _ (put_lt (k := 25) _ _ (put_lt (k := 24) _ _ (put_lt (k :=
      20) _ _ (put_lt (k := 16) _ _ (put_lt (k := 12) _ _ (put_lt (k := 11) _ _ (put_lt (k := 7) _ _ (put_lt (k
      := 4) _ _ (cond.isLt))))))))))

theorem EncodesInWidth.cmn (cond : BitVec 4) (rn : BitVec 4) (op2 : Op2) :
    EncodesInWidth.Statement (.cmn cond rn op2) := by
  cases op2 with
  | imm _ _ =>
    exact put_lt (k := 24) _ _ (put_lt (k := 20) _ _ (put_lt (k := 16) _ _ (put_lt (k := 12) _ _ (put_lt (k :=
      11) _ _ (put_lt (k := 7) _ _ (put_lt (k := 4) _ _ (cond.isLt)))))))
  | shift _ _ _ =>
    exact put_lt (k := 28) _ _ (put_lt (k := 27) _ _ (put_lt (k := 25) _ _ (put_lt (k := 20) _ _ (put_lt (k :=
      16) _ _ (put_lt (k := 12) _ _ (put_lt (k := 11) _ _ (put_lt (k := 7) _ _ (put_lt (k := 4) _ _
      (cond.isLt)))))))))
  | reg _ _ _ =>
    exact put_lt (k := 28) _ _ (put_lt (k := 27) _ _ (put_lt (k := 25) _ _ (put_lt (k := 24) _ _ (put_lt (k :=
      20) _ _ (put_lt (k := 16) _ _ (put_lt (k := 12) _ _ (put_lt (k := 11) _ _ (put_lt (k := 7) _ _ (put_lt (k
      := 4) _ _ (cond.isLt))))))))))

theorem EncodesInWidth.orr (cond : BitVec 4) (sf : Bool) (rn : BitVec 4) (rd : BitVec 4) (op2 : Op2) :
    EncodesInWidth.Statement (.orr cond sf rn rd op2) := by
  cases op2 with
  | imm _ _ =>
    exact put_lt (k := 24) _ _ (put_lt (k := 20) _ _ (put_lt (k := 16) _ _ (put_lt (k := 12) _ _ (putBit_lt (k
      := 11) _ _ (put_lt (k := 7) _ _ (put_lt (k := 4) _ _ (cond.isLt)))))))
  | shift _ _ _ =>
    exact put_lt (k := 28) _ _ (put_lt (k := 27) _ _ (put_lt (k := 25) _ _ (put_lt (k := 20) _ _ (put_lt (k :=
      16) _ _ (put_lt (k := 12) _ _ (putBit_lt (k := 11) _ _ (put_lt (k := 7) _ _ (put_lt (k := 4) _ _
      (cond.isLt)))))))))
  | reg _ _ _ =>
    exact put_lt (k := 28) _ _ (put_lt (k := 27) _ _ (put_lt (k := 25) _ _ (put_lt (k := 24) _ _ (put_lt (k :=
      20) _ _ (put_lt (k := 16) _ _ (put_lt (k := 12) _ _ (putBit_lt (k := 11) _ _ (put_lt (k := 7) _ _ (put_lt
      (k := 4) _ _ (cond.isLt))))))))))

theorem EncodesInWidth.mov (cond : BitVec 4) (sf : Bool) (rd : BitVec 4) (op2 : Op2) :
    EncodesInWidth.Statement (.mov cond sf rd op2) := by
  cases op2 with
  | imm _ _ =>
    exact put_lt (k := 24) _ _ (put_lt (k := 20) _ _ (put_lt (k := 16) _ _ (put_lt (k := 12) _ _ (putBit_lt (k
      := 11) _ _ (put_lt (k := 7) _ _ (put_lt (k := 4) _ _ (cond.isLt)))))))
  | shift _ _ _ =>
    exact put_lt (k := 28) _ _ (put_lt (k := 27) _ _ (put_lt (k := 25) _ _ (put_lt (k := 20) _ _ (put_lt (k :=
      16) _ _ (put_lt (k := 12) _ _ (putBit_lt (k := 11) _ _ (put_lt (k := 7) _ _ (put_lt (k := 4) _ _
      (cond.isLt)))))))))
  | reg _ _ _ =>
    exact put_lt (k := 28) _ _ (put_lt (k := 27) _ _ (put_lt (k := 25) _ _ (put_lt (k := 24) _ _ (put_lt (k :=
      20) _ _ (put_lt (k := 16) _ _ (put_lt (k := 12) _ _ (putBit_lt (k := 11) _ _ (put_lt (k := 7) _ _ (put_lt
      (k := 4) _ _ (cond.isLt))))))))))

theorem EncodesInWidth.bic (cond : BitVec 4) (sf : Bool) (rn : BitVec 4) (rd : BitVec 4) (op2 : Op2) :
    EncodesInWidth.Statement (.bic cond sf rn rd op2) := by
  cases op2 with
  | imm _ _ =>
    exact put_lt (k := 24) _ _ (put_lt (k := 20) _ _ (put_lt (k := 16) _ _ (put_lt (k := 12) _ _ (putBit_lt (k
      := 11) _ _ (put_lt (k := 7) _ _ (put_lt (k := 4) _ _ (cond.isLt)))))))
  | shift _ _ _ =>
    exact put_lt (k := 28) _ _ (put_lt (k := 27) _ _ (put_lt (k := 25) _ _ (put_lt (k := 20) _ _ (put_lt (k :=
      16) _ _ (put_lt (k := 12) _ _ (putBit_lt (k := 11) _ _ (put_lt (k := 7) _ _ (put_lt (k := 4) _ _
      (cond.isLt)))))))))
  | reg _ _ _ =>
    exact put_lt (k := 28) _ _ (put_lt (k := 27) _ _ (put_lt (k := 25) _ _ (put_lt (k := 24) _ _ (put_lt (k :=
      20) _ _ (put_lt (k := 16) _ _ (put_lt (k := 12) _ _ (putBit_lt (k := 11) _ _ (put_lt (k := 7) _ _ (put_lt
      (k := 4) _ _ (cond.isLt))))))))))

theorem EncodesInWidth.mvn (cond : BitVec 4) (sf : Bool) (rd : BitVec 4) (op2 : Op2) :
    EncodesInWidth.Statement (.mvn cond sf rd op2) := by
  cases op2 with
  | imm _ _ =>
    exact put_lt (k := 24) _ _ (put_lt (k := 20) _ _ (put_lt (k := 16) _ _ (put_lt (k := 12) _ _ (putBit_lt (k
      := 11) _ _ (put_lt (k := 7) _ _ (put_lt (k := 4) _ _ (cond.isLt)))))))
  | shift _ _ _ =>
    exact put_lt (k := 28) _ _ (put_lt (k := 27) _ _ (put_lt (k := 25) _ _ (put_lt (k := 20) _ _ (put_lt (k :=
      16) _ _ (put_lt (k := 12) _ _ (putBit_lt (k := 11) _ _ (put_lt (k := 7) _ _ (put_lt (k := 4) _ _
      (cond.isLt)))))))))
  | reg _ _ _ =>
    exact put_lt (k := 28) _ _ (put_lt (k := 27) _ _ (put_lt (k := 25) _ _ (put_lt (k := 24) _ _ (put_lt (k :=
      20) _ _ (put_lt (k := 16) _ _ (put_lt (k := 12) _ _ (putBit_lt (k := 11) _ _ (put_lt (k := 7) _ _ (put_lt
      (k := 4) _ _ (cond.isLt))))))))))

theorem EncodesInWidth.clz (cond : BitVec 4) (rd : BitVec 4) (rm : BitVec 4) :
    EncodesInWidth.Statement (.clz cond rd rm) :=
  put_lt (k := 28) _ _ (put_lt (k := 24) _ _ (put_lt (k := 20) _ _ (put_lt (k := 16) _ _ (put_lt (k := 12) _ _
    (put_lt (k := 11) _ _ (put_lt (k := 7) _ _ (put_lt (k := 4) _ _ (cond.isLt))))))))

theorem EncodesInWidth.mul (cond : BitVec 4) (sf : Bool) (rd : BitVec 4) (rs : BitVec 4) (rm : BitVec 4) :
    EncodesInWidth.Statement (.mul cond sf rd rs rm) :=
  put_lt (k := 28) _ _ (put_lt (k := 27) _ _ (put_lt (k := 26) _ _ (put_lt (k := 25) _ _ (put_lt (k := 24) _ _
    (put_lt (k := 20) _ _ (put_lt (k := 16) _ _ (put_lt (k := 12) _ _ (putBit_lt (k := 11) _ _ (put_lt (k := 7)
    _ _ (put_lt (k := 4) _ _ (cond.isLt)))))))))))

theorem EncodesInWidth.mla (cond : BitVec 4) (sf : Bool) (rd : BitVec 4) (rn : BitVec 4) (rs : BitVec 4) (rm : BitVec 4) :
    EncodesInWidth.Statement (.mla cond sf rd rn rs rm) :=
  put_lt (k := 28) _ _ (put_lt (k := 27) _ _ (put_lt (k := 26) _ _ (put_lt (k := 25) _ _ (put_lt (k := 24) _ _
    (put_lt (k := 20) _ _ (put_lt (k := 16) _ _ (put_lt (k := 12) _ _ (putBit_lt (k := 11) _ _ (put_lt (k := 7)
    _ _ (put_lt (k := 4) _ _ (cond.isLt)))))))))))

theorem EncodesInWidth.umull (cond : BitVec 4) (sf : Bool) (rdHi : BitVec 4) (rdLo : BitVec 4) (rs : BitVec 4) (rm : BitVec 4) :
    EncodesInWidth.Statement (.umull cond sf rdHi rdLo rs rm) :=
  put_lt (k := 28) _ _ (put_lt (k := 27) _ _ (put_lt (k := 26) _ _ (put_lt (k := 25) _ _ (put_lt (k := 24) _ _
    (put_lt (k := 20) _ _ (put_lt (k := 16) _ _ (put_lt (k := 12) _ _ (putBit_lt (k := 11) _ _ (put_lt (k := 7)
    _ _ (put_lt (k := 4) _ _ (cond.isLt)))))))))))

theorem EncodesInWidth.umlal (cond : BitVec 4) (sf : Bool) (rdHi : BitVec 4) (rdLo : BitVec 4) (rs : BitVec 4) (rm : BitVec 4) :
    EncodesInWidth.Statement (.umlal cond sf rdHi rdLo rs rm) :=
  put_lt (k := 28) _ _ (put_lt (k := 27) _ _ (put_lt (k := 26) _ _ (put_lt (k := 25) _ _ (put_lt (k := 24) _ _
    (put_lt (k := 20) _ _ (put_lt (k := 16) _ _ (put_lt (k := 12) _ _ (putBit_lt (k := 11) _ _ (put_lt (k := 7)
    _ _ (put_lt (k := 4) _ _ (cond.isLt)))))))))))

theorem EncodesInWidth.smull (cond : BitVec 4) (sf : Bool) (rdHi : BitVec 4) (rdLo : BitVec 4) (rs : BitVec 4) (rm : BitVec 4) :
    EncodesInWidth.Statement (.smull cond sf rdHi rdLo rs rm) :=
  put_lt (k := 28) _ _ (put_lt (k := 27) _ _ (put_lt (k := 26) _ _ (put_lt (k := 25) _ _ (put_lt (k := 24) _ _
    (put_lt (k := 20) _ _ (put_lt (k := 16) _ _ (put_lt (k := 12) _ _ (putBit_lt (k := 11) _ _ (put_lt (k := 7)
    _ _ (put_lt (k := 4) _ _ (cond.isLt)))))))))))

theorem EncodesInWidth.smlal (cond : BitVec 4) (sf : Bool) (rdHi : BitVec 4) (rdLo : BitVec 4) (rs : BitVec 4) (rm : BitVec 4) :
    EncodesInWidth.Statement (.smlal cond sf rdHi rdLo rs rm) :=
  put_lt (k := 28) _ _ (put_lt (k := 27) _ _ (put_lt (k := 26) _ _ (put_lt (k := 25) _ _ (put_lt (k := 24) _ _
    (put_lt (k := 20) _ _ (put_lt (k := 16) _ _ (put_lt (k := 12) _ _ (putBit_lt (k := 11) _ _ (put_lt (k := 7)
    _ _ (put_lt (k := 4) _ _ (cond.isLt)))))))))))

theorem EncodesInWidth.smulXY (cond : BitVec 4) (rd : BitVec 4) (rs : BitVec 4) (y : Bool) (x : Bool) (rm : BitVec 4) :
    EncodesInWidth.Statement (.smulXY cond rd rs y x rm) :=
  put_lt (k := 28) _ _ (put_lt (k := 27) _ _ (putBit_lt (k := 26) _ _ (putBit_lt (k := 25) _ _ (put_lt (k := 24)
    _ _ (put_lt (k := 20) _ _ (put_lt (k := 16) _ _ (put_lt (k := 12) _ _ (put_lt (k := 11) _ _ (put_lt (k := 7)
    _ _ (put_lt (k := 4) _ _ (cond.isLt)))))))))))

theorem EncodesInWidth.smulWY (cond : BitVec 4) (rd : BitVec 4) (rs : BitVec 4) (y : Bool) (rm : BitVec 4) :
    EncodesInWidth.Statement (.smulWY cond rd rs y rm) :=
  put_lt (k := 28) _ _ (put_lt (k := 27) _ _ (put_lt (k := 26) _ _ (putBit_lt (k := 25) _ _ (put_lt (k := 24) _
    _ (put_lt (k := 20) _ _ (put_lt (k := 16) _ _ (put_lt (k := 12) _ _ (put_lt (k := 11) _ _ (put_lt (k := 7) _
    _ (put_lt (k := 4) _ _ (cond.isLt)))))))))))

theorem EncodesInWidth.smlaXY (cond : BitVec 4) (rd : BitVec 4) (rn : BitVec 4) (rs : BitVec 4) (y : Bool) (x : Bool) (rm : BitVec 4) :
    EncodesInWidth.Statement (.smlaXY cond rd rn rs y x rm) :=
  put_lt (k := 28) _ _ (put_lt (k := 27) _ _ (putBit_lt (k := 26) _ _ (putBit_lt (k := 25) _ _ (put_lt (k := 24)
    _ _ (put_lt (k := 20) _ _ (put_lt (k := 16) _ _ (put_lt (k := 12) _ _ (put_lt (k := 11) _ _ (put_lt (k := 7)
    _ _ (put_lt (k := 4) _ _ (cond.isLt)))))))))))

theorem EncodesInWidth.smlaWY (cond : BitVec 4) (rd : BitVec 4) (rn : BitVec 4) (rs : BitVec 4) (y : Bool) (rm : BitVec 4) :
    EncodesInWidth.Statement (.smlaWY cond rd rn rs y rm) :=
  put_lt (k := 28) _ _ (put_lt (k := 27) _ _ (put_lt (k := 26) _ _ (putBit_lt (k := 25) _ _ (put_lt (k := 24) _
    _ (put_lt (k := 20) _ _ (put_lt (k := 16) _ _ (put_lt (k := 12) _ _ (put_lt (k := 11) _ _ (put_lt (k := 7) _
    _ (put_lt (k := 4) _ _ (cond.isLt)))))))))))

theorem EncodesInWidth.smlalXY (cond : BitVec 4) (rdHi : BitVec 4) (rdLo : BitVec 4) (rs : BitVec 4) (y : Bool) (x : Bool) (rm : BitVec 4) :
    EncodesInWidth.Statement (.smlalXY cond rdHi rdLo rs y x rm) :=
  put_lt (k := 28) _ _ (put_lt (k := 27) _ _ (putBit_lt (k := 26) _ _ (putBit_lt (k := 25) _ _ (put_lt (k := 24)
    _ _ (put_lt (k := 20) _ _ (put_lt (k := 16) _ _ (put_lt (k := 12) _ _ (put_lt (k := 11) _ _ (put_lt (k := 7)
    _ _ (put_lt (k := 4) _ _ (cond.isLt)))))))))))

theorem EncodesInWidth.qadd (cond : BitVec 4) (rn : BitVec 4) (rd : BitVec 4) (rm : BitVec 4) :
    EncodesInWidth.Statement (.qadd cond rn rd rm) :=
  put_lt (k := 28) _ _ (put_lt (k := 24) _ _ (put_lt (k := 20) _ _ (put_lt (k := 16) _ _ (put_lt (k := 12) _ _
    (put_lt (k := 11) _ _ (put_lt (k := 7) _ _ (put_lt (k := 4) _ _ (cond.isLt))))))))

theorem EncodesInWidth.qsub (cond : BitVec 4) (rn : BitVec 4) (rd : BitVec 4) (rm : BitVec 4) :
    EncodesInWidth.Statement (.qsub cond rn rd rm) :=
  put_lt (k := 28) _ _ (put_lt (k := 24) _ _ (put_lt (k := 20) _ _ (put_lt (k := 16) _ _ (put_lt (k := 12) _ _
    (put_lt (k := 11) _ _ (put_lt (k := 7) _ _ (put_lt (k := 4) _ _ (cond.isLt))))))))

theorem EncodesInWidth.qdadd (cond : BitVec 4) (rn : BitVec 4) (rd : BitVec 4) (rm : BitVec 4) :
    EncodesInWidth.Statement (.qdadd cond rn rd rm) :=
  put_lt (k := 28) _ _ (put_lt (k := 24) _ _ (put_lt (k := 20) _ _ (put_lt (k := 16) _ _ (put_lt (k := 12) _ _
    (put_lt (k := 11) _ _ (put_lt (k := 7) _ _ (put_lt (k := 4) _ _ (cond.isLt))))))))

theorem EncodesInWidth.qdsub (cond : BitVec 4) (rn : BitVec 4) (rd : BitVec 4) (rm : BitVec 4) :
    EncodesInWidth.Statement (.qdsub cond rn rd rm) :=
  put_lt (k := 28) _ _ (put_lt (k := 24) _ _ (put_lt (k := 20) _ _ (put_lt (k := 16) _ _ (put_lt (k := 12) _ _
    (put_lt (k := 11) _ _ (put_lt (k := 7) _ _ (put_lt (k := 4) _ _ (cond.isLt))))))))

theorem EncodesInWidth.ldr (cond : BitVec 4) (rn : BitVec 4) (rd : BitVec 4) (am : Mode2) :
    EncodesInWidth.Statement (.ldr cond rn rd am) := by
  cases am with
  | imm _ _ _ =>
    exact put_lt (k := 20) _ _ (put_lt (k := 16) _ _ (put_lt (k := 12) _ _ (put_lt (k := 11) _ _ (putBit_lt (k
      := 10) _ _ (put_lt (k := 9) _ _ (putBit_lt (k := 8) _ _ (put_lt (k := 7) _ _ (put_lt (k := 4) _ _
      (cond.isLt)))))))))
  | immPost _ _ =>
    exact put_lt (k := 20) _ _ (put_lt (k := 16) _ _ (put_lt (k := 12) _ _ (put_lt (k := 11) _ _ (put_lt (k :=
      10) _ _ (put_lt (k := 9) _ _ (putBit_lt (k := 8) _ _ (put_lt (k := 7) _ _ (put_lt (k := 4) _ _
      (cond.isLt)))))))))
  | reg _ _ _ _ _ =>
    exact put_lt (k := 28) _ _ (put_lt (k := 27) _ _ (put_lt (k := 25) _ _ (put_lt (k := 20) _ _ (put_lt (k :=
      16) _ _ (put_lt (k := 12) _ _ (put_lt (k := 11) _ _ (putBit_lt (k := 10) _ _ (put_lt (k := 9) _ _
      (putBit_lt (k := 8) _ _ (put_lt (k := 7) _ _ (put_lt (k := 4) _ _ (cond.isLt))))))))))))
  | regPost _ _ _ _ =>
    exact put_lt (k := 28) _ _ (put_lt (k := 27) _ _ (put_lt (k := 25) _ _ (put_lt (k := 20) _ _ (put_lt (k :=
      16) _ _ (put_lt (k := 12) _ _ (put_lt (k := 11) _ _ (put_lt (k := 10) _ _ (put_lt (k := 9) _ _ (putBit_lt
      (k := 8) _ _ (put_lt (k := 7) _ _ (put_lt (k := 4) _ _ (cond.isLt))))))))))))

theorem EncodesInWidth.str (cond : BitVec 4) (rn : BitVec 4) (rd : BitVec 4) (am : Mode2) :
    EncodesInWidth.Statement (.str cond rn rd am) := by
  cases am with
  | imm _ _ _ =>
    exact put_lt (k := 20) _ _ (put_lt (k := 16) _ _ (put_lt (k := 12) _ _ (put_lt (k := 11) _ _ (putBit_lt (k
      := 10) _ _ (put_lt (k := 9) _ _ (putBit_lt (k := 8) _ _ (put_lt (k := 7) _ _ (put_lt (k := 4) _ _
      (cond.isLt)))))))))
  | immPost _ _ =>
    exact put_lt (k := 20) _ _ (put_lt (k := 16) _ _ (put_lt (k := 12) _ _ (put_lt (k := 11) _ _ (put_lt (k :=
      10) _ _ (put_lt (k := 9) _ _ (putBit_lt (k := 8) _ _ (put_lt (k := 7) _ _ (put_lt (k := 4) _ _
      (cond.isLt)))))))))
  | reg _ _ _ _ _ =>
    exact put_lt (k := 28) _ _ (put_lt (k := 27) _ _ (put_lt (k := 25) _ _ (put_lt (k := 20) _ _ (put_lt (k :=
      16) _ _ (put_lt (k := 12) _ _ (put_lt (k := 11) _ _ (putBit_lt (k := 10) _ _ (put_lt (k := 9) _ _
      (putBit_lt (k := 8) _ _ (put_lt (k := 7) _ _ (put_lt (k := 4) _ _ (cond.isLt))))))))))))
  | regPost _ _ _ _ =>
    exact put_lt (k := 28) _ _ (put_lt (k := 27) _ _ (put_lt (k := 25) _ _ (put_lt (k := 20) _ _ (put_lt (k :=
      16) _ _ (put_lt (k := 12) _ _ (put_lt (k := 11) _ _ (put_lt (k := 10) _ _ (put_lt (k := 9) _ _ (putBit_lt
      (k := 8) _ _ (put_lt (k := 7) _ _ (put_lt (k := 4) _ _ (cond.isLt))))))))))))

theorem EncodesInWidth.ldrb (cond : BitVec 4) (rn : BitVec 4) (rd : BitVec 4) (am : Mode2) :
    EncodesInWidth.Statement (.ldrb cond rn rd am) := by
  cases am with
  | imm _ _ _ =>
    exact put_lt (k := 20) _ _ (put_lt (k := 16) _ _ (put_lt (k := 12) _ _ (put_lt (k := 11) _ _ (putBit_lt (k
      := 10) _ _ (put_lt (k := 9) _ _ (putBit_lt (k := 8) _ _ (put_lt (k := 7) _ _ (put_lt (k := 4) _ _
      (cond.isLt)))))))))
  | immPost _ _ =>
    exact put_lt (k := 20) _ _ (put_lt (k := 16) _ _ (put_lt (k := 12) _ _ (put_lt (k := 11) _ _ (put_lt (k :=
      10) _ _ (put_lt (k := 9) _ _ (putBit_lt (k := 8) _ _ (put_lt (k := 7) _ _ (put_lt (k := 4) _ _
      (cond.isLt)))))))))
  | reg _ _ _ _ _ =>
    exact put_lt (k := 28) _ _ (put_lt (k := 27) _ _ (put_lt (k := 25) _ _ (put_lt (k := 20) _ _ (put_lt (k :=
      16) _ _ (put_lt (k := 12) _ _ (put_lt (k := 11) _ _ (putBit_lt (k := 10) _ _ (put_lt (k := 9) _ _
      (putBit_lt (k := 8) _ _ (put_lt (k := 7) _ _ (put_lt (k := 4) _ _ (cond.isLt))))))))))))
  | regPost _ _ _ _ =>
    exact put_lt (k := 28) _ _ (put_lt (k := 27) _ _ (put_lt (k := 25) _ _ (put_lt (k := 20) _ _ (put_lt (k :=
      16) _ _ (put_lt (k := 12) _ _ (put_lt (k := 11) _ _ (put_lt (k := 10) _ _ (put_lt (k := 9) _ _ (putBit_lt
      (k := 8) _ _ (put_lt (k := 7) _ _ (put_lt (k := 4) _ _ (cond.isLt))))))))))))

theorem EncodesInWidth.strb (cond : BitVec 4) (rn : BitVec 4) (rd : BitVec 4) (am : Mode2) :
    EncodesInWidth.Statement (.strb cond rn rd am) := by
  cases am with
  | imm _ _ _ =>
    exact put_lt (k := 20) _ _ (put_lt (k := 16) _ _ (put_lt (k := 12) _ _ (put_lt (k := 11) _ _ (putBit_lt (k
      := 10) _ _ (put_lt (k := 9) _ _ (putBit_lt (k := 8) _ _ (put_lt (k := 7) _ _ (put_lt (k := 4) _ _
      (cond.isLt)))))))))
  | immPost _ _ =>
    exact put_lt (k := 20) _ _ (put_lt (k := 16) _ _ (put_lt (k := 12) _ _ (put_lt (k := 11) _ _ (put_lt (k :=
      10) _ _ (put_lt (k := 9) _ _ (putBit_lt (k := 8) _ _ (put_lt (k := 7) _ _ (put_lt (k := 4) _ _
      (cond.isLt)))))))))
  | reg _ _ _ _ _ =>
    exact put_lt (k := 28) _ _ (put_lt (k := 27) _ _ (put_lt (k := 25) _ _ (put_lt (k := 20) _ _ (put_lt (k :=
      16) _ _ (put_lt (k := 12) _ _ (put_lt (k := 11) _ _ (putBit_lt (k := 10) _ _ (put_lt (k := 9) _ _
      (putBit_lt (k := 8) _ _ (put_lt (k := 7) _ _ (put_lt (k := 4) _ _ (cond.isLt))))))))))))
  | regPost _ _ _ _ =>
    exact put_lt (k := 28) _ _ (put_lt (k := 27) _ _ (put_lt (k := 25) _ _ (put_lt (k := 20) _ _ (put_lt (k :=
      16) _ _ (put_lt (k := 12) _ _ (put_lt (k := 11) _ _ (put_lt (k := 10) _ _ (put_lt (k := 9) _ _ (putBit_lt
      (k := 8) _ _ (put_lt (k := 7) _ _ (put_lt (k := 4) _ _ (cond.isLt))))))))))))

theorem EncodesInWidth.ldrt (cond : BitVec 4) (rn : BitVec 4) (rd : BitVec 4) (off : Offset2) :
    EncodesInWidth.Statement (.ldrt cond rn rd off) := by
  cases off with
  | imm _ _ =>
    exact put_lt (k := 20) _ _ (put_lt (k := 16) _ _ (put_lt (k := 12) _ _ (put_lt (k := 11) _ _ (put_lt (k :=
      10) _ _ (put_lt (k := 9) _ _ (putBit_lt (k := 8) _ _ (put_lt (k := 7) _ _ (put_lt (k := 4) _ _
      (cond.isLt)))))))))
  | reg _ _ _ _ =>
    exact put_lt (k := 28) _ _ (put_lt (k := 27) _ _ (put_lt (k := 25) _ _ (put_lt (k := 20) _ _ (put_lt (k :=
      16) _ _ (put_lt (k := 12) _ _ (put_lt (k := 11) _ _ (put_lt (k := 10) _ _ (put_lt (k := 9) _ _ (putBit_lt
      (k := 8) _ _ (put_lt (k := 7) _ _ (put_lt (k := 4) _ _ (cond.isLt))))))))))))

theorem EncodesInWidth.ldrbt (cond : BitVec 4) (rn : BitVec 4) (rd : BitVec 4) (off : Offset2) :
    EncodesInWidth.Statement (.ldrbt cond rn rd off) := by
  cases off with
  | imm _ _ =>
    exact put_lt (k := 20) _ _ (put_lt (k := 16) _ _ (put_lt (k := 12) _ _ (put_lt (k := 11) _ _ (put_lt (k :=
      10) _ _ (put_lt (k := 9) _ _ (putBit_lt (k := 8) _ _ (put_lt (k := 7) _ _ (put_lt (k := 4) _ _
      (cond.isLt)))))))))
  | reg _ _ _ _ =>
    exact put_lt (k := 28) _ _ (put_lt (k := 27) _ _ (put_lt (k := 25) _ _ (put_lt (k := 20) _ _ (put_lt (k :=
      16) _ _ (put_lt (k := 12) _ _ (put_lt (k := 11) _ _ (put_lt (k := 10) _ _ (put_lt (k := 9) _ _ (putBit_lt
      (k := 8) _ _ (put_lt (k := 7) _ _ (put_lt (k := 4) _ _ (cond.isLt))))))))))))

theorem EncodesInWidth.strt (cond : BitVec 4) (rn : BitVec 4) (rd : BitVec 4) (off : Offset2) :
    EncodesInWidth.Statement (.strt cond rn rd off) := by
  cases off with
  | imm _ _ =>
    exact put_lt (k := 20) _ _ (put_lt (k := 16) _ _ (put_lt (k := 12) _ _ (put_lt (k := 11) _ _ (put_lt (k :=
      10) _ _ (put_lt (k := 9) _ _ (putBit_lt (k := 8) _ _ (put_lt (k := 7) _ _ (put_lt (k := 4) _ _
      (cond.isLt)))))))))
  | reg _ _ _ _ =>
    exact put_lt (k := 28) _ _ (put_lt (k := 27) _ _ (put_lt (k := 25) _ _ (put_lt (k := 20) _ _ (put_lt (k :=
      16) _ _ (put_lt (k := 12) _ _ (put_lt (k := 11) _ _ (put_lt (k := 10) _ _ (put_lt (k := 9) _ _ (putBit_lt
      (k := 8) _ _ (put_lt (k := 7) _ _ (put_lt (k := 4) _ _ (cond.isLt))))))))))))

theorem EncodesInWidth.strbt (cond : BitVec 4) (rn : BitVec 4) (rd : BitVec 4) (off : Offset2) :
    EncodesInWidth.Statement (.strbt cond rn rd off) := by
  cases off with
  | imm _ _ =>
    exact put_lt (k := 20) _ _ (put_lt (k := 16) _ _ (put_lt (k := 12) _ _ (put_lt (k := 11) _ _ (put_lt (k :=
      10) _ _ (put_lt (k := 9) _ _ (putBit_lt (k := 8) _ _ (put_lt (k := 7) _ _ (put_lt (k := 4) _ _
      (cond.isLt)))))))))
  | reg _ _ _ _ =>
    exact put_lt (k := 28) _ _ (put_lt (k := 27) _ _ (put_lt (k := 25) _ _ (put_lt (k := 20) _ _ (put_lt (k :=
      16) _ _ (put_lt (k := 12) _ _ (put_lt (k := 11) _ _ (put_lt (k := 10) _ _ (put_lt (k := 9) _ _ (putBit_lt
      (k := 8) _ _ (put_lt (k := 7) _ _ (put_lt (k := 4) _ _ (cond.isLt))))))))))))

theorem EncodesInWidth.strh (cond : BitVec 4) (p : Bool) (u : Bool) (w : Bool) (rn : BitVec 4) (rd : BitVec 4) (off : Offset3) :
    EncodesInWidth.Statement (.strh cond p u w rn rd off) := by
  cases off with
  | imm _ _ =>
    exact put_lt (k := 28) _ _ (put_lt (k := 27) _ _ (put_lt (k := 26) _ _ (put_lt (k := 25) _ _ (put_lt (k :=
      24) _ _ (put_lt (k := 20) _ _ (put_lt (k := 16) _ _ (put_lt (k := 12) _ _ (put_lt (k := 11) _ _ (putBit_lt
      (k := 10) _ _ (put_lt (k := 9) _ _ (putBit_lt (k := 8) _ _ (putBit_lt (k := 7) _ _ (put_lt (k := 4) _ _
      (cond.isLt))))))))))))))
  | reg _ =>
    exact put_lt (k := 28) _ _ (put_lt (k := 27) _ _ (put_lt (k := 26) _ _ (put_lt (k := 25) _ _ (put_lt (k :=
      24) _ _ (put_lt (k := 20) _ _ (put_lt (k := 16) _ _ (put_lt (k := 12) _ _ (put_lt (k := 11) _ _ (putBit_lt
      (k := 10) _ _ (put_lt (k := 9) _ _ (putBit_lt (k := 8) _ _ (putBit_lt (k := 7) _ _ (put_lt (k := 4) _ _
      (cond.isLt))))))))))))))

theorem EncodesInWidth.ldrh (cond : BitVec 4) (p : Bool) (u : Bool) (w : Bool) (rn : BitVec 4) (rd : BitVec 4) (off : Offset3) :
    EncodesInWidth.Statement (.ldrh cond p u w rn rd off) := by
  cases off with
  | imm _ _ =>
    exact put_lt (k := 28) _ _ (put_lt (k := 27) _ _ (put_lt (k := 26) _ _ (put_lt (k := 25) _ _ (put_lt (k :=
      24) _ _ (put_lt (k := 20) _ _ (put_lt (k := 16) _ _ (put_lt (k := 12) _ _ (put_lt (k := 11) _ _ (putBit_lt
      (k := 10) _ _ (put_lt (k := 9) _ _ (putBit_lt (k := 8) _ _ (putBit_lt (k := 7) _ _ (put_lt (k := 4) _ _
      (cond.isLt))))))))))))))
  | reg _ =>
    exact put_lt (k := 28) _ _ (put_lt (k := 27) _ _ (put_lt (k := 26) _ _ (put_lt (k := 25) _ _ (put_lt (k :=
      24) _ _ (put_lt (k := 20) _ _ (put_lt (k := 16) _ _ (put_lt (k := 12) _ _ (put_lt (k := 11) _ _ (putBit_lt
      (k := 10) _ _ (put_lt (k := 9) _ _ (putBit_lt (k := 8) _ _ (putBit_lt (k := 7) _ _ (put_lt (k := 4) _ _
      (cond.isLt))))))))))))))

theorem EncodesInWidth.ldrsb (cond : BitVec 4) (p : Bool) (u : Bool) (w : Bool) (rn : BitVec 4) (rd : BitVec 4) (off : Offset3) :
    EncodesInWidth.Statement (.ldrsb cond p u w rn rd off) := by
  cases off with
  | imm _ _ =>
    exact put_lt (k := 28) _ _ (put_lt (k := 27) _ _ (put_lt (k := 26) _ _ (put_lt (k := 25) _ _ (put_lt (k :=
      24) _ _ (put_lt (k := 20) _ _ (put_lt (k := 16) _ _ (put_lt (k := 12) _ _ (put_lt (k := 11) _ _ (putBit_lt
      (k := 10) _ _ (put_lt (k := 9) _ _ (putBit_lt (k := 8) _ _ (putBit_lt (k := 7) _ _ (put_lt (k := 4) _ _
      (cond.isLt))))))))))))))
  | reg _ =>
    exact put_lt (k := 28) _ _ (put_lt (k := 27) _ _ (put_lt (k := 26) _ _ (put_lt (k := 25) _ _ (put_lt (k :=
      24) _ _ (put_lt (k := 20) _ _ (put_lt (k := 16) _ _ (put_lt (k := 12) _ _ (put_lt (k := 11) _ _ (putBit_lt
      (k := 10) _ _ (put_lt (k := 9) _ _ (putBit_lt (k := 8) _ _ (putBit_lt (k := 7) _ _ (put_lt (k := 4) _ _
      (cond.isLt))))))))))))))

theorem EncodesInWidth.ldrsh (cond : BitVec 4) (p : Bool) (u : Bool) (w : Bool) (rn : BitVec 4) (rd : BitVec 4) (off : Offset3) :
    EncodesInWidth.Statement (.ldrsh cond p u w rn rd off) := by
  cases off with
  | imm _ _ =>
    exact put_lt (k := 28) _ _ (put_lt (k := 27) _ _ (put_lt (k := 26) _ _ (put_lt (k := 25) _ _ (put_lt (k :=
      24) _ _ (put_lt (k := 20) _ _ (put_lt (k := 16) _ _ (put_lt (k := 12) _ _ (put_lt (k := 11) _ _ (putBit_lt
      (k := 10) _ _ (put_lt (k := 9) _ _ (putBit_lt (k := 8) _ _ (putBit_lt (k := 7) _ _ (put_lt (k := 4) _ _
      (cond.isLt))))))))))))))
  | reg _ =>
    exact put_lt (k := 28) _ _ (put_lt (k := 27) _ _ (put_lt (k := 26) _ _ (put_lt (k := 25) _ _ (put_lt (k :=
      24) _ _ (put_lt (k := 20) _ _ (put_lt (k := 16) _ _ (put_lt (k := 12) _ _ (put_lt (k := 11) _ _ (putBit_lt
      (k := 10) _ _ (put_lt (k := 9) _ _ (putBit_lt (k := 8) _ _ (putBit_lt (k := 7) _ _ (put_lt (k := 4) _ _
      (cond.isLt))))))))))))))

theorem EncodesInWidth.ldrd (cond : BitVec 4) (p : Bool) (u : Bool) (w : Bool) (rn : BitVec 4) (rd : BitVec 4) (off : Offset3) :
    EncodesInWidth.Statement (.ldrd cond p u w rn rd off) := by
  cases off with
  | imm _ _ =>
    exact put_lt (k := 28) _ _ (put_lt (k := 27) _ _ (put_lt (k := 26) _ _ (put_lt (k := 25) _ _ (put_lt (k :=
      24) _ _ (put_lt (k := 20) _ _ (put_lt (k := 16) _ _ (put_lt (k := 12) _ _ (put_lt (k := 11) _ _ (putBit_lt
      (k := 10) _ _ (put_lt (k := 9) _ _ (putBit_lt (k := 8) _ _ (putBit_lt (k := 7) _ _ (put_lt (k := 4) _ _
      (cond.isLt))))))))))))))
  | reg _ =>
    exact put_lt (k := 28) _ _ (put_lt (k := 27) _ _ (put_lt (k := 26) _ _ (put_lt (k := 25) _ _ (put_lt (k :=
      24) _ _ (put_lt (k := 20) _ _ (put_lt (k := 16) _ _ (put_lt (k := 12) _ _ (put_lt (k := 11) _ _ (putBit_lt
      (k := 10) _ _ (put_lt (k := 9) _ _ (putBit_lt (k := 8) _ _ (putBit_lt (k := 7) _ _ (put_lt (k := 4) _ _
      (cond.isLt))))))))))))))

theorem EncodesInWidth.strd (cond : BitVec 4) (p : Bool) (u : Bool) (w : Bool) (rn : BitVec 4) (rd : BitVec 4) (off : Offset3) :
    EncodesInWidth.Statement (.strd cond p u w rn rd off) := by
  cases off with
  | imm _ _ =>
    exact put_lt (k := 28) _ _ (put_lt (k := 27) _ _ (put_lt (k := 26) _ _ (put_lt (k := 25) _ _ (put_lt (k :=
      24) _ _ (put_lt (k := 20) _ _ (put_lt (k := 16) _ _ (put_lt (k := 12) _ _ (put_lt (k := 11) _ _ (putBit_lt
      (k := 10) _ _ (put_lt (k := 9) _ _ (putBit_lt (k := 8) _ _ (putBit_lt (k := 7) _ _ (put_lt (k := 4) _ _
      (cond.isLt))))))))))))))
  | reg _ =>
    exact put_lt (k := 28) _ _ (put_lt (k := 27) _ _ (put_lt (k := 26) _ _ (put_lt (k := 25) _ _ (put_lt (k :=
      24) _ _ (put_lt (k := 20) _ _ (put_lt (k := 16) _ _ (put_lt (k := 12) _ _ (put_lt (k := 11) _ _ (putBit_lt
      (k := 10) _ _ (put_lt (k := 9) _ _ (putBit_lt (k := 8) _ _ (putBit_lt (k := 7) _ _ (put_lt (k := 4) _ _
      (cond.isLt))))))))))))))

theorem EncodesInWidth.ldm1 (cond : BitVec 4) (p : Bool) (u : Bool) (w : Bool) (rn : BitVec 4) (list : BitVec 16) :
    EncodesInWidth.Statement (.ldm1 cond p u w rn list) :=
  put_lt (k := 16) _ _ (put_lt (k := 12) _ _ (put_lt (k := 11) _ _ (putBit_lt (k := 10) _ _ (put_lt (k := 9) _ _
    (putBit_lt (k := 8) _ _ (putBit_lt (k := 7) _ _ (put_lt (k := 4) _ _ (cond.isLt))))))))

theorem EncodesInWidth.ldm2 (cond : BitVec 4) (p : Bool) (u : Bool) (w : Bool) (rn : BitVec 4) (list : BitVec 15) :
    EncodesInWidth.Statement (.ldm2 cond p u w rn list) :=
  put_lt (k := 17) _ _ (put_lt (k := 16) _ _ (put_lt (k := 12) _ _ (put_lt (k := 11) _ _ (putBit_lt (k := 10) _
    _ (put_lt (k := 9) _ _ (putBit_lt (k := 8) _ _ (putBit_lt (k := 7) _ _ (put_lt (k := 4) _ _
    (cond.isLt)))))))))

theorem EncodesInWidth.ldm3 (cond : BitVec 4) (p : Bool) (u : Bool) (w : Bool) (rn : BitVec 4) (list : BitVec 15) :
    EncodesInWidth.Statement (.ldm3 cond p u w rn list) :=
  put_lt (k := 17) _ _ (put_lt (k := 16) _ _ (put_lt (k := 12) _ _ (put_lt (k := 11) _ _ (putBit_lt (k := 10) _
    _ (put_lt (k := 9) _ _ (putBit_lt (k := 8) _ _ (putBit_lt (k := 7) _ _ (put_lt (k := 4) _ _
    (cond.isLt)))))))))

theorem EncodesInWidth.stm1 (cond : BitVec 4) (p : Bool) (u : Bool) (w : Bool) (rn : BitVec 4) (list : BitVec 16) :
    EncodesInWidth.Statement (.stm1 cond p u w rn list) :=
  put_lt (k := 16) _ _ (put_lt (k := 12) _ _ (put_lt (k := 11) _ _ (putBit_lt (k := 10) _ _ (put_lt (k := 9) _ _
    (putBit_lt (k := 8) _ _ (putBit_lt (k := 7) _ _ (put_lt (k := 4) _ _ (cond.isLt))))))))

theorem EncodesInWidth.stm2 (cond : BitVec 4) (p : Bool) (u : Bool) (w : Bool) (rn : BitVec 4) (list : BitVec 16) :
    EncodesInWidth.Statement (.stm2 cond p u w rn list) :=
  put_lt (k := 16) _ _ (put_lt (k := 12) _ _ (put_lt (k := 11) _ _ (putBit_lt (k := 10) _ _ (put_lt (k := 9) _ _
    (putBit_lt (k := 8) _ _ (putBit_lt (k := 7) _ _ (put_lt (k := 4) _ _ (cond.isLt))))))))

theorem EncodesInWidth.swp (cond : BitVec 4) (rn : BitVec 4) (rd : BitVec 4) (rm : BitVec 4) :
    EncodesInWidth.Statement (.swp cond rn rd rm) :=
  put_lt (k := 28) _ _ (put_lt (k := 27) _ _ (put_lt (k := 26) _ _ (put_lt (k := 25) _ _ (put_lt (k := 24) _ _
    (put_lt (k := 20) _ _ (put_lt (k := 16) _ _ (put_lt (k := 12) _ _ (put_lt (k := 11) _ _ (put_lt (k := 7) _ _
    (put_lt (k := 4) _ _ (cond.isLt)))))))))))

theorem EncodesInWidth.swpb (cond : BitVec 4) (rn : BitVec 4) (rd : BitVec 4) (rm : BitVec 4) :
    EncodesInWidth.Statement (.swpb cond rn rd rm) :=
  put_lt (k := 28) _ _ (put_lt (k := 27) _ _ (put_lt (k := 26) _ _ (put_lt (k := 25) _ _ (put_lt (k := 24) _ _
    (put_lt (k := 20) _ _ (put_lt (k := 16) _ _ (put_lt (k := 12) _ _ (put_lt (k := 11) _ _ (put_lt (k := 7) _ _
    (put_lt (k := 4) _ _ (cond.isLt)))))))))))

theorem EncodesInWidth.pldImm (u : Bool) (rn : BitVec 4) (off12 : BitVec 12) :
    EncodesInWidth.Statement (.pldImm u rn off12) :=
  put_lt (k := 20) _ _ (put_lt (k := 16) _ _ (put_lt (k := 12) _ _ (put_lt (k := 11) _ _ (put_lt (k := 10) _ _
    (put_lt (k := 9) _ _ (putBit_lt (k := 8) _ _ (put_lt (k := 7) _ _ (put_lt (k := 4) _ _ ((by decide : 15 < 2
    ^ 4))))))))))

theorem EncodesInWidth.pldReg (u : Bool) (rn : BitVec 4) (amt : BitVec 5) (sh : BitVec 2) (rm : BitVec 4) :
    EncodesInWidth.Statement (.pldReg u rn amt sh rm) :=
  put_lt (k := 28) _ _ (put_lt (k := 27) _ _ (put_lt (k := 25) _ _ (put_lt (k := 20) _ _ (put_lt (k := 16) _ _
    (put_lt (k := 12) _ _ (put_lt (k := 11) _ _ (put_lt (k := 10) _ _ (put_lt (k := 9) _ _ (putBit_lt (k := 8) _
    _ (put_lt (k := 7) _ _ (put_lt (k := 4) _ _ ((by decide : 15 < 2 ^ 4)))))))))))))

theorem EncodesInWidth.b (cond : BitVec 4) (imm24 : BitVec 24) :
    EncodesInWidth.Statement (.b cond imm24) :=
  put_lt (k := 8) _ _ (put_lt (k := 7) _ _ (put_lt (k := 4) _ _ (cond.isLt)))

theorem EncodesInWidth.bl (cond : BitVec 4) (imm24 : BitVec 24) :
    EncodesInWidth.Statement (.bl cond imm24) :=
  put_lt (k := 8) _ _ (put_lt (k := 7) _ _ (put_lt (k := 4) _ _ (cond.isLt)))

theorem EncodesInWidth.blx1 (h : Bool) (imm24 : BitVec 24) :
    EncodesInWidth.Statement (.blx1 h imm24) :=
  put_lt (k := 8) _ _ (putBit_lt (k := 7) _ _ (put_lt (k := 4) _ _ ((by decide : 15 < 2 ^ 4))))

theorem EncodesInWidth.blx2 (cond : BitVec 4) (rm : BitVec 4) :
    EncodesInWidth.Statement (.blx2 cond rm) :=
  put_lt (k := 28) _ _ (put_lt (k := 24) _ _ (put_lt (k := 20) _ _ (put_lt (k := 16) _ _ (put_lt (k := 12) _ _
    (put_lt (k := 11) _ _ (put_lt (k := 7) _ _ (put_lt (k := 4) _ _ (cond.isLt))))))))

theorem EncodesInWidth.bx (cond : BitVec 4) (rm : BitVec 4) :
    EncodesInWidth.Statement (.bx cond rm) :=
  put_lt (k := 28) _ _ (put_lt (k := 24) _ _ (put_lt (k := 20) _ _ (put_lt (k := 16) _ _ (put_lt (k := 12) _ _
    (put_lt (k := 11) _ _ (put_lt (k := 7) _ _ (put_lt (k := 4) _ _ (cond.isLt))))))))

theorem EncodesInWidth.mrs (cond : BitVec 4) (r : Bool) (rd : BitVec 4) :
    EncodesInWidth.Statement (.mrs cond r rd) :=
  put_lt (k := 28) _ _ (put_lt (k := 24) _ _ (put_lt (k := 20) _ _ (put_lt (k := 16) _ _ (put_lt (k := 12) _ _
    (put_lt (k := 11) _ _ (put_lt (k := 10) _ _ (putBit_lt (k := 9) _ _ (put_lt (k := 8) _ _ (put_lt (k := 7) _
    _ (put_lt (k := 4) _ _ (cond.isLt)))))))))))

theorem EncodesInWidth.msrReg (cond : BitVec 4) (r : Bool) (mask : BitVec 4) (rm : BitVec 4) :
    EncodesInWidth.Statement (.msrReg cond r mask rm) :=
  put_lt (k := 28) _ _ (put_lt (k := 24) _ _ (put_lt (k := 20) _ _ (put_lt (k := 16) _ _ (put_lt (k := 12) _ _
    (put_lt (k := 11) _ _ (put_lt (k := 10) _ _ (putBit_lt (k := 9) _ _ (put_lt (k := 8) _ _ (put_lt (k := 7) _
    _ (put_lt (k := 4) _ _ (cond.isLt)))))))))))

theorem EncodesInWidth.msrImm (cond : BitVec 4) (r : Bool) (mask : BitVec 4) (rot : BitVec 4) (imm8 : BitVec 8) :
    EncodesInWidth.Statement (.msrImm cond r mask rot imm8) :=
  put_lt (k := 24) _ _ (put_lt (k := 20) _ _ (put_lt (k := 16) _ _ (put_lt (k := 12) _ _ (put_lt (k := 11) _ _
    (put_lt (k := 10) _ _ (putBit_lt (k := 9) _ _ (put_lt (k := 8) _ _ (put_lt (k := 7) _ _ (put_lt (k := 4) _ _
    (cond.isLt))))))))))

theorem EncodesInWidth.swi (cond : BitVec 4) (imm24 : BitVec 24) :
    EncodesInWidth.Statement (.swi cond imm24) :=
  put_lt (k := 8) _ _ (put_lt (k := 7) _ _ (put_lt (k := 4) _ _ (cond.isLt)))

theorem EncodesInWidth.bkpt (immHi : BitVec 12) (immLo : BitVec 4) :
    EncodesInWidth.Statement (.bkpt immHi immLo) :=
  put_lt (k := 28) _ _ (put_lt (k := 24) _ _ (put_lt (k := 12) _ _ (put_lt (k := 11) _ _ (put_lt (k := 7) _ _
    (put_lt (k := 4) _ _ ((by decide : 14 < 2 ^ 4)))))))

theorem EncodesInWidth.cdp (cond : BitVec 4) (opc1 : BitVec 4) (crn : BitVec 4) (crd : BitVec 4) (cp : BitVec 4) (opc2 : BitVec 3) (crm : BitVec 4) :
    EncodesInWidth.Statement (.cdp cond opc1 crn crd cp opc2 crm) :=
  put_lt (k := 28) _ _ (put_lt (k := 27) _ _ (put_lt (k := 24) _ _ (put_lt (k := 20) _ _ (put_lt (k := 16) _ _
    (put_lt (k := 12) _ _ (put_lt (k := 8) _ _ (put_lt (k := 7) _ _ (put_lt (k := 4) _ _ (cond.isLt)))))))))

theorem EncodesInWidth.mcr (cond : BitVec 4) (opc1 : BitVec 3) (crn : BitVec 4) (rd : BitVec 4) (cp : BitVec 4) (opc2 : BitVec 3) (crm : BitVec 4) :
    EncodesInWidth.Statement (.mcr cond opc1 crn rd cp opc2 crm) :=
  put_lt (k := 28) _ _ (put_lt (k := 27) _ _ (put_lt (k := 24) _ _ (put_lt (k := 20) _ _ (put_lt (k := 16) _ _
    (put_lt (k := 12) _ _ (put_lt (k := 11) _ _ (put_lt (k := 8) _ _ (put_lt (k := 7) _ _ (put_lt (k := 4) _ _
    (cond.isLt))))))))))

theorem EncodesInWidth.mrc (cond : BitVec 4) (opc1 : BitVec 3) (crn : BitVec 4) (rd : BitVec 4) (cp : BitVec 4) (opc2 : BitVec 3) (crm : BitVec 4) :
    EncodesInWidth.Statement (.mrc cond opc1 crn rd cp opc2 crm) :=
  put_lt (k := 28) _ _ (put_lt (k := 27) _ _ (put_lt (k := 24) _ _ (put_lt (k := 20) _ _ (put_lt (k := 16) _ _
    (put_lt (k := 12) _ _ (put_lt (k := 11) _ _ (put_lt (k := 8) _ _ (put_lt (k := 7) _ _ (put_lt (k := 4) _ _
    (cond.isLt))))))))))

theorem EncodesInWidth.ldcOffset (cond : BitVec 4) (u : Bool) (n : Bool) (w : Bool) (rn : BitVec 4) (crd : BitVec 4) (cp : BitVec 4) (off8 : BitVec 8) :
    EncodesInWidth.Statement (.ldcOffset cond u n w rn crd cp off8) :=
  put_lt (k := 24) _ _ (put_lt (k := 20) _ _ (put_lt (k := 16) _ _ (put_lt (k := 12) _ _ (put_lt (k := 11) _ _
    (putBit_lt (k := 10) _ _ (putBit_lt (k := 9) _ _ (putBit_lt (k := 8) _ _ (put_lt (k := 7) _ _ (put_lt (k :=
    4) _ _ (cond.isLt))))))))))

theorem EncodesInWidth.ldcPost (cond : BitVec 4) (u : Bool) (n : Bool) (rn : BitVec 4) (crd : BitVec 4) (cp : BitVec 4) (off8 : BitVec 8) :
    EncodesInWidth.Statement (.ldcPost cond u n rn crd cp off8) :=
  put_lt (k := 24) _ _ (put_lt (k := 20) _ _ (put_lt (k := 16) _ _ (put_lt (k := 12) _ _ (put_lt (k := 11) _ _
    (put_lt (k := 10) _ _ (putBit_lt (k := 9) _ _ (putBit_lt (k := 8) _ _ (put_lt (k := 7) _ _ (put_lt (k := 4)
    _ _ (cond.isLt))))))))))

theorem EncodesInWidth.ldcUnindexed (cond : BitVec 4) (n : Bool) (rn : BitVec 4) (crd : BitVec 4) (cp : BitVec 4) (option : BitVec 8) :
    EncodesInWidth.Statement (.ldcUnindexed cond n rn crd cp option) :=
  put_lt (k := 24) _ _ (put_lt (k := 20) _ _ (put_lt (k := 16) _ _ (put_lt (k := 12) _ _ (put_lt (k := 11) _ _
    (put_lt (k := 10) _ _ (putBit_lt (k := 9) _ _ (put_lt (k := 8) _ _ (put_lt (k := 7) _ _ (put_lt (k := 4) _ _
    (cond.isLt))))))))))

theorem EncodesInWidth.stcOffset (cond : BitVec 4) (u : Bool) (n : Bool) (w : Bool) (rn : BitVec 4) (crd : BitVec 4) (cp : BitVec 4) (off8 : BitVec 8) :
    EncodesInWidth.Statement (.stcOffset cond u n w rn crd cp off8) :=
  put_lt (k := 24) _ _ (put_lt (k := 20) _ _ (put_lt (k := 16) _ _ (put_lt (k := 12) _ _ (put_lt (k := 11) _ _
    (putBit_lt (k := 10) _ _ (putBit_lt (k := 9) _ _ (putBit_lt (k := 8) _ _ (put_lt (k := 7) _ _ (put_lt (k :=
    4) _ _ (cond.isLt))))))))))

theorem EncodesInWidth.stcPost (cond : BitVec 4) (u : Bool) (n : Bool) (rn : BitVec 4) (crd : BitVec 4) (cp : BitVec 4) (off8 : BitVec 8) :
    EncodesInWidth.Statement (.stcPost cond u n rn crd cp off8) :=
  put_lt (k := 24) _ _ (put_lt (k := 20) _ _ (put_lt (k := 16) _ _ (put_lt (k := 12) _ _ (put_lt (k := 11) _ _
    (put_lt (k := 10) _ _ (putBit_lt (k := 9) _ _ (putBit_lt (k := 8) _ _ (put_lt (k := 7) _ _ (put_lt (k := 4)
    _ _ (cond.isLt))))))))))

theorem EncodesInWidth.stcUnindexed (cond : BitVec 4) (n : Bool) (rn : BitVec 4) (crd : BitVec 4) (cp : BitVec 4) (option : BitVec 8) :
    EncodesInWidth.Statement (.stcUnindexed cond n rn crd cp option) :=
  put_lt (k := 24) _ _ (put_lt (k := 20) _ _ (put_lt (k := 16) _ _ (put_lt (k := 12) _ _ (put_lt (k := 11) _ _
    (put_lt (k := 10) _ _ (putBit_lt (k := 9) _ _ (put_lt (k := 8) _ _ (put_lt (k := 7) _ _ (put_lt (k := 4) _ _
    (cond.isLt))))))))))

theorem EncodesInWidth.mcrr (cond : BitVec 4) (rn : BitVec 4) (rd : BitVec 4) (cp : BitVec 4) (opc : BitVec 4) (crm : BitVec 4) :
    EncodesInWidth.Statement (.mcrr cond rn rd cp opc crm) :=
  put_lt (k := 28) _ _ (put_lt (k := 24) _ _ (put_lt (k := 20) _ _ (put_lt (k := 16) _ _ (put_lt (k := 12) _ _
    (put_lt (k := 11) _ _ (put_lt (k := 10) _ _ (put_lt (k := 9) _ _ (put_lt (k := 8) _ _ (put_lt (k := 7) _ _
    (put_lt (k := 4) _ _ (cond.isLt)))))))))))

theorem EncodesInWidth.mrrc (cond : BitVec 4) (rn : BitVec 4) (rd : BitVec 4) (cp : BitVec 4) (opc : BitVec 4) (crm : BitVec 4) :
    EncodesInWidth.Statement (.mrrc cond rn rd cp opc crm) :=
  put_lt (k := 28) _ _ (put_lt (k := 24) _ _ (put_lt (k := 20) _ _ (put_lt (k := 16) _ _ (put_lt (k := 12) _ _
    (put_lt (k := 11) _ _ (put_lt (k := 10) _ _ (put_lt (k := 9) _ _ (put_lt (k := 8) _ _ (put_lt (k := 7) _ _
    (put_lt (k := 4) _ _ (cond.isLt)))))))))))

theorem EncodesInWidth.mia (cond : BitVec 4) (rs : BitVec 4) (acc : BitVec 3) (rm : BitVec 4) :
    EncodesInWidth.Statement (.mia cond rs acc rm) :=
  put_lt (k := 28) _ _ (put_lt (k := 27) _ _ (put_lt (k := 24) _ _ (put_lt (k := 20) _ _ (put_lt (k := 16) _ _
    (put_lt (k := 12) _ _ (put_lt (k := 11) _ _ (put_lt (k := 8) _ _ (put_lt (k := 7) _ _ (put_lt (k := 4) _ _
    (cond.isLt))))))))))

theorem EncodesInWidth.miaph (cond : BitVec 4) (rs : BitVec 4) (acc : BitVec 3) (rm : BitVec 4) :
    EncodesInWidth.Statement (.miaph cond rs acc rm) :=
  put_lt (k := 28) _ _ (put_lt (k := 27) _ _ (put_lt (k := 24) _ _ (put_lt (k := 20) _ _ (put_lt (k := 16) _ _
    (put_lt (k := 12) _ _ (put_lt (k := 11) _ _ (put_lt (k := 8) _ _ (put_lt (k := 7) _ _ (put_lt (k := 4) _ _
    (cond.isLt))))))))))

theorem EncodesInWidth.miabb (cond : BitVec 4) (rs : BitVec 4) (acc : BitVec 3) (rm : BitVec 4) :
    EncodesInWidth.Statement (.miabb cond rs acc rm) :=
  put_lt (k := 28) _ _ (put_lt (k := 27) _ _ (put_lt (k := 24) _ _ (put_lt (k := 20) _ _ (put_lt (k := 16) _ _
    (put_lt (k := 12) _ _ (put_lt (k := 11) _ _ (put_lt (k := 8) _ _ (put_lt (k := 7) _ _ (put_lt (k := 4) _ _
    (cond.isLt))))))))))

theorem EncodesInWidth.miabt (cond : BitVec 4) (rs : BitVec 4) (acc : BitVec 3) (rm : BitVec 4) :
    EncodesInWidth.Statement (.miabt cond rs acc rm) :=
  put_lt (k := 28) _ _ (put_lt (k := 27) _ _ (put_lt (k := 24) _ _ (put_lt (k := 20) _ _ (put_lt (k := 16) _ _
    (put_lt (k := 12) _ _ (put_lt (k := 11) _ _ (put_lt (k := 8) _ _ (put_lt (k := 7) _ _ (put_lt (k := 4) _ _
    (cond.isLt))))))))))

theorem EncodesInWidth.miatb (cond : BitVec 4) (rs : BitVec 4) (acc : BitVec 3) (rm : BitVec 4) :
    EncodesInWidth.Statement (.miatb cond rs acc rm) :=
  put_lt (k := 28) _ _ (put_lt (k := 27) _ _ (put_lt (k := 24) _ _ (put_lt (k := 20) _ _ (put_lt (k := 16) _ _
    (put_lt (k := 12) _ _ (put_lt (k := 11) _ _ (put_lt (k := 8) _ _ (put_lt (k := 7) _ _ (put_lt (k := 4) _ _
    (cond.isLt))))))))))

theorem EncodesInWidth.miatt (cond : BitVec 4) (rs : BitVec 4) (acc : BitVec 3) (rm : BitVec 4) :
    EncodesInWidth.Statement (.miatt cond rs acc rm) :=
  put_lt (k := 28) _ _ (put_lt (k := 27) _ _ (put_lt (k := 24) _ _ (put_lt (k := 20) _ _ (put_lt (k := 16) _ _
    (put_lt (k := 12) _ _ (put_lt (k := 11) _ _ (put_lt (k := 8) _ _ (put_lt (k := 7) _ _ (put_lt (k := 4) _ _
    (cond.isLt))))))))))

theorem EncodesInWidth.mar (cond : BitVec 4) (rdHi : BitVec 4) (rdLo : BitVec 4) (acc : BitVec 3) :
    EncodesInWidth.Statement (.mar cond rdHi rdLo acc) :=
  put_lt (k := 29) _ _ (put_lt (k := 28) _ _ (put_lt (k := 24) _ _ (put_lt (k := 20) _ _ (put_lt (k := 16) _ _
    (put_lt (k := 12) _ _ (put_lt (k := 11) _ _ (put_lt (k := 10) _ _ (put_lt (k := 9) _ _ (put_lt (k := 8) _ _
    (put_lt (k := 7) _ _ (put_lt (k := 4) _ _ (cond.isLt))))))))))))

theorem EncodesInWidth.mra (cond : BitVec 4) (rdHi : BitVec 4) (rdLo : BitVec 4) (acc : BitVec 3) :
    EncodesInWidth.Statement (.mra cond rdHi rdLo acc) :=
  put_lt (k := 29) _ _ (put_lt (k := 28) _ _ (put_lt (k := 24) _ _ (put_lt (k := 20) _ _ (put_lt (k := 16) _ _
    (put_lt (k := 12) _ _ (put_lt (k := 11) _ _ (put_lt (k := 10) _ _ (put_lt (k := 9) _ _ (put_lt (k := 8) _ _
    (put_lt (k := 7) _ _ (put_lt (k := 4) _ _ (cond.isLt))))))))))))

theorem EncodesInWidth.undefMedia (cond : BitVec 4) (anyHi : BitVec 20) (anyLo : BitVec 4) :
    EncodesInWidth.Statement (.undefMedia cond anyHi anyLo) :=
  put_lt (k := 28) _ _ (put_lt (k := 27) _ _ (put_lt (k := 7) _ _ (put_lt (k := 4) _ _ (cond.isLt))))

theorem EncodesInWidth.undefMsrImm (cond : BitVec 4) (r : Bool) (any : BitVec 20) :
    EncodesInWidth.Statement (.undefMsrImm cond r any) :=
  put_lt (k := 12) _ _ (put_lt (k := 11) _ _ (put_lt (k := 10) _ _ (putBit_lt (k := 9) _ _ (put_lt (k := 8) _ _
    (put_lt (k := 7) _ _ (put_lt (k := 4) _ _ (cond.isLt)))))))

theorem EncodesInWidth.mrcId (cond : BitVec 4) (rd : BitVec 4) :
    EncodesInWidth.Statement (.mrcId cond rd) :=
  put_lt (k := 28) _ _ (put_lt (k := 27) _ _ (put_lt (k := 24) _ _ (put_lt (k := 20) _ _ (put_lt (k := 16) _ _
    (put_lt (k := 12) _ _ (put_lt (k := 11) _ _ (put_lt (k := 8) _ _ (put_lt (k := 7) _ _ (put_lt (k := 4) _ _
    (cond.isLt))))))))))

theorem EncodesInWidth.mcrId (cond : BitVec 4) (rd : BitVec 4) :
    EncodesInWidth.Statement (.mcrId cond rd) :=
  put_lt (k := 28) _ _ (put_lt (k := 27) _ _ (put_lt (k := 24) _ _ (put_lt (k := 20) _ _ (put_lt (k := 16) _ _
    (put_lt (k := 12) _ _ (put_lt (k := 11) _ _ (put_lt (k := 8) _ _ (put_lt (k := 7) _ _ (put_lt (k := 4) _ _
    (cond.isLt))))))))))

theorem EncodesInWidth.mrcCacheType (cond : BitVec 4) (rd : BitVec 4) :
    EncodesInWidth.Statement (.mrcCacheType cond rd) :=
  put_lt (k := 28) _ _ (put_lt (k := 27) _ _ (put_lt (k := 24) _ _ (put_lt (k := 20) _ _ (put_lt (k := 16) _ _
    (put_lt (k := 12) _ _ (put_lt (k := 11) _ _ (put_lt (k := 8) _ _ (put_lt (k := 7) _ _ (put_lt (k := 4) _ _
    (cond.isLt))))))))))

theorem EncodesInWidth.mcrCacheType (cond : BitVec 4) (rd : BitVec 4) :
    EncodesInWidth.Statement (.mcrCacheType cond rd) :=
  put_lt (k := 28) _ _ (put_lt (k := 27) _ _ (put_lt (k := 24) _ _ (put_lt (k := 20) _ _ (put_lt (k := 16) _ _
    (put_lt (k := 12) _ _ (put_lt (k := 11) _ _ (put_lt (k := 8) _ _ (put_lt (k := 7) _ _ (put_lt (k := 4) _ _
    (cond.isLt))))))))))

theorem EncodesInWidth.mrcControl (cond : BitVec 4) (rd : BitVec 4) :
    EncodesInWidth.Statement (.mrcControl cond rd) :=
  put_lt (k := 28) _ _ (put_lt (k := 27) _ _ (put_lt (k := 24) _ _ (put_lt (k := 20) _ _ (put_lt (k := 16) _ _
    (put_lt (k := 12) _ _ (put_lt (k := 11) _ _ (put_lt (k := 8) _ _ (put_lt (k := 7) _ _ (put_lt (k := 4) _ _
    (cond.isLt))))))))))

theorem EncodesInWidth.mcrControl (cond : BitVec 4) (rd : BitVec 4) :
    EncodesInWidth.Statement (.mcrControl cond rd) :=
  put_lt (k := 28) _ _ (put_lt (k := 27) _ _ (put_lt (k := 24) _ _ (put_lt (k := 20) _ _ (put_lt (k := 16) _ _
    (put_lt (k := 12) _ _ (put_lt (k := 11) _ _ (put_lt (k := 8) _ _ (put_lt (k := 7) _ _ (put_lt (k := 4) _ _
    (cond.isLt))))))))))

theorem EncodesInWidth.mrcAuxControl (cond : BitVec 4) (rd : BitVec 4) :
    EncodesInWidth.Statement (.mrcAuxControl cond rd) :=
  put_lt (k := 28) _ _ (put_lt (k := 27) _ _ (put_lt (k := 24) _ _ (put_lt (k := 20) _ _ (put_lt (k := 16) _ _
    (put_lt (k := 12) _ _ (put_lt (k := 11) _ _ (put_lt (k := 8) _ _ (put_lt (k := 7) _ _ (put_lt (k := 4) _ _
    (cond.isLt))))))))))

theorem EncodesInWidth.mcrAuxControl (cond : BitVec 4) (rd : BitVec 4) :
    EncodesInWidth.Statement (.mcrAuxControl cond rd) :=
  put_lt (k := 28) _ _ (put_lt (k := 27) _ _ (put_lt (k := 24) _ _ (put_lt (k := 20) _ _ (put_lt (k := 16) _ _
    (put_lt (k := 12) _ _ (put_lt (k := 11) _ _ (put_lt (k := 8) _ _ (put_lt (k := 7) _ _ (put_lt (k := 4) _ _
    (cond.isLt))))))))))

theorem EncodesInWidth.mrcTtb (cond : BitVec 4) (rd : BitVec 4) :
    EncodesInWidth.Statement (.mrcTtb cond rd) :=
  put_lt (k := 28) _ _ (put_lt (k := 27) _ _ (put_lt (k := 24) _ _ (put_lt (k := 20) _ _ (put_lt (k := 16) _ _
    (put_lt (k := 12) _ _ (put_lt (k := 11) _ _ (put_lt (k := 8) _ _ (put_lt (k := 7) _ _ (put_lt (k := 4) _ _
    (cond.isLt))))))))))

theorem EncodesInWidth.mcrTtb (cond : BitVec 4) (rd : BitVec 4) :
    EncodesInWidth.Statement (.mcrTtb cond rd) :=
  put_lt (k := 28) _ _ (put_lt (k := 27) _ _ (put_lt (k := 24) _ _ (put_lt (k := 20) _ _ (put_lt (k := 16) _ _
    (put_lt (k := 12) _ _ (put_lt (k := 11) _ _ (put_lt (k := 8) _ _ (put_lt (k := 7) _ _ (put_lt (k := 4) _ _
    (cond.isLt))))))))))

theorem EncodesInWidth.mrcDacr (cond : BitVec 4) (rd : BitVec 4) :
    EncodesInWidth.Statement (.mrcDacr cond rd) :=
  put_lt (k := 28) _ _ (put_lt (k := 27) _ _ (put_lt (k := 24) _ _ (put_lt (k := 20) _ _ (put_lt (k := 16) _ _
    (put_lt (k := 12) _ _ (put_lt (k := 11) _ _ (put_lt (k := 8) _ _ (put_lt (k := 7) _ _ (put_lt (k := 4) _ _
    (cond.isLt))))))))))

theorem EncodesInWidth.mcrDacr (cond : BitVec 4) (rd : BitVec 4) :
    EncodesInWidth.Statement (.mcrDacr cond rd) :=
  put_lt (k := 28) _ _ (put_lt (k := 27) _ _ (put_lt (k := 24) _ _ (put_lt (k := 20) _ _ (put_lt (k := 16) _ _
    (put_lt (k := 12) _ _ (put_lt (k := 11) _ _ (put_lt (k := 8) _ _ (put_lt (k := 7) _ _ (put_lt (k := 4) _ _
    (cond.isLt))))))))))

theorem EncodesInWidth.mrcFsr (cond : BitVec 4) (rd : BitVec 4) :
    EncodesInWidth.Statement (.mrcFsr cond rd) :=
  put_lt (k := 28) _ _ (put_lt (k := 27) _ _ (put_lt (k := 24) _ _ (put_lt (k := 20) _ _ (put_lt (k := 16) _ _
    (put_lt (k := 12) _ _ (put_lt (k := 11) _ _ (put_lt (k := 8) _ _ (put_lt (k := 7) _ _ (put_lt (k := 4) _ _
    (cond.isLt))))))))))

theorem EncodesInWidth.mcrFsr (cond : BitVec 4) (rd : BitVec 4) :
    EncodesInWidth.Statement (.mcrFsr cond rd) :=
  put_lt (k := 28) _ _ (put_lt (k := 27) _ _ (put_lt (k := 24) _ _ (put_lt (k := 20) _ _ (put_lt (k := 16) _ _
    (put_lt (k := 12) _ _ (put_lt (k := 11) _ _ (put_lt (k := 8) _ _ (put_lt (k := 7) _ _ (put_lt (k := 4) _ _
    (cond.isLt))))))))))

theorem EncodesInWidth.mrcFar (cond : BitVec 4) (rd : BitVec 4) :
    EncodesInWidth.Statement (.mrcFar cond rd) :=
  put_lt (k := 28) _ _ (put_lt (k := 27) _ _ (put_lt (k := 24) _ _ (put_lt (k := 20) _ _ (put_lt (k := 16) _ _
    (put_lt (k := 12) _ _ (put_lt (k := 11) _ _ (put_lt (k := 8) _ _ (put_lt (k := 7) _ _ (put_lt (k := 4) _ _
    (cond.isLt))))))))))

theorem EncodesInWidth.mcrFar (cond : BitVec 4) (rd : BitVec 4) :
    EncodesInWidth.Statement (.mcrFar cond rd) :=
  put_lt (k := 28) _ _ (put_lt (k := 27) _ _ (put_lt (k := 24) _ _ (put_lt (k := 20) _ _ (put_lt (k := 16) _ _
    (put_lt (k := 12) _ _ (put_lt (k := 11) _ _ (put_lt (k := 8) _ _ (put_lt (k := 7) _ _ (put_lt (k := 4) _ _
    (cond.isLt))))))))))

theorem EncodesInWidth.mcrInvIDCacheBtb (cond : BitVec 4) (rd : BitVec 4) :
    EncodesInWidth.Statement (.mcrInvIDCacheBtb cond rd) :=
  put_lt (k := 28) _ _ (put_lt (k := 27) _ _ (put_lt (k := 24) _ _ (put_lt (k := 20) _ _ (put_lt (k := 16) _ _
    (put_lt (k := 12) _ _ (put_lt (k := 11) _ _ (put_lt (k := 8) _ _ (put_lt (k := 7) _ _ (put_lt (k := 4) _ _
    (cond.isLt))))))))))

theorem EncodesInWidth.mcrInvICacheBtb (cond : BitVec 4) (rd : BitVec 4) :
    EncodesInWidth.Statement (.mcrInvICacheBtb cond rd) :=
  put_lt (k := 28) _ _ (put_lt (k := 27) _ _ (put_lt (k := 24) _ _ (put_lt (k := 20) _ _ (put_lt (k := 16) _ _
    (put_lt (k := 12) _ _ (put_lt (k := 11) _ _ (put_lt (k := 8) _ _ (put_lt (k := 7) _ _ (put_lt (k := 4) _ _
    (cond.isLt))))))))))

theorem EncodesInWidth.mcrInvICacheLine (cond : BitVec 4) (rd : BitVec 4) :
    EncodesInWidth.Statement (.mcrInvICacheLine cond rd) :=
  put_lt (k := 28) _ _ (put_lt (k := 27) _ _ (put_lt (k := 24) _ _ (put_lt (k := 20) _ _ (put_lt (k := 16) _ _
    (put_lt (k := 12) _ _ (put_lt (k := 11) _ _ (put_lt (k := 8) _ _ (put_lt (k := 7) _ _ (put_lt (k := 4) _ _
    (cond.isLt))))))))))

theorem EncodesInWidth.mcrInvDCache (cond : BitVec 4) (rd : BitVec 4) :
    EncodesInWidth.Statement (.mcrInvDCache cond rd) :=
  put_lt (k := 28) _ _ (put_lt (k := 27) _ _ (put_lt (k := 24) _ _ (put_lt (k := 20) _ _ (put_lt (k := 16) _ _
    (put_lt (k := 12) _ _ (put_lt (k := 11) _ _ (put_lt (k := 8) _ _ (put_lt (k := 7) _ _ (put_lt (k := 4) _ _
    (cond.isLt))))))))))

theorem EncodesInWidth.mcrInvDCacheLine (cond : BitVec 4) (rd : BitVec 4) :
    EncodesInWidth.Statement (.mcrInvDCacheLine cond rd) :=
  put_lt (k := 28) _ _ (put_lt (k := 27) _ _ (put_lt (k := 24) _ _ (put_lt (k := 20) _ _ (put_lt (k := 16) _ _
    (put_lt (k := 12) _ _ (put_lt (k := 11) _ _ (put_lt (k := 8) _ _ (put_lt (k := 7) _ _ (put_lt (k := 4) _ _
    (cond.isLt))))))))))

theorem EncodesInWidth.mcrCleanDCacheLine (cond : BitVec 4) (rd : BitVec 4) :
    EncodesInWidth.Statement (.mcrCleanDCacheLine cond rd) :=
  put_lt (k := 28) _ _ (put_lt (k := 27) _ _ (put_lt (k := 24) _ _ (put_lt (k := 20) _ _ (put_lt (k := 16) _ _
    (put_lt (k := 12) _ _ (put_lt (k := 11) _ _ (put_lt (k := 8) _ _ (put_lt (k := 7) _ _ (put_lt (k := 4) _ _
    (cond.isLt))))))))))

theorem EncodesInWidth.mcrDrainWriteBuffer (cond : BitVec 4) (rd : BitVec 4) :
    EncodesInWidth.Statement (.mcrDrainWriteBuffer cond rd) :=
  put_lt (k := 28) _ _ (put_lt (k := 27) _ _ (put_lt (k := 24) _ _ (put_lt (k := 20) _ _ (put_lt (k := 16) _ _
    (put_lt (k := 12) _ _ (put_lt (k := 11) _ _ (put_lt (k := 8) _ _ (put_lt (k := 7) _ _ (put_lt (k := 4) _ _
    (cond.isLt))))))))))

theorem EncodesInWidth.mcrInvBtb (cond : BitVec 4) (rd : BitVec 4) :
    EncodesInWidth.Statement (.mcrInvBtb cond rd) :=
  put_lt (k := 28) _ _ (put_lt (k := 27) _ _ (put_lt (k := 24) _ _ (put_lt (k := 20) _ _ (put_lt (k := 16) _ _
    (put_lt (k := 12) _ _ (put_lt (k := 11) _ _ (put_lt (k := 8) _ _ (put_lt (k := 7) _ _ (put_lt (k := 4) _ _
    (cond.isLt))))))))))

theorem EncodesInWidth.mcrAllocateDLine (cond : BitVec 4) (rd : BitVec 4) :
    EncodesInWidth.Statement (.mcrAllocateDLine cond rd) :=
  put_lt (k := 28) _ _ (put_lt (k := 27) _ _ (put_lt (k := 24) _ _ (put_lt (k := 20) _ _ (put_lt (k := 16) _ _
    (put_lt (k := 12) _ _ (put_lt (k := 11) _ _ (put_lt (k := 8) _ _ (put_lt (k := 7) _ _ (put_lt (k := 4) _ _
    (cond.isLt))))))))))

theorem EncodesInWidth.mcrInvIDTlb (cond : BitVec 4) (rd : BitVec 4) :
    EncodesInWidth.Statement (.mcrInvIDTlb cond rd) :=
  put_lt (k := 28) _ _ (put_lt (k := 27) _ _ (put_lt (k := 24) _ _ (put_lt (k := 20) _ _ (put_lt (k := 16) _ _
    (put_lt (k := 12) _ _ (put_lt (k := 11) _ _ (put_lt (k := 8) _ _ (put_lt (k := 7) _ _ (put_lt (k := 4) _ _
    (cond.isLt))))))))))

theorem EncodesInWidth.mcrInvITlb (cond : BitVec 4) (rd : BitVec 4) :
    EncodesInWidth.Statement (.mcrInvITlb cond rd) :=
  put_lt (k := 28) _ _ (put_lt (k := 27) _ _ (put_lt (k := 24) _ _ (put_lt (k := 20) _ _ (put_lt (k := 16) _ _
    (put_lt (k := 12) _ _ (put_lt (k := 11) _ _ (put_lt (k := 8) _ _ (put_lt (k := 7) _ _ (put_lt (k := 4) _ _
    (cond.isLt))))))))))

theorem EncodesInWidth.mcrInvITlbEntry (cond : BitVec 4) (rd : BitVec 4) :
    EncodesInWidth.Statement (.mcrInvITlbEntry cond rd) :=
  put_lt (k := 28) _ _ (put_lt (k := 27) _ _ (put_lt (k := 24) _ _ (put_lt (k := 20) _ _ (put_lt (k := 16) _ _
    (put_lt (k := 12) _ _ (put_lt (k := 11) _ _ (put_lt (k := 8) _ _ (put_lt (k := 7) _ _ (put_lt (k := 4) _ _
    (cond.isLt))))))))))

theorem EncodesInWidth.mcrInvDTlb (cond : BitVec 4) (rd : BitVec 4) :
    EncodesInWidth.Statement (.mcrInvDTlb cond rd) :=
  put_lt (k := 28) _ _ (put_lt (k := 27) _ _ (put_lt (k := 24) _ _ (put_lt (k := 20) _ _ (put_lt (k := 16) _ _
    (put_lt (k := 12) _ _ (put_lt (k := 11) _ _ (put_lt (k := 8) _ _ (put_lt (k := 7) _ _ (put_lt (k := 4) _ _
    (cond.isLt))))))))))

theorem EncodesInWidth.mcrInvDTlbEntry (cond : BitVec 4) (rd : BitVec 4) :
    EncodesInWidth.Statement (.mcrInvDTlbEntry cond rd) :=
  put_lt (k := 28) _ _ (put_lt (k := 27) _ _ (put_lt (k := 24) _ _ (put_lt (k := 20) _ _ (put_lt (k := 16) _ _
    (put_lt (k := 12) _ _ (put_lt (k := 11) _ _ (put_lt (k := 8) _ _ (put_lt (k := 7) _ _ (put_lt (k := 4) _ _
    (cond.isLt))))))))))

theorem EncodesInWidth.mcrLockILine (cond : BitVec 4) (rd : BitVec 4) :
    EncodesInWidth.Statement (.mcrLockILine cond rd) :=
  put_lt (k := 28) _ _ (put_lt (k := 27) _ _ (put_lt (k := 24) _ _ (put_lt (k := 20) _ _ (put_lt (k := 16) _ _
    (put_lt (k := 12) _ _ (put_lt (k := 11) _ _ (put_lt (k := 8) _ _ (put_lt (k := 7) _ _ (put_lt (k := 4) _ _
    (cond.isLt))))))))))

theorem EncodesInWidth.mcrUnlockICache (cond : BitVec 4) (rd : BitVec 4) :
    EncodesInWidth.Statement (.mcrUnlockICache cond rd) :=
  put_lt (k := 28) _ _ (put_lt (k := 27) _ _ (put_lt (k := 24) _ _ (put_lt (k := 20) _ _ (put_lt (k := 16) _ _
    (put_lt (k := 12) _ _ (put_lt (k := 11) _ _ (put_lt (k := 8) _ _ (put_lt (k := 7) _ _ (put_lt (k := 4) _ _
    (cond.isLt))))))))))

theorem EncodesInWidth.mrcDCacheLock (cond : BitVec 4) (rd : BitVec 4) :
    EncodesInWidth.Statement (.mrcDCacheLock cond rd) :=
  put_lt (k := 28) _ _ (put_lt (k := 27) _ _ (put_lt (k := 24) _ _ (put_lt (k := 20) _ _ (put_lt (k := 16) _ _
    (put_lt (k := 12) _ _ (put_lt (k := 11) _ _ (put_lt (k := 8) _ _ (put_lt (k := 7) _ _ (put_lt (k := 4) _ _
    (cond.isLt))))))))))

theorem EncodesInWidth.mcrDCacheLock (cond : BitVec 4) (rd : BitVec 4) :
    EncodesInWidth.Statement (.mcrDCacheLock cond rd) :=
  put_lt (k := 28) _ _ (put_lt (k := 27) _ _ (put_lt (k := 24) _ _ (put_lt (k := 20) _ _ (put_lt (k := 16) _ _
    (put_lt (k := 12) _ _ (put_lt (k := 11) _ _ (put_lt (k := 8) _ _ (put_lt (k := 7) _ _ (put_lt (k := 4) _ _
    (cond.isLt))))))))))

theorem EncodesInWidth.mcrUnlockDCache (cond : BitVec 4) (rd : BitVec 4) :
    EncodesInWidth.Statement (.mcrUnlockDCache cond rd) :=
  put_lt (k := 28) _ _ (put_lt (k := 27) _ _ (put_lt (k := 24) _ _ (put_lt (k := 20) _ _ (put_lt (k := 16) _ _
    (put_lt (k := 12) _ _ (put_lt (k := 11) _ _ (put_lt (k := 8) _ _ (put_lt (k := 7) _ _ (put_lt (k := 4) _ _
    (cond.isLt))))))))))

theorem EncodesInWidth.mcrLockITlbEntry (cond : BitVec 4) (rd : BitVec 4) :
    EncodesInWidth.Statement (.mcrLockITlbEntry cond rd) :=
  put_lt (k := 28) _ _ (put_lt (k := 27) _ _ (put_lt (k := 24) _ _ (put_lt (k := 20) _ _ (put_lt (k := 16) _ _
    (put_lt (k := 12) _ _ (put_lt (k := 11) _ _ (put_lt (k := 8) _ _ (put_lt (k := 7) _ _ (put_lt (k := 4) _ _
    (cond.isLt))))))))))

theorem EncodesInWidth.mcrLockDTlbEntry (cond : BitVec 4) (rd : BitVec 4) :
    EncodesInWidth.Statement (.mcrLockDTlbEntry cond rd) :=
  put_lt (k := 28) _ _ (put_lt (k := 27) _ _ (put_lt (k := 24) _ _ (put_lt (k := 20) _ _ (put_lt (k := 16) _ _
    (put_lt (k := 12) _ _ (put_lt (k := 11) _ _ (put_lt (k := 8) _ _ (put_lt (k := 7) _ _ (put_lt (k := 4) _ _
    (cond.isLt))))))))))

theorem EncodesInWidth.mcrUnlockITlb (cond : BitVec 4) (rd : BitVec 4) :
    EncodesInWidth.Statement (.mcrUnlockITlb cond rd) :=
  put_lt (k := 28) _ _ (put_lt (k := 27) _ _ (put_lt (k := 24) _ _ (put_lt (k := 20) _ _ (put_lt (k := 16) _ _
    (put_lt (k := 12) _ _ (put_lt (k := 11) _ _ (put_lt (k := 8) _ _ (put_lt (k := 7) _ _ (put_lt (k := 4) _ _
    (cond.isLt))))))))))

theorem EncodesInWidth.mcrUnlockDTlb (cond : BitVec 4) (rd : BitVec 4) :
    EncodesInWidth.Statement (.mcrUnlockDTlb cond rd) :=
  put_lt (k := 28) _ _ (put_lt (k := 27) _ _ (put_lt (k := 24) _ _ (put_lt (k := 20) _ _ (put_lt (k := 16) _ _
    (put_lt (k := 12) _ _ (put_lt (k := 11) _ _ (put_lt (k := 8) _ _ (put_lt (k := 7) _ _ (put_lt (k := 4) _ _
    (cond.isLt))))))))))

theorem EncodesInWidth.mrcPid (cond : BitVec 4) (rd : BitVec 4) :
    EncodesInWidth.Statement (.mrcPid cond rd) :=
  put_lt (k := 28) _ _ (put_lt (k := 27) _ _ (put_lt (k := 24) _ _ (put_lt (k := 20) _ _ (put_lt (k := 16) _ _
    (put_lt (k := 12) _ _ (put_lt (k := 11) _ _ (put_lt (k := 8) _ _ (put_lt (k := 7) _ _ (put_lt (k := 4) _ _
    (cond.isLt))))))))))

theorem EncodesInWidth.mcrPid (cond : BitVec 4) (rd : BitVec 4) :
    EncodesInWidth.Statement (.mcrPid cond rd) :=
  put_lt (k := 28) _ _ (put_lt (k := 27) _ _ (put_lt (k := 24) _ _ (put_lt (k := 20) _ _ (put_lt (k := 16) _ _
    (put_lt (k := 12) _ _ (put_lt (k := 11) _ _ (put_lt (k := 8) _ _ (put_lt (k := 7) _ _ (put_lt (k := 4) _ _
    (cond.isLt))))))))))

theorem EncodesInWidth.mrcIbcr0 (cond : BitVec 4) (rd : BitVec 4) :
    EncodesInWidth.Statement (.mrcIbcr0 cond rd) :=
  put_lt (k := 28) _ _ (put_lt (k := 27) _ _ (put_lt (k := 24) _ _ (put_lt (k := 20) _ _ (put_lt (k := 16) _ _
    (put_lt (k := 12) _ _ (put_lt (k := 11) _ _ (put_lt (k := 8) _ _ (put_lt (k := 7) _ _ (put_lt (k := 4) _ _
    (cond.isLt))))))))))

theorem EncodesInWidth.mcrIbcr0 (cond : BitVec 4) (rd : BitVec 4) :
    EncodesInWidth.Statement (.mcrIbcr0 cond rd) :=
  put_lt (k := 28) _ _ (put_lt (k := 27) _ _ (put_lt (k := 24) _ _ (put_lt (k := 20) _ _ (put_lt (k := 16) _ _
    (put_lt (k := 12) _ _ (put_lt (k := 11) _ _ (put_lt (k := 8) _ _ (put_lt (k := 7) _ _ (put_lt (k := 4) _ _
    (cond.isLt))))))))))

theorem EncodesInWidth.mrcIbcr1 (cond : BitVec 4) (rd : BitVec 4) :
    EncodesInWidth.Statement (.mrcIbcr1 cond rd) :=
  put_lt (k := 28) _ _ (put_lt (k := 27) _ _ (put_lt (k := 24) _ _ (put_lt (k := 20) _ _ (put_lt (k := 16) _ _
    (put_lt (k := 12) _ _ (put_lt (k := 11) _ _ (put_lt (k := 8) _ _ (put_lt (k := 7) _ _ (put_lt (k := 4) _ _
    (cond.isLt))))))))))

theorem EncodesInWidth.mcrIbcr1 (cond : BitVec 4) (rd : BitVec 4) :
    EncodesInWidth.Statement (.mcrIbcr1 cond rd) :=
  put_lt (k := 28) _ _ (put_lt (k := 27) _ _ (put_lt (k := 24) _ _ (put_lt (k := 20) _ _ (put_lt (k := 16) _ _
    (put_lt (k := 12) _ _ (put_lt (k := 11) _ _ (put_lt (k := 8) _ _ (put_lt (k := 7) _ _ (put_lt (k := 4) _ _
    (cond.isLt))))))))))

theorem EncodesInWidth.mrcDbr0 (cond : BitVec 4) (rd : BitVec 4) :
    EncodesInWidth.Statement (.mrcDbr0 cond rd) :=
  put_lt (k := 28) _ _ (put_lt (k := 27) _ _ (put_lt (k := 24) _ _ (put_lt (k := 20) _ _ (put_lt (k := 16) _ _
    (put_lt (k := 12) _ _ (put_lt (k := 11) _ _ (put_lt (k := 8) _ _ (put_lt (k := 7) _ _ (put_lt (k := 4) _ _
    (cond.isLt))))))))))

theorem EncodesInWidth.mcrDbr0 (cond : BitVec 4) (rd : BitVec 4) :
    EncodesInWidth.Statement (.mcrDbr0 cond rd) :=
  put_lt (k := 28) _ _ (put_lt (k := 27) _ _ (put_lt (k := 24) _ _ (put_lt (k := 20) _ _ (put_lt (k := 16) _ _
    (put_lt (k := 12) _ _ (put_lt (k := 11) _ _ (put_lt (k := 8) _ _ (put_lt (k := 7) _ _ (put_lt (k := 4) _ _
    (cond.isLt))))))))))

theorem EncodesInWidth.mrcDbr1 (cond : BitVec 4) (rd : BitVec 4) :
    EncodesInWidth.Statement (.mrcDbr1 cond rd) :=
  put_lt (k := 28) _ _ (put_lt (k := 27) _ _ (put_lt (k := 24) _ _ (put_lt (k := 20) _ _ (put_lt (k := 16) _ _
    (put_lt (k := 12) _ _ (put_lt (k := 11) _ _ (put_lt (k := 8) _ _ (put_lt (k := 7) _ _ (put_lt (k := 4) _ _
    (cond.isLt))))))))))

theorem EncodesInWidth.mcrDbr1 (cond : BitVec 4) (rd : BitVec 4) :
    EncodesInWidth.Statement (.mcrDbr1 cond rd) :=
  put_lt (k := 28) _ _ (put_lt (k := 27) _ _ (put_lt (k := 24) _ _ (put_lt (k := 20) _ _ (put_lt (k := 16) _ _
    (put_lt (k := 12) _ _ (put_lt (k := 11) _ _ (put_lt (k := 8) _ _ (put_lt (k := 7) _ _ (put_lt (k := 4) _ _
    (cond.isLt))))))))))

theorem EncodesInWidth.mrcDbcon (cond : BitVec 4) (rd : BitVec 4) :
    EncodesInWidth.Statement (.mrcDbcon cond rd) :=
  put_lt (k := 28) _ _ (put_lt (k := 27) _ _ (put_lt (k := 24) _ _ (put_lt (k := 20) _ _ (put_lt (k := 16) _ _
    (put_lt (k := 12) _ _ (put_lt (k := 11) _ _ (put_lt (k := 8) _ _ (put_lt (k := 7) _ _ (put_lt (k := 4) _ _
    (cond.isLt))))))))))

theorem EncodesInWidth.mcrDbcon (cond : BitVec 4) (rd : BitVec 4) :
    EncodesInWidth.Statement (.mcrDbcon cond rd) :=
  put_lt (k := 28) _ _ (put_lt (k := 27) _ _ (put_lt (k := 24) _ _ (put_lt (k := 20) _ _ (put_lt (k := 16) _ _
    (put_lt (k := 12) _ _ (put_lt (k := 11) _ _ (put_lt (k := 8) _ _ (put_lt (k := 7) _ _ (put_lt (k := 4) _ _
    (cond.isLt))))))))))

theorem EncodesInWidth.mrcCpar (cond : BitVec 4) (rd : BitVec 4) :
    EncodesInWidth.Statement (.mrcCpar cond rd) :=
  put_lt (k := 28) _ _ (put_lt (k := 27) _ _ (put_lt (k := 24) _ _ (put_lt (k := 20) _ _ (put_lt (k := 16) _ _
    (put_lt (k := 12) _ _ (put_lt (k := 11) _ _ (put_lt (k := 8) _ _ (put_lt (k := 7) _ _ (put_lt (k := 4) _ _
    (cond.isLt))))))))))

theorem EncodesInWidth.mcrCpar (cond : BitVec 4) (rd : BitVec 4) :
    EncodesInWidth.Statement (.mcrCpar cond rd) :=
  put_lt (k := 28) _ _ (put_lt (k := 27) _ _ (put_lt (k := 24) _ _ (put_lt (k := 20) _ _ (put_lt (k := 16) _ _
    (put_lt (k := 12) _ _ (put_lt (k := 11) _ _ (put_lt (k := 8) _ _ (put_lt (k := 7) _ _ (put_lt (k := 4) _ _
    (cond.isLt))))))))))

theorem EncodesInWidth.mrcPmnc (cond : BitVec 4) (rd : BitVec 4) :
    EncodesInWidth.Statement (.mrcPmnc cond rd) :=
  put_lt (k := 28) _ _ (put_lt (k := 27) _ _ (put_lt (k := 24) _ _ (put_lt (k := 20) _ _ (put_lt (k := 16) _ _
    (put_lt (k := 12) _ _ (put_lt (k := 11) _ _ (put_lt (k := 8) _ _ (put_lt (k := 7) _ _ (put_lt (k := 4) _ _
    (cond.isLt))))))))))

theorem EncodesInWidth.mcrPmnc (cond : BitVec 4) (rd : BitVec 4) :
    EncodesInWidth.Statement (.mcrPmnc cond rd) :=
  put_lt (k := 28) _ _ (put_lt (k := 27) _ _ (put_lt (k := 24) _ _ (put_lt (k := 20) _ _ (put_lt (k := 16) _ _
    (put_lt (k := 12) _ _ (put_lt (k := 11) _ _ (put_lt (k := 8) _ _ (put_lt (k := 7) _ _ (put_lt (k := 4) _ _
    (cond.isLt))))))))))

theorem EncodesInWidth.mrcCcnt (cond : BitVec 4) (rd : BitVec 4) :
    EncodesInWidth.Statement (.mrcCcnt cond rd) :=
  put_lt (k := 28) _ _ (put_lt (k := 27) _ _ (put_lt (k := 24) _ _ (put_lt (k := 20) _ _ (put_lt (k := 16) _ _
    (put_lt (k := 12) _ _ (put_lt (k := 11) _ _ (put_lt (k := 8) _ _ (put_lt (k := 7) _ _ (put_lt (k := 4) _ _
    (cond.isLt))))))))))

theorem EncodesInWidth.mcrCcnt (cond : BitVec 4) (rd : BitVec 4) :
    EncodesInWidth.Statement (.mcrCcnt cond rd) :=
  put_lt (k := 28) _ _ (put_lt (k := 27) _ _ (put_lt (k := 24) _ _ (put_lt (k := 20) _ _ (put_lt (k := 16) _ _
    (put_lt (k := 12) _ _ (put_lt (k := 11) _ _ (put_lt (k := 8) _ _ (put_lt (k := 7) _ _ (put_lt (k := 4) _ _
    (cond.isLt))))))))))

theorem EncodesInWidth.mrcPmn0 (cond : BitVec 4) (rd : BitVec 4) :
    EncodesInWidth.Statement (.mrcPmn0 cond rd) :=
  put_lt (k := 28) _ _ (put_lt (k := 27) _ _ (put_lt (k := 24) _ _ (put_lt (k := 20) _ _ (put_lt (k := 16) _ _
    (put_lt (k := 12) _ _ (put_lt (k := 11) _ _ (put_lt (k := 8) _ _ (put_lt (k := 7) _ _ (put_lt (k := 4) _ _
    (cond.isLt))))))))))

theorem EncodesInWidth.mcrPmn0 (cond : BitVec 4) (rd : BitVec 4) :
    EncodesInWidth.Statement (.mcrPmn0 cond rd) :=
  put_lt (k := 28) _ _ (put_lt (k := 27) _ _ (put_lt (k := 24) _ _ (put_lt (k := 20) _ _ (put_lt (k := 16) _ _
    (put_lt (k := 12) _ _ (put_lt (k := 11) _ _ (put_lt (k := 8) _ _ (put_lt (k := 7) _ _ (put_lt (k := 4) _ _
    (cond.isLt))))))))))

theorem EncodesInWidth.mrcPmn1 (cond : BitVec 4) (rd : BitVec 4) :
    EncodesInWidth.Statement (.mrcPmn1 cond rd) :=
  put_lt (k := 28) _ _ (put_lt (k := 27) _ _ (put_lt (k := 24) _ _ (put_lt (k := 20) _ _ (put_lt (k := 16) _ _
    (put_lt (k := 12) _ _ (put_lt (k := 11) _ _ (put_lt (k := 8) _ _ (put_lt (k := 7) _ _ (put_lt (k := 4) _ _
    (cond.isLt))))))))))

theorem EncodesInWidth.mcrPmn1 (cond : BitVec 4) (rd : BitVec 4) :
    EncodesInWidth.Statement (.mcrPmn1 cond rd) :=
  put_lt (k := 28) _ _ (put_lt (k := 27) _ _ (put_lt (k := 24) _ _ (put_lt (k := 20) _ _ (put_lt (k := 16) _ _
    (put_lt (k := 12) _ _ (put_lt (k := 11) _ _ (put_lt (k := 8) _ _ (put_lt (k := 7) _ _ (put_lt (k := 4) _ _
    (cond.isLt))))))))))

theorem EncodesInWidth.mrcCclkcfg (cond : BitVec 4) (rd : BitVec 4) :
    EncodesInWidth.Statement (.mrcCclkcfg cond rd) :=
  put_lt (k := 28) _ _ (put_lt (k := 27) _ _ (put_lt (k := 24) _ _ (put_lt (k := 20) _ _ (put_lt (k := 16) _ _
    (put_lt (k := 12) _ _ (put_lt (k := 11) _ _ (put_lt (k := 8) _ _ (put_lt (k := 7) _ _ (put_lt (k := 4) _ _
    (cond.isLt))))))))))

theorem EncodesInWidth.mcrCclkcfg (cond : BitVec 4) (rd : BitVec 4) :
    EncodesInWidth.Statement (.mcrCclkcfg cond rd) :=
  put_lt (k := 28) _ _ (put_lt (k := 27) _ _ (put_lt (k := 24) _ _ (put_lt (k := 20) _ _ (put_lt (k := 16) _ _
    (put_lt (k := 12) _ _ (put_lt (k := 11) _ _ (put_lt (k := 8) _ _ (put_lt (k := 7) _ _ (put_lt (k := 4) _ _
    (cond.isLt))))))))))

theorem EncodesInWidth.mrcPwrmode (cond : BitVec 4) (rd : BitVec 4) :
    EncodesInWidth.Statement (.mrcPwrmode cond rd) :=
  put_lt (k := 28) _ _ (put_lt (k := 27) _ _ (put_lt (k := 24) _ _ (put_lt (k := 20) _ _ (put_lt (k := 16) _ _
    (put_lt (k := 12) _ _ (put_lt (k := 11) _ _ (put_lt (k := 8) _ _ (put_lt (k := 7) _ _ (put_lt (k := 4) _ _
    (cond.isLt))))))))))

theorem EncodesInWidth.mcrPwrmode (cond : BitVec 4) (rd : BitVec 4) :
    EncodesInWidth.Statement (.mcrPwrmode cond rd) :=
  put_lt (k := 28) _ _ (put_lt (k := 27) _ _ (put_lt (k := 24) _ _ (put_lt (k := 20) _ _ (put_lt (k := 16) _ _
    (put_lt (k := 12) _ _ (put_lt (k := 11) _ _ (put_lt (k := 8) _ _ (put_lt (k := 7) _ _ (put_lt (k := 4) _ _
    (cond.isLt))))))))))

theorem EncodesInWidth.mrcTx (cond : BitVec 4) (rd : BitVec 4) :
    EncodesInWidth.Statement (.mrcTx cond rd) :=
  put_lt (k := 28) _ _ (put_lt (k := 27) _ _ (put_lt (k := 24) _ _ (put_lt (k := 20) _ _ (put_lt (k := 16) _ _
    (put_lt (k := 12) _ _ (put_lt (k := 11) _ _ (put_lt (k := 8) _ _ (put_lt (k := 7) _ _ (put_lt (k := 4) _ _
    (cond.isLt))))))))))

theorem EncodesInWidth.mcrTx (cond : BitVec 4) (rd : BitVec 4) :
    EncodesInWidth.Statement (.mcrTx cond rd) :=
  put_lt (k := 28) _ _ (put_lt (k := 27) _ _ (put_lt (k := 24) _ _ (put_lt (k := 20) _ _ (put_lt (k := 16) _ _
    (put_lt (k := 12) _ _ (put_lt (k := 11) _ _ (put_lt (k := 8) _ _ (put_lt (k := 7) _ _ (put_lt (k := 4) _ _
    (cond.isLt))))))))))

theorem EncodesInWidth.mrcRx (cond : BitVec 4) (rd : BitVec 4) :
    EncodesInWidth.Statement (.mrcRx cond rd) :=
  put_lt (k := 28) _ _ (put_lt (k := 27) _ _ (put_lt (k := 24) _ _ (put_lt (k := 20) _ _ (put_lt (k := 16) _ _
    (put_lt (k := 12) _ _ (put_lt (k := 11) _ _ (put_lt (k := 8) _ _ (put_lt (k := 7) _ _ (put_lt (k := 4) _ _
    (cond.isLt))))))))))

theorem EncodesInWidth.mcrRx (cond : BitVec 4) (rd : BitVec 4) :
    EncodesInWidth.Statement (.mcrRx cond rd) :=
  put_lt (k := 28) _ _ (put_lt (k := 27) _ _ (put_lt (k := 24) _ _ (put_lt (k := 20) _ _ (put_lt (k := 16) _ _
    (put_lt (k := 12) _ _ (put_lt (k := 11) _ _ (put_lt (k := 8) _ _ (put_lt (k := 7) _ _ (put_lt (k := 4) _ _
    (cond.isLt))))))))))

theorem EncodesInWidth.mrcDcsr (cond : BitVec 4) (rd : BitVec 4) :
    EncodesInWidth.Statement (.mrcDcsr cond rd) :=
  put_lt (k := 28) _ _ (put_lt (k := 27) _ _ (put_lt (k := 24) _ _ (put_lt (k := 20) _ _ (put_lt (k := 16) _ _
    (put_lt (k := 12) _ _ (put_lt (k := 11) _ _ (put_lt (k := 8) _ _ (put_lt (k := 7) _ _ (put_lt (k := 4) _ _
    (cond.isLt))))))))))

theorem EncodesInWidth.mcrDcsr (cond : BitVec 4) (rd : BitVec 4) :
    EncodesInWidth.Statement (.mcrDcsr cond rd) :=
  put_lt (k := 28) _ _ (put_lt (k := 27) _ _ (put_lt (k := 24) _ _ (put_lt (k := 20) _ _ (put_lt (k := 16) _ _
    (put_lt (k := 12) _ _ (put_lt (k := 11) _ _ (put_lt (k := 8) _ _ (put_lt (k := 7) _ _ (put_lt (k := 4) _ _
    (cond.isLt))))))))))

theorem EncodesInWidth.mrcTbreg (cond : BitVec 4) (rd : BitVec 4) :
    EncodesInWidth.Statement (.mrcTbreg cond rd) :=
  put_lt (k := 28) _ _ (put_lt (k := 27) _ _ (put_lt (k := 24) _ _ (put_lt (k := 20) _ _ (put_lt (k := 16) _ _
    (put_lt (k := 12) _ _ (put_lt (k := 11) _ _ (put_lt (k := 8) _ _ (put_lt (k := 7) _ _ (put_lt (k := 4) _ _
    (cond.isLt))))))))))

theorem EncodesInWidth.mcrTbreg (cond : BitVec 4) (rd : BitVec 4) :
    EncodesInWidth.Statement (.mcrTbreg cond rd) :=
  put_lt (k := 28) _ _ (put_lt (k := 27) _ _ (put_lt (k := 24) _ _ (put_lt (k := 20) _ _ (put_lt (k := 16) _ _
    (put_lt (k := 12) _ _ (put_lt (k := 11) _ _ (put_lt (k := 8) _ _ (put_lt (k := 7) _ _ (put_lt (k := 4) _ _
    (cond.isLt))))))))))

theorem EncodesInWidth.mrcChkpt0 (cond : BitVec 4) (rd : BitVec 4) :
    EncodesInWidth.Statement (.mrcChkpt0 cond rd) :=
  put_lt (k := 28) _ _ (put_lt (k := 27) _ _ (put_lt (k := 24) _ _ (put_lt (k := 20) _ _ (put_lt (k := 16) _ _
    (put_lt (k := 12) _ _ (put_lt (k := 11) _ _ (put_lt (k := 8) _ _ (put_lt (k := 7) _ _ (put_lt (k := 4) _ _
    (cond.isLt))))))))))

theorem EncodesInWidth.mcrChkpt0 (cond : BitVec 4) (rd : BitVec 4) :
    EncodesInWidth.Statement (.mcrChkpt0 cond rd) :=
  put_lt (k := 28) _ _ (put_lt (k := 27) _ _ (put_lt (k := 24) _ _ (put_lt (k := 20) _ _ (put_lt (k := 16) _ _
    (put_lt (k := 12) _ _ (put_lt (k := 11) _ _ (put_lt (k := 8) _ _ (put_lt (k := 7) _ _ (put_lt (k := 4) _ _
    (cond.isLt))))))))))

theorem EncodesInWidth.mrcChkpt1 (cond : BitVec 4) (rd : BitVec 4) :
    EncodesInWidth.Statement (.mrcChkpt1 cond rd) :=
  put_lt (k := 28) _ _ (put_lt (k := 27) _ _ (put_lt (k := 24) _ _ (put_lt (k := 20) _ _ (put_lt (k := 16) _ _
    (put_lt (k := 12) _ _ (put_lt (k := 11) _ _ (put_lt (k := 8) _ _ (put_lt (k := 7) _ _ (put_lt (k := 4) _ _
    (cond.isLt))))))))))

theorem EncodesInWidth.mcrChkpt1 (cond : BitVec 4) (rd : BitVec 4) :
    EncodesInWidth.Statement (.mcrChkpt1 cond rd) :=
  put_lt (k := 28) _ _ (put_lt (k := 27) _ _ (put_lt (k := 24) _ _ (put_lt (k := 20) _ _ (put_lt (k := 16) _ _
    (put_lt (k := 12) _ _ (put_lt (k := 11) _ _ (put_lt (k := 8) _ _ (put_lt (k := 7) _ _ (put_lt (k := 4) _ _
    (cond.isLt))))))))))

theorem EncodesInWidth.mrcTxrxctrl (cond : BitVec 4) (rd : BitVec 4) :
    EncodesInWidth.Statement (.mrcTxrxctrl cond rd) :=
  put_lt (k := 28) _ _ (put_lt (k := 27) _ _ (put_lt (k := 24) _ _ (put_lt (k := 20) _ _ (put_lt (k := 16) _ _
    (put_lt (k := 12) _ _ (put_lt (k := 11) _ _ (put_lt (k := 8) _ _ (put_lt (k := 7) _ _ (put_lt (k := 4) _ _
    (cond.isLt))))))))))

theorem EncodesInWidth.mcrTxrxctrl (cond : BitVec 4) (rd : BitVec 4) :
    EncodesInWidth.Statement (.mcrTxrxctrl cond rd) :=
  put_lt (k := 28) _ _ (put_lt (k := 27) _ _ (put_lt (k := 24) _ _ (put_lt (k := 20) _ _ (put_lt (k := 16) _ _
    (put_lt (k := 12) _ _ (put_lt (k := 11) _ _ (put_lt (k := 8) _ _ (put_lt (k := 7) _ _ (put_lt (k := 4) _ _
    (cond.isLt))))))))))

theorem EncodesInWidth.tLsl1 (imm5 : BitVec 5) (rm : BitVec 3) (rd : BitVec 3) :
    EncodesInWidth.Statement (.tLsl1 imm5 rm rd) :=
  put_lt (k := 13) _ _ (put_lt (k := 10) _ _ (put_lt (k := 5) _ _ ((by decide : 0 < 2 ^ 5))))

theorem EncodesInWidth.tLsr1 (imm5 : BitVec 5) (rm : BitVec 3) (rd : BitVec 3) :
    EncodesInWidth.Statement (.tLsr1 imm5 rm rd) :=
  put_lt (k := 13) _ _ (put_lt (k := 10) _ _ (put_lt (k := 5) _ _ ((by decide : 1 < 2 ^ 5))))

theorem EncodesInWidth.tAsr1 (imm5 : BitVec 5) (rm : BitVec 3) (rd : BitVec 3) :
    EncodesInWidth.Statement (.tAsr1 imm5 rm rd) :=
  put_lt (k := 13) _ _ (put_lt (k := 10) _ _ (put_lt (k := 5) _ _ ((by decide : 2 < 2 ^ 5))))

theorem EncodesInWidth.tAdd3 (rm : BitVec 3) (rn : BitVec 3) (rd : BitVec 3) :
    EncodesInWidth.Statement (.tAdd3 rm rn rd) :=
  put_lt (k := 13) _ _ (put_lt (k := 10) _ _ (put_lt (k := 7) _ _ (put_lt (k := 6) _ _ (put_lt (k := 5) _ _ ((by
    decide : 3 < 2 ^ 5))))))

theorem EncodesInWidth.tSub3 (rm : BitVec 3) (rn : BitVec 3) (rd : BitVec 3) :
    EncodesInWidth.Statement (.tSub3 rm rn rd) :=
  put_lt (k := 13) _ _ (put_lt (k := 10) _ _ (put_lt (k := 7) _ _ (put_lt (k := 6) _ _ (put_lt (k := 5) _ _ ((by
    decide : 3 < 2 ^ 5))))))

theorem EncodesInWidth.tAdd1 (imm3 : BitVec 3) (rn : BitVec 3) (rd : BitVec 3) :
    EncodesInWidth.Statement (.tAdd1 imm3 rn rd) :=
  put_lt (k := 13) _ _ (put_lt (k := 10) _ _ (put_lt (k := 7) _ _ (put_lt (k := 6) _ _ (put_lt (k := 5) _ _ ((by
    decide : 3 < 2 ^ 5))))))

theorem EncodesInWidth.tSub1 (imm3 : BitVec 3) (rn : BitVec 3) (rd : BitVec 3) :
    EncodesInWidth.Statement (.tSub1 imm3 rn rd) :=
  put_lt (k := 13) _ _ (put_lt (k := 10) _ _ (put_lt (k := 7) _ _ (put_lt (k := 6) _ _ (put_lt (k := 5) _ _ ((by
    decide : 3 < 2 ^ 5))))))

theorem EncodesInWidth.tMov1 (rd : BitVec 3) (imm8 : BitVec 8) :
    EncodesInWidth.Statement (.tMov1 rd imm8) :=
  put_lt (k := 8) _ _ (put_lt (k := 5) _ _ ((by decide : 4 < 2 ^ 5)))

theorem EncodesInWidth.tCmp1 (rn : BitVec 3) (imm8 : BitVec 8) :
    EncodesInWidth.Statement (.tCmp1 rn imm8) :=
  put_lt (k := 8) _ _ (put_lt (k := 5) _ _ ((by decide : 5 < 2 ^ 5)))

theorem EncodesInWidth.tAdd2 (rd : BitVec 3) (imm8 : BitVec 8) :
    EncodesInWidth.Statement (.tAdd2 rd imm8) :=
  put_lt (k := 8) _ _ (put_lt (k := 5) _ _ ((by decide : 6 < 2 ^ 5)))

theorem EncodesInWidth.tSub2 (rd : BitVec 3) (imm8 : BitVec 8) :
    EncodesInWidth.Statement (.tSub2 rd imm8) :=
  put_lt (k := 8) _ _ (put_lt (k := 5) _ _ ((by decide : 7 < 2 ^ 5)))

theorem EncodesInWidth.tAnd (rm : BitVec 3) (rd : BitVec 3) :
    EncodesInWidth.Statement (.tAnd rm rd) :=
  put_lt (k := 13) _ _ (put_lt (k := 10) _ _ (put_lt (k := 6) _ _ (put_lt (k := 5) _ _ ((by decide : 8 < 2 ^
    5)))))

theorem EncodesInWidth.tEor (rm : BitVec 3) (rd : BitVec 3) :
    EncodesInWidth.Statement (.tEor rm rd) :=
  put_lt (k := 13) _ _ (put_lt (k := 10) _ _ (put_lt (k := 6) _ _ (put_lt (k := 5) _ _ ((by decide : 8 < 2 ^
    5)))))

theorem EncodesInWidth.tLsl2 (rs : BitVec 3) (rd : BitVec 3) :
    EncodesInWidth.Statement (.tLsl2 rs rd) :=
  put_lt (k := 13) _ _ (put_lt (k := 10) _ _ (put_lt (k := 6) _ _ (put_lt (k := 5) _ _ ((by decide : 8 < 2 ^
    5)))))

theorem EncodesInWidth.tLsr2 (rs : BitVec 3) (rd : BitVec 3) :
    EncodesInWidth.Statement (.tLsr2 rs rd) :=
  put_lt (k := 13) _ _ (put_lt (k := 10) _ _ (put_lt (k := 6) _ _ (put_lt (k := 5) _ _ ((by decide : 8 < 2 ^
    5)))))

theorem EncodesInWidth.tAsr2 (rs : BitVec 3) (rd : BitVec 3) :
    EncodesInWidth.Statement (.tAsr2 rs rd) :=
  put_lt (k := 13) _ _ (put_lt (k := 10) _ _ (put_lt (k := 6) _ _ (put_lt (k := 5) _ _ ((by decide : 8 < 2 ^
    5)))))

theorem EncodesInWidth.tAdc (rm : BitVec 3) (rd : BitVec 3) :
    EncodesInWidth.Statement (.tAdc rm rd) :=
  put_lt (k := 13) _ _ (put_lt (k := 10) _ _ (put_lt (k := 6) _ _ (put_lt (k := 5) _ _ ((by decide : 8 < 2 ^
    5)))))

theorem EncodesInWidth.tSbc (rm : BitVec 3) (rd : BitVec 3) :
    EncodesInWidth.Statement (.tSbc rm rd) :=
  put_lt (k := 13) _ _ (put_lt (k := 10) _ _ (put_lt (k := 6) _ _ (put_lt (k := 5) _ _ ((by decide : 8 < 2 ^
    5)))))

theorem EncodesInWidth.tRor (rs : BitVec 3) (rd : BitVec 3) :
    EncodesInWidth.Statement (.tRor rs rd) :=
  put_lt (k := 13) _ _ (put_lt (k := 10) _ _ (put_lt (k := 6) _ _ (put_lt (k := 5) _ _ ((by decide : 8 < 2 ^
    5)))))

theorem EncodesInWidth.tTst (rm : BitVec 3) (rn : BitVec 3) :
    EncodesInWidth.Statement (.tTst rm rn) :=
  put_lt (k := 13) _ _ (put_lt (k := 10) _ _ (put_lt (k := 6) _ _ (put_lt (k := 5) _ _ ((by decide : 8 < 2 ^
    5)))))

theorem EncodesInWidth.tNeg (rm : BitVec 3) (rd : BitVec 3) :
    EncodesInWidth.Statement (.tNeg rm rd) :=
  put_lt (k := 13) _ _ (put_lt (k := 10) _ _ (put_lt (k := 6) _ _ (put_lt (k := 5) _ _ ((by decide : 8 < 2 ^
    5)))))

theorem EncodesInWidth.tCmp2 (rm : BitVec 3) (rn : BitVec 3) :
    EncodesInWidth.Statement (.tCmp2 rm rn) :=
  put_lt (k := 13) _ _ (put_lt (k := 10) _ _ (put_lt (k := 6) _ _ (put_lt (k := 5) _ _ ((by decide : 8 < 2 ^
    5)))))

theorem EncodesInWidth.tCmn (rm : BitVec 3) (rn : BitVec 3) :
    EncodesInWidth.Statement (.tCmn rm rn) :=
  put_lt (k := 13) _ _ (put_lt (k := 10) _ _ (put_lt (k := 6) _ _ (put_lt (k := 5) _ _ ((by decide : 8 < 2 ^
    5)))))

theorem EncodesInWidth.tOrr (rm : BitVec 3) (rd : BitVec 3) :
    EncodesInWidth.Statement (.tOrr rm rd) :=
  put_lt (k := 13) _ _ (put_lt (k := 10) _ _ (put_lt (k := 6) _ _ (put_lt (k := 5) _ _ ((by decide : 8 < 2 ^
    5)))))

theorem EncodesInWidth.tMul (rm : BitVec 3) (rd : BitVec 3) :
    EncodesInWidth.Statement (.tMul rm rd) :=
  put_lt (k := 13) _ _ (put_lt (k := 10) _ _ (put_lt (k := 6) _ _ (put_lt (k := 5) _ _ ((by decide : 8 < 2 ^
    5)))))

theorem EncodesInWidth.tBic (rm : BitVec 3) (rd : BitVec 3) :
    EncodesInWidth.Statement (.tBic rm rd) :=
  put_lt (k := 13) _ _ (put_lt (k := 10) _ _ (put_lt (k := 6) _ _ (put_lt (k := 5) _ _ ((by decide : 8 < 2 ^
    5)))))

theorem EncodesInWidth.tMvn (rm : BitVec 3) (rd : BitVec 3) :
    EncodesInWidth.Statement (.tMvn rm rd) :=
  put_lt (k := 13) _ _ (put_lt (k := 10) _ _ (put_lt (k := 6) _ _ (put_lt (k := 5) _ _ ((by decide : 8 < 2 ^
    5)))))

theorem EncodesInWidth.tAdd4 (h1 : Bool) (h2 : Bool) (rm : BitVec 3) (rd : BitVec 3) :
    EncodesInWidth.Statement (.tAdd4 h1 h2 rm rd) :=
  put_lt (k := 13) _ _ (put_lt (k := 10) _ _ (putBit_lt (k := 9) _ _ (putBit_lt (k := 8) _ _ (put_lt (k := 7) _
    _ (put_lt (k := 6) _ _ (put_lt (k := 5) _ _ ((by decide : 8 < 2 ^ 5))))))))

theorem EncodesInWidth.tCmp3 (h1 : Bool) (h2 : Bool) (rm : BitVec 3) (rn : BitVec 3) :
    EncodesInWidth.Statement (.tCmp3 h1 h2 rm rn) :=
  put_lt (k := 13) _ _ (put_lt (k := 10) _ _ (putBit_lt (k := 9) _ _ (putBit_lt (k := 8) _ _ (put_lt (k := 7) _
    _ (put_lt (k := 6) _ _ (put_lt (k := 5) _ _ ((by decide : 8 < 2 ^ 5))))))))

theorem EncodesInWidth.tMov3 (h1 : Bool) (h2 : Bool) (rm : BitVec 3) (rd : BitVec 3) :
    EncodesInWidth.Statement (.tMov3 h1 h2 rm rd) :=
  put_lt (k := 13) _ _ (put_lt (k := 10) _ _ (putBit_lt (k := 9) _ _ (putBit_lt (k := 8) _ _ (put_lt (k := 7) _
    _ (put_lt (k := 6) _ _ (put_lt (k := 5) _ _ ((by decide : 8 < 2 ^ 5))))))))

theorem EncodesInWidth.tBx (h2 : Bool) (rm : BitVec 3) :
    EncodesInWidth.Statement (.tBx h2 rm) :=
  put_lt (k := 15) _ _ (put_lt (k := 13) _ _ (put_lt (k := 10) _ _ (putBit_lt (k := 9) _ _ (put_lt (k := 8) _ _
    (put_lt (k := 7) _ _ (put_lt (k := 6) _ _ (put_lt (k := 5) _ _ ((by decide : 8 < 2 ^ 5)))))))))

theorem EncodesInWidth.tBlx2 (h2 : Bool) (rm : BitVec 3) :
    EncodesInWidth.Statement (.tBlx2 h2 rm) :=
  put_lt (k := 15) _ _ (put_lt (k := 13) _ _ (put_lt (k := 10) _ _ (putBit_lt (k := 9) _ _ (put_lt (k := 8) _ _
    (put_lt (k := 7) _ _ (put_lt (k := 6) _ _ (put_lt (k := 5) _ _ ((by decide : 8 < 2 ^ 5)))))))))

theorem EncodesInWidth.tLdr3 (rd : BitVec 3) (imm8 : BitVec 8) :
    EncodesInWidth.Statement (.tLdr3 rd imm8) :=
  put_lt (k := 8) _ _ (put_lt (k := 5) _ _ ((by decide : 9 < 2 ^ 5)))

theorem EncodesInWidth.tStr2 (rm : BitVec 3) (rn : BitVec 3) (rd : BitVec 3) :
    EncodesInWidth.Statement (.tStr2 rm rn rd) :=
  put_lt (k := 13) _ _ (put_lt (k := 10) _ _ (put_lt (k := 7) _ _ (put_lt (k := 6) _ _ (put_lt (k := 5) _ _ ((by
    decide : 10 < 2 ^ 5))))))

theorem EncodesInWidth.tStrh2 (rm : BitVec 3) (rn : BitVec 3) (rd : BitVec 3) :
    EncodesInWidth.Statement (.tStrh2 rm rn rd) :=
  put_lt (k := 13) _ _ (put_lt (k := 10) _ _ (put_lt (k := 7) _ _ (put_lt (k := 6) _ _ (put_lt (k := 5) _ _ ((by
    decide : 10 < 2 ^ 5))))))

theorem EncodesInWidth.tStrb2 (rm : BitVec 3) (rn : BitVec 3) (rd : BitVec 3) :
    EncodesInWidth.Statement (.tStrb2 rm rn rd) :=
  put_lt (k := 13) _ _ (put_lt (k := 10) _ _ (put_lt (k := 7) _ _ (put_lt (k := 6) _ _ (put_lt (k := 5) _ _ ((by
    decide : 10 < 2 ^ 5))))))

theorem EncodesInWidth.tLdrsb (rm : BitVec 3) (rn : BitVec 3) (rd : BitVec 3) :
    EncodesInWidth.Statement (.tLdrsb rm rn rd) :=
  put_lt (k := 13) _ _ (put_lt (k := 10) _ _ (put_lt (k := 7) _ _ (put_lt (k := 6) _ _ (put_lt (k := 5) _ _ ((by
    decide : 10 < 2 ^ 5))))))

theorem EncodesInWidth.tLdr2 (rm : BitVec 3) (rn : BitVec 3) (rd : BitVec 3) :
    EncodesInWidth.Statement (.tLdr2 rm rn rd) :=
  put_lt (k := 13) _ _ (put_lt (k := 10) _ _ (put_lt (k := 7) _ _ (put_lt (k := 6) _ _ (put_lt (k := 5) _ _ ((by
    decide : 11 < 2 ^ 5))))))

theorem EncodesInWidth.tLdrh2 (rm : BitVec 3) (rn : BitVec 3) (rd : BitVec 3) :
    EncodesInWidth.Statement (.tLdrh2 rm rn rd) :=
  put_lt (k := 13) _ _ (put_lt (k := 10) _ _ (put_lt (k := 7) _ _ (put_lt (k := 6) _ _ (put_lt (k := 5) _ _ ((by
    decide : 11 < 2 ^ 5))))))

theorem EncodesInWidth.tLdrb2 (rm : BitVec 3) (rn : BitVec 3) (rd : BitVec 3) :
    EncodesInWidth.Statement (.tLdrb2 rm rn rd) :=
  put_lt (k := 13) _ _ (put_lt (k := 10) _ _ (put_lt (k := 7) _ _ (put_lt (k := 6) _ _ (put_lt (k := 5) _ _ ((by
    decide : 11 < 2 ^ 5))))))

theorem EncodesInWidth.tLdrsh (rm : BitVec 3) (rn : BitVec 3) (rd : BitVec 3) :
    EncodesInWidth.Statement (.tLdrsh rm rn rd) :=
  put_lt (k := 13) _ _ (put_lt (k := 10) _ _ (put_lt (k := 7) _ _ (put_lt (k := 6) _ _ (put_lt (k := 5) _ _ ((by
    decide : 11 < 2 ^ 5))))))

theorem EncodesInWidth.tStr1 (imm5 : BitVec 5) (rn : BitVec 3) (rd : BitVec 3) :
    EncodesInWidth.Statement (.tStr1 imm5 rn rd) :=
  put_lt (k := 13) _ _ (put_lt (k := 10) _ _ (put_lt (k := 5) _ _ ((by decide : 12 < 2 ^ 5))))

theorem EncodesInWidth.tLdr1 (imm5 : BitVec 5) (rn : BitVec 3) (rd : BitVec 3) :
    EncodesInWidth.Statement (.tLdr1 imm5 rn rd) :=
  put_lt (k := 13) _ _ (put_lt (k := 10) _ _ (put_lt (k := 5) _ _ ((by decide : 13 < 2 ^ 5))))

theorem EncodesInWidth.tStrb1 (imm5 : BitVec 5) (rn : BitVec 3) (rd : BitVec 3) :
    EncodesInWidth.Statement (.tStrb1 imm5 rn rd) :=
  put_lt (k := 13) _ _ (put_lt (k := 10) _ _ (put_lt (k := 5) _ _ ((by decide : 14 < 2 ^ 5))))

theorem EncodesInWidth.tLdrb1 (imm5 : BitVec 5) (rn : BitVec 3) (rd : BitVec 3) :
    EncodesInWidth.Statement (.tLdrb1 imm5 rn rd) :=
  put_lt (k := 13) _ _ (put_lt (k := 10) _ _ (put_lt (k := 5) _ _ ((by decide : 15 < 2 ^ 5))))

theorem EncodesInWidth.tStrh1 (imm5 : BitVec 5) (rn : BitVec 3) (rd : BitVec 3) :
    EncodesInWidth.Statement (.tStrh1 imm5 rn rd) :=
  put_lt (k := 13) _ _ (put_lt (k := 10) _ _ (put_lt (k := 5) _ _ ((by decide : 16 < 2 ^ 5))))

theorem EncodesInWidth.tLdrh1 (imm5 : BitVec 5) (rn : BitVec 3) (rd : BitVec 3) :
    EncodesInWidth.Statement (.tLdrh1 imm5 rn rd) :=
  put_lt (k := 13) _ _ (put_lt (k := 10) _ _ (put_lt (k := 5) _ _ ((by decide : 17 < 2 ^ 5))))

theorem EncodesInWidth.tStr3 (rd : BitVec 3) (imm8 : BitVec 8) :
    EncodesInWidth.Statement (.tStr3 rd imm8) :=
  put_lt (k := 8) _ _ (put_lt (k := 5) _ _ ((by decide : 18 < 2 ^ 5)))

theorem EncodesInWidth.tLdr4 (rd : BitVec 3) (imm8 : BitVec 8) :
    EncodesInWidth.Statement (.tLdr4 rd imm8) :=
  put_lt (k := 8) _ _ (put_lt (k := 5) _ _ ((by decide : 19 < 2 ^ 5)))

theorem EncodesInWidth.tAdd5 (rd : BitVec 3) (imm8 : BitVec 8) :
    EncodesInWidth.Statement (.tAdd5 rd imm8) :=
  put_lt (k := 8) _ _ (put_lt (k := 5) _ _ ((by decide : 20 < 2 ^ 5)))

theorem EncodesInWidth.tAdd6 (rd : BitVec 3) (imm8 : BitVec 8) :
    EncodesInWidth.Statement (.tAdd6 rd imm8) :=
  put_lt (k := 8) _ _ (put_lt (k := 5) _ _ ((by decide : 21 < 2 ^ 5)))

theorem EncodesInWidth.tAdd7 (imm7 : BitVec 7) :
    EncodesInWidth.Statement (.tAdd7 imm7) :=
  put_lt (k := 9) _ _ (put_lt (k := 8) _ _ (put_lt (k := 7) _ _ (put_lt (k := 6) _ _ (put_lt (k := 5) _ _ ((by
    decide : 22 < 2 ^ 5))))))

theorem EncodesInWidth.tSub4 (imm7 : BitVec 7) :
    EncodesInWidth.Statement (.tSub4 imm7) :=
  put_lt (k := 9) _ _ (put_lt (k := 8) _ _ (put_lt (k := 7) _ _ (put_lt (k := 6) _ _ (put_lt (k := 5) _ _ ((by
    decide : 22 < 2 ^ 5))))))

theorem EncodesInWidth.tPush (r : Bool) (list : BitVec 8) :
    EncodesInWidth.Statement (.tPush r list) :=
  put_lt (k := 8) _ _ (putBit_lt (k := 7) _ _ (put_lt (k := 6) _ _ (put_lt (k := 5) _ _ ((by decide : 22 < 2 ^
    5)))))

theorem EncodesInWidth.tPop (r : Bool) (list : BitVec 8) :
    EncodesInWidth.Statement (.tPop r list) :=
  put_lt (k := 8) _ _ (putBit_lt (k := 7) _ _ (put_lt (k := 6) _ _ (put_lt (k := 5) _ _ ((by decide : 23 < 2 ^
    5)))))

theorem EncodesInWidth.tBkpt (imm8 : BitVec 8) :
    EncodesInWidth.Statement (.tBkpt imm8) :=
  put_lt (k := 8) _ _ (put_lt (k := 7) _ _ (put_lt (k := 6) _ _ (put_lt (k := 5) _ _ ((by decide : 23 < 2 ^
    5)))))

theorem EncodesInWidth.tUndefB1 (x : BitVec 8) :
    EncodesInWidth.Statement (.tUndefB1 x) :=
  put_lt (k := 8) _ _ (put_lt (k := 7) _ _ (put_lt (k := 6) _ _ (put_lt (k := 5) _ _ ((by decide : 22 < 2 ^
    5)))))

theorem EncodesInWidth.tUndefB2 (x : BitVec 8) :
    EncodesInWidth.Statement (.tUndefB2 x) :=
  put_lt (k := 8) _ _ (put_lt (k := 7) _ _ (put_lt (k := 6) _ _ (put_lt (k := 5) _ _ ((by decide : 22 < 2 ^
    5)))))

theorem EncodesInWidth.tUndefB3 (x : BitVec 8) :
    EncodesInWidth.Statement (.tUndefB3 x) :=
  put_lt (k := 8) _ _ (put_lt (k := 7) _ _ (put_lt (k := 6) _ _ (put_lt (k := 5) _ _ ((by decide : 22 < 2 ^
    5)))))

theorem EncodesInWidth.tUndefB6 (x : BitVec 8) :
    EncodesInWidth.Statement (.tUndefB6 x) :=
  put_lt (k := 8) _ _ (put_lt (k := 7) _ _ (put_lt (k := 6) _ _ (put_lt (k := 5) _ _ ((by decide : 22 < 2 ^
    5)))))

theorem EncodesInWidth.tUndefB7 (x : BitVec 8) :
    EncodesInWidth.Statement (.tUndefB7 x) :=
  put_lt (k := 8) _ _ (put_lt (k := 7) _ _ (put_lt (k := 6) _ _ (put_lt (k := 5) _ _ ((by decide : 22 < 2 ^
    5)))))

theorem EncodesInWidth.tUndefB8 (x : BitVec 10) :
    EncodesInWidth.Statement (.tUndefB8 x) :=
  put_lt (k := 6) _ _ (put_lt (k := 5) _ _ ((by decide : 23 < 2 ^ 5)))

theorem EncodesInWidth.tUndefBF (x : BitVec 8) :
    EncodesInWidth.Statement (.tUndefBF x) :=
  put_lt (k := 8) _ _ (put_lt (k := 7) _ _ (put_lt (k := 6) _ _ (put_lt (k := 5) _ _ ((by decide : 23 < 2 ^
    5)))))

theorem EncodesInWidth.tStmia (rn : BitVec 3) (list : BitVec 8) :
    EncodesInWidth.Statement (.tStmia rn list) :=
  put_lt (k := 8) _ _ (put_lt (k := 5) _ _ ((by decide : 24 < 2 ^ 5)))

theorem EncodesInWidth.tLdmia (rn : BitVec 3) (list : BitVec 8) :
    EncodesInWidth.Statement (.tLdmia rn list) :=
  put_lt (k := 8) _ _ (put_lt (k := 5) _ _ ((by decide : 25 < 2 ^ 5)))

theorem EncodesInWidth.tB1Low (condLo : BitVec 3) (imm8 : BitVec 8) :
    EncodesInWidth.Statement (.tB1Low condLo imm8) :=
  put_lt (k := 8) _ _ (put_lt (k := 5) _ _ ((by decide : 26 < 2 ^ 5)))

theorem EncodesInWidth.tB1Mid (condLo : BitVec 2) (imm8 : BitVec 8) :
    EncodesInWidth.Statement (.tB1Mid condLo imm8) :=
  put_lt (k := 8) _ _ (put_lt (k := 6) _ _ (put_lt (k := 5) _ _ ((by decide : 27 < 2 ^ 5))))

theorem EncodesInWidth.tB1High (condLo : Bool) (imm8 : BitVec 8) :
    EncodesInWidth.Statement (.tB1High condLo imm8) :=
  put_lt (k := 8) _ _ (putBit_lt (k := 7) _ _ (put_lt (k := 6) _ _ (put_lt (k := 5) _ _ ((by decide : 27 < 2 ^
    5)))))

theorem EncodesInWidth.tUndefDE (imm8 : BitVec 8) :
    EncodesInWidth.Statement (.tUndefDE imm8) :=
  put_lt (k := 8) _ _ (put_lt (k := 7) _ _ (put_lt (k := 6) _ _ (put_lt (k := 5) _ _ ((by decide : 27 < 2 ^
    5)))))

theorem EncodesInWidth.tSwi (imm8 : BitVec 8) :
    EncodesInWidth.Statement (.tSwi imm8) :=
  put_lt (k := 8) _ _ (put_lt (k := 7) _ _ (put_lt (k := 6) _ _ (put_lt (k := 5) _ _ ((by decide : 27 < 2 ^
    5)))))

theorem EncodesInWidth.tB2 (imm11 : BitVec 11) :
    EncodesInWidth.Statement (.tB2 imm11) :=
  put_lt (k := 5) _ _ ((by decide : 28 < 2 ^ 5))

theorem EncodesInWidth.tBlxSuffix (off10 : BitVec 10) :
    EncodesInWidth.Statement (.tBlxSuffix off10) :=
  put_lt (k := 15) _ _ (put_lt (k := 5) _ _ ((by decide : 29 < 2 ^ 5)))

theorem EncodesInWidth.tUndefE801 (x : BitVec 10) :
    EncodesInWidth.Statement (.tUndefE801 x) :=
  put_lt (k := 15) _ _ (put_lt (k := 5) _ _ ((by decide : 29 < 2 ^ 5)))

theorem EncodesInWidth.tBlPrefix (off11 : BitVec 11) :
    EncodesInWidth.Statement (.tBlPrefix off11) :=
  put_lt (k := 5) _ _ ((by decide : 30 < 2 ^ 5))

theorem EncodesInWidth.tBlSuffix (off11 : BitVec 11) :
    EncodesInWidth.Statement (.tBlSuffix off11) :=
  put_lt (k := 5) _ _ ((by decide : 31 < 2 ^ 5))

end Sys2Proof.Laws
end

