-- ==== Sys2Proof/Laws/PlainData.lean ====
section
/-!
SUPPORT. MemRead, MemWrite and the accesses of a swap where data accesses are plain: the value that is read, the bytes that are written, and
the state after.
-/

namespace Sys2Proof.Machine

variable {s : State}

theorem plainData_iff : s.plainData = true ↔ s.mmuOn = false ∧ s.dcache.lines = [] ∧ s.miniDc.lines = [] ∧
    s.writeBuffer = [] ∧ s.physMap = [] ∧ s.between = [] ∧ Memory.wf s.mem = true ∧ s.debugOn = false ∧ s.inDebug = false := by
  simp [State.plainData, List.isEmpty_iff, and_assoc]

/-- The PID remap leaves the low 25 bits. -/
theorem mva_getLsbD (s : State) (va : Word) {i : Nat} (h : i < 25) : (s.mva va).getLsbD i = va.getLsbD i := by
  unfold State.mva
  split
  · simp only [BitVec.getLsbD_append, h, decide_true, BitVec.getLsbD_extractLsb', Nat.zero_add, Bool.true_and]
    simp
  · rfl

theorem mva_low (s : State) (va : Word) {n : Nat} (h : n ≤ 25) :
    (s.mva va).extractLsb' 0 n = va.extractLsb' 0 n := by
  apply BitVec.eq_of_getLsbD_eq
  intro i hi
  simp only [BitVec.getLsbD_extractLsb', Nat.zero_add, hi, decide_true, Bool.true_and]
  exact mva_getLsbD s va (by omega)

/-- With debugging disabled no data breakpoint is noted. -/
theorem noteBreak_of_debugOff (h : s.debugOn = false) (a : Word) (n : Nat) (store : Bool) : s.noteBreak a n store = s := by
  have : s.dataBreakHit a n store = false := by simp [State.dataBreakHit, h]
  simp only [State.noteBreak, this, Bool.or_false]

/-- The first lane of an access with the MMU off. -/
def State.plainLane (s : State) (va : Word) (n : Nat) : Word :=
  laneOf s.bigEndian (if n = 4 then s.mva va &&& 0xFFFFFFFC#32 else s.mva va) n

theorem lanes_eq (s : State) (va : Word) (n : Nat) :
    s.lanes va n = (List.range n).map (laneAddr (s.plainLane va n)) := rfl

/-- The place of an access with the MMU off (20_memory.md R125, R131). -/
theorem dataPlace_plain (hm : s.mmuOn = false) (hd : s.debugOn = false) {va : Word} {n : Nat}
    (ha : s.alignedFor va n = true) (priv write store : Bool) :
    dataPlace va n priv write store s =
      .ok (s.plainLane va n, s.plainLane va n, { x := false, c := false, b := false }) s := by
  have h0 := mva_getLsbD s va (i := 0) (by omega)
  have h2 := mva_low s va (n := 2) (by omega)
  unfold dataPlace
  simp only [bind, EStateM.bind, get, getThe, MonadStateOf.get, EStateM.get, h0, h2]
  simp only [State.alignedFor, Bool.and_eq_true, Bool.not_eq_true', Bool.and_eq_false_iff] at ha
  have hx : (n == 2) = false ∨ (n == 4) = false := by
    rcases eq_or_ne n 2 with e | e
    · subst e; exact .inr rfl
    · exact .inl (by simpa using e)
  have e1 : ((n == 2 && va.getLsbD 0 || n == 4 && va.extractLsb' 0 2 != 0#2) && s.alignCheck) = false := by
    revert ha
    generalize (n == 2) = p, va.getLsbD 0 = q, (n == 4) = u, s.alignCheck = w, (va.extractLsb' 0 2 != 0#2) = v
    cases p <;> cases q <;> cases u <;> cases w <;> cases v <;> decide
  have e2 : ((n == 2 && va.getLsbD 0 || n == 4 && va.extractLsb' 0 2 != 0#2) && n == 2) = false := by
    revert ha hx
    generalize (n == 2) = p, va.getLsbD 0 = q, (n == 4) = u, s.alignCheck = w, (va.extractLsb' 0 2 != 0#2) = v
    cases p <;> cases q <;> cases u <;> cases w <;> cases v <;> decide
  simp only [e1, e2, Bool.false_eq_true, if_false, translateData, bind, EStateM.bind, get, getThe, MonadStateOf.get,
    EStateM.get, hm, pure, EStateM.pure, modify, modifyGet, MonadStateOf.modifyGet, EStateM.modifyGet,
    noteBreak_of_debugOff hd]
  rfl

theorem regionAt_plain (h : s.physMap = []) (a : Word) (n : Nat) : s.regionAt a n = none := by
  simp [State.regionAt, mapAt, h]

/-- Whatever follows it, the first region of a map says what answers the accesses that it answers: memory for some widths
and an error for the others, where the rest of the map says nothing of this place (20_memory.md R135). -/
theorem mapAt_cons (r : Region) (map : List Region) (a n : Nat) :
    mapAt (r :: map) a n =
      if r.answers a n then r.kind
      else if r.meets a n && !(map.any fun q => q.answers a n) then .busError else mapAt map a n := by
  by_cases h : r.answers a n = true
  · simp [mapAt, h]
  · cases hf : map.find? fun q => q.answers a n with
    | none =>
      have hn : (map.any fun q => q.answers a n) = false := by
        rw [Bool.eq_false_iff]
        intro ha
        obtain ⟨q, hq, hqa⟩ := List.any_eq_true.mp ha
        exact absurd hqa (by simpa using List.find?_eq_none.mp hf q hq)
      cases hm : r.meets a n <;> simp [mapAt, h, hf, hn, hm]
    | some q =>
      have hy : (map.any fun q => q.answers a n) = true :=
        List.any_eq_true.mpr ⟨q, List.mem_of_find?_eq_some hf, by simpa using List.find?_some hf⟩
      simp [mapAt, h, hf, hy]

theorem findDLine_plain (h : s.dcache.lines = []) (h' : s.miniDc.lines = []) (a : Word) : s.findDLine a = none := by
  simp [State.findDLine, State.lineIn, h, h']

theorem reservedAttrs_plain (s : State) : s.reservedAttrs { x := false, c := false, b := false } = false := by
  simp [State.reservedAttrs, Attrs.mini]

/-- A load that nothing intercepts: the bytes of the lanes, and the count of the access. -/
theorem loadBytes_plain (h : s.plainData = true) (a : Word) (n : Nat) :
    loadBytes a a { x := false, c := false, b := false } n s =
      .ok (some (s.busBytes a n)) (s.noteAccess true) := by
  obtain ⟨hm, hc, hi, hw, hp, -⟩ := plainData_iff.1 h
  unfold loadBytes
  simp only [bind, EStateM.bind, modify, modifyGet, MonadStateOf.modifyGet, EStateM.modifyGet, fence_of_empty hw, get, getThe, MonadStateOf.get, EStateM.get, reservedAttrs_plain, findDLine_plain hc hi,
    State.cacheable, hm, Bool.false_eq_true, if_false, Bool.false_and, set, MonadStateOf.set, EStateM.set, loadBus, busRead,
    fence_of_empty (show (s.noteAccess true).writeBuffer = [] from hw)]
  have hr : (s.noteAccess true).regionAt a n = none := regionAt_plain hp a n
  simp only [hr, pure]
  rfl

/-- A load where accesses are plain, whether or not it may abort: what it makes of the lanes' bytes. -/
theorem memReadRaw_plain (h : s.plainData = true) {va : Word} {n : Nat} (ha : s.alignedFor va n = true) (priv : Bool)
    (f : List Byte → Word) :
    memReadRaw f va n priv s = .ok (f ((s.lanes va n).map s.dataByte)) (s.noteAccess true) := by
  obtain ⟨hm, hc, hi, hw, hp, hx, hf, hd, hb⟩ := plainData_iff.1 h
  have e : (s.busBytes (s.plainLane va n) n) = (s.lanes va n).map s.dataByte := by
    rw [lanes_eq, List.map_map]; rfl
  unfold memReadRaw
  simp only [bind, EStateM.bind, dataPlace_plain hm hd ha, loadBytes_plain h, loadedValue, pure, EStateM.pure, e]

theorem memReadAs_plain (h : s.plainData = true) {va : Word} {n : Nat} (ha : s.alignedFor va n = true) (priv : Bool)
    (f : List Byte → Word) :
    memReadAs f va n priv s = .ok (f ((s.lanes va n).map s.dataByte)) (s.noteAccess true) := by
  unfold memReadAs ignoreAbortInSds
  rw [memReadRaw_plain h ha]

/-- MemRead where accesses are plain: the value of the lanes (20_memory.md R150). -/
theorem memRead_plain (h : s.plainData = true) {va : Word} {n : Nat} (ha : s.alignedFor va n = true) (priv : Bool) :
    memRead va n priv s = .ok (s.loaded va n) (s.noteAccess true) := memReadAs_plain h ha priv wordOf

/-- With no writes of other masters to come nothing falls between two words. -/
theorem gap_plain (h : s.between = []) (more : Bool) : s.gap more = s := by
  unfold State.gap
  rw [h]

theorem swapGap_plain (h : s.between = []) : s.swapGap = s := by
  unfold State.swapGap
  rw [h]

/-- A word for LDR, rotated (20_memory.md R131). -/
theorem memReadWord_plain (h : s.plainData = true) {va : Word} (ha : s.alignedFor va 4 = true) (priv : Bool) :
    memReadWord va priv s = .ok (rotateLoaded va (s.loaded va 4)) (s.noteAccess true) := by
  exact memReadAs_plain h ha priv _

theorem bytesOf_length (v : Word) (n : Nat) : (bytesOf v n).length = n := by simp [bytesOf]

/-- A store that nothing intercepts. -/
theorem storeBytes_plain (h : s.plainData = true) (a : Word) (bs : List Byte) :
    storeBytes a a { x := false, c := false, b := false } bs s =
      .ok () { (s.noteAccess true).noteModified a bs with mem := memSetList s.mem a 0 bs } := by
  obtain ⟨hm, hc, hi, hw, hp, -⟩ := plainData_iff.1 h
  unfold storeBytes
  have hr : (s.noteAccess true).regionAt a bs.length = none := regionAt_plain hp a _
  have hd : ((s.noteAccess true).noteModified a bs).drain = (s.noteAccess true).noteModified a bs := drain_of_empty hw
  simp only [bind, EStateM.bind, modify, modifyGet, MonadStateOf.modifyGet, EStateM.modifyGet, fence_of_empty hw, get, getThe, MonadStateOf.get, EStateM.get, reservedAttrs_plain, findDLine_plain hc hi,
    State.cacheable, hm, Bool.false_eq_true, if_false, Bool.false_and, set, MonadStateOf.set, EStateM.set, storeBus, hr,
    Attrs.strong, Bool.not_false, Bool.and_self, if_true, State.writeThrough, hd]
  rfl

/-- MemWrite where accesses are plain (20_memory.md R151). -/
theorem memWriteRaw_plain (h : s.plainData = true) {va : Word} {n : Nat} (ha : s.alignedFor va n = true) (priv : Bool)
    (v : Word) : memWriteRaw va n priv v s =
      .ok () { (s.noteAccess true).noteModified (s.plainLane va n) (bytesOf v n) with
                 mem := memSetList s.mem (s.plainLane va n) 0 (bytesOf v n) } := by
  obtain ⟨hm, hc, hi, hw, hp, hx, hf, hd, hb⟩ := plainData_iff.1 h
  unfold memWriteRaw
  simp only [bind, EStateM.bind, dataPlace_plain hm hd ha, storeBytes_plain h]

theorem memWrite_plain (h : s.plainData = true) {va : Word} {n : Nat} (ha : s.alignedFor va n = true) (priv : Bool)
    (v : Word) : memWrite va n priv v s =
      .ok () { (s.noteAccess true).noteModified (s.plainLane va n) (bytesOf v n) with
                 mem := memSetList s.mem (s.plainLane va n) 0 (bytesOf v n) } := by
  unfold memWrite ignoreAbortInSds
  rw [memWriteRaw_plain h ha]

/-- A swap where accesses are plain: the old value, and the new one in memory (42_load_store.md R474, R475). -/
theorem swapAccess_plain (h : s.plainData = true) {va : Word} {n : Nat} (ha : s.alignedFor va n = true) (priv : Bool)
    (v : Word) : swapAccess va n priv v s =
      .ok (s.loaded va n) { ((s.noteAccess true).noteAccess true).noteModified (s.plainLane va n) (bytesOf v n) with
                              mem := memSetList s.mem (s.plainLane va n) 0 (bytesOf v n) } := by
  obtain ⟨hm, hc, hi, hw, hp, hx, hf, hd, hb⟩ := plainData_iff.1 h
  have h1 : (s.noteAccess true).plainData = true := h
  have e : wordOf (s.busBytes (s.plainLane va n) n) = s.loaded va n := by
    rw [State.loaded, State.loadedIn, lanes_eq, List.map_map]; rfl
  unfold swapAccess
  simp only [bind, EStateM.bind, dataPlace_plain hm hd ha, loadBytes_plain h, get, getThe, MonadStateOf.get, EStateM.get,
    modify, modifyGet, MonadStateOf.modifyGet, EStateM.modifyGet,
    swapGap_plain (show (s.noteAccess true).between = [] from hx), storeBytes_plain h1]
  rw [fence_of_empty (by exact hw)]
  simp only [loadedValue, pure, EStateM.pure, e]
  rfl

/-- With nothing buffered a byte of data is the byte of memory. -/
theorem dataByte_of_empty (h : s.writeBuffer = []) (a : Nat) : s.dataByte a = memGet s.mem a := by
  simp [State.dataByte, State.busByte, h, wbByte]

/-- The bytes after such a store, and that memory keeps its canonical form. -/
theorem stored_plain (h : s.plainData = true) (va : Word) {n : Nat} (hn : n ≤ 4) (v : Word) {t : State}
    (hm : t.mem = memSetList s.mem (s.plainLane va n) 0 (bytesOf v n)) (hw : t.writeBuffer = []) :
    Stored va n v s t := by
  obtain ⟨-, -, -, hw', -, -, hf, -, -⟩ := plainData_iff.1 h
  have hl := bytesOf_length v n
  refine ⟨fun i hi => ?_, fun a ha => ?_, ?_⟩
  · have := memGet_memSetList hf (s.plainLane va n) 0 (bytesOf v n) (j := i) (by omega) (by omega)
    rw [dataByte_of_empty hw, hm, lanes_eq]
    simp only [List.getD_eq_getElem?_getD, List.getElem?_map, List.getElem?_range, hi, Nat.zero_add] at this ⊢
    simp only [Option.map_some, Option.getD_some, this]
    simp [bytesOf, hi]
  · rw [dataByte_of_empty hw, dataByte_of_empty hw', hm]
    refine memGet_memSetList_of_not_mem _ _ _ _ fun j hj e => ha ?_
    rw [lanes_eq, List.mem_map]
    exact ⟨j, by simpa [hl] using hj, by rw [e, Nat.zero_add]⟩
  · rw [hm]; exact memSetList_wf hf _ _ _

end Sys2Proof.Machine
end

