-- ==== Sys2Proof/Laws/Step.lean ====
section
/-!
SUPPORT. The parts of a step one by one: whose turn it is, the boundary before an instruction, the bookkeeping after it, the fetch side,
and the reset pin.
-/

namespace Sys2Proof.Machine

variable {s t : State}

/-! ### Turns -/

theorem step_of_empty (h : s.schedule = []) : step s = coreTurn s := by
  unfold step
  rw [h]

theorem step_of_core {rest : List Turn} (h : s.schedule = .core :: rest) :
    step s = coreTurn { s with schedule := rest } := by
  unfold step State.takeTurn
  rw [h]
  rfl

theorem step_of_outside {op : HostOp} {rest : List Turn} (h : s.schedule = .outside op :: rest) :
    step s = outsideEvent op { s with schedule := rest } := by
  unfold step State.takeTurn
  rw [h]
  rfl

/-- The core's turn, whether the schedule names it or is at its end. -/
theorem step_of_coresTurn (h : s.coresTurn = true) : step s = coreTurn { s with schedule := s.schedule.tail } := by
  unfold State.coresTurn at h
  split at h
  · next e =>
    rw [step_of_empty e]
    congr 1
    cases s
    simp_all
  · next rest e => rw [step_of_core e, e]; rfl
  · cases h

theorem coreTurn_of_active (h : s.inReset = false) (h' : s.power = .active) : coreTurn s = runCore s := by
  unfold coreTurn
  rw [if_neg (by simp [h]), h']

/-! ### The boundary -/

theorem beginStep_of_empty (h : s.writeBuffer = []) : s.beginStep = { s with scratch := Scratch.clear } := by
  unfold State.beginStep
  rw [h]

/-- Without a reset vector trap, an abort that is due and a break that is taken at once, only asynchronous events are
left. -/
theorem boundary_of_none (h : s.dbgUnit.resetTrap = false) (ha : s.pendingAbort = none)
    (hb : s.holdBreak.breakAtOnce = none) : boundary s = asyncEvents s.holdBreak := by
  have h1 : s.holdBreak.dbgUnit.resetTrap = false := h
  have h2 : s.holdBreak.abortDue = (none, s.holdBreak) := by
    unfold State.abortDue
    rw [show s.holdBreak.pendingAbort = none from ha]
  unfold boundary
  simp only [h1, h2, hb, Bool.false_eq_true, if_false]

theorem breakAtOnce_of_debugOff (h : s.debugOn = false) : s.breakAtOnce = none := by
  simp [State.breakAtOnce, State.extDue, h]

/-- An asynchronous event is due. -/
def State.asyncDue (s : State) : Bool := s.extDue || s.fiqDue || s.irqDue

theorem asyncEvents_of_not_due (h : s.asyncDue = false) : asyncEvents s = ({ s with asyncWait := none }, false) := by
  unfold State.asyncDue at h
  unfold asyncEvents State.asyncDelay
  rw [if_neg (by simp [h])]

theorem asyncEvents_of_wait {n : Nat} (h : s.asyncDue = true) (hw : s.asyncWait = some (n + 1)) :
    asyncEvents s = ({ s with asyncWait := some n }, false) := by
  unfold State.asyncDue at h
  unfold asyncEvents State.asyncDelay
  rw [if_pos h, hw]

theorem asyncEvents_of_ready (h : s.asyncDue = true) (hw : s.asyncWait = some 0) :
    asyncEvents s = (({ s with asyncWait := none } : State).takeAsync, true) := by
  unfold State.asyncDue at h
  unfold asyncEvents State.asyncDelay
  rw [if_pos h, hw]

/-- The boundary that sees an event first draws its wait. -/
theorem asyncEvents_of_new (h : s.asyncDue = true) (hw : s.asyncWait = none) :
    asyncEvents s = (({ s.draw.2 with asyncWait := none } : State).takeAsync, true) ∨
      ∃ n, asyncEvents s = ({ s.draw.2 with asyncWait := some n }, false) := by
  unfold State.asyncDue at h
  unfold asyncEvents State.asyncDelay
  rw [if_pos h, hw]
  dsimp only
  cases s.draw.1.toNat with
  | zero => exact .inl rfl
  | succ n => exact .inr ⟨n, rfl⟩

/-! ### After an instruction or an entry -/

/-- Nothing follows where trace buffer and monitor are off, no data breakpoint was hit and DEBUG mode is not involved. -/
theorem endStep_of_quiet (executed : Bool) (ht : s.tracing = false) (hp : s.pmu.pmnc.getLsbD 0 = false)
    (hd : t.scratch.dataBreak = false) (hs : s.mode ≠ .dbg) (hm : t.mode ≠ .dbg) : endStep s executed t = t := by
  have a : (s.mode == .dbg) = false := by cases e : s.mode <;> simp_all
  have b : (t.mode == .dbg) = false := by cases e : t.mode <;> simp_all
  unfold endStep
  rw [if_neg (by simp [ht])]
  simp only [hp, Bool.false_eq_true, if_false, State.dataBreakEntry, hd, State.scrambleR13Dbg, a, b, Bool.or_self,
    Bool.false_and]

theorem endEntry_next (s t : State) : endEntry s (.next t) = .next (endStep s false { t with bankHazard := false }) := rfl

theorem endInstr_next (h : ranPastTop s t = false) : endInstr s (.next t) = .next (endStep s true t) := by
  unfold endInstr
  simp only [h, Bool.false_eq_true, if_false]

/-! ### The fetch side -/

/-- When the branch target buffer sends a target: it is on, holds the address, and the history says usually taken
(21_mmu_caches_tlb.md R272). -/
theorem btbTarget_eq_some {pc target : Word} : s.btbTarget pc = some target ↔
    s.btbOn = true ∧ ∃ e, tblGet s.btb (btbIndex pc) = some e ∧ e.tag = btbTag pc ∧ e.history.getLsbD 1 = true ∧
      e.target = target := by
  unfold State.btbTarget
  cases s.btbOn <;> cases tblGet s.btb (btbIndex pc) <;> simp [and_assoc]

theorem btbTarget_of_off (h : s.btbOn = false) (pc : Word) : s.btbTarget pc = none := by
  unfold State.btbTarget
  rw [if_neg (by simp [h])]

/-- Without a prediction the fetch side goes on in address order. -/
theorem fetchPath_of_off (h : s.btbOn = false) (n : Nat) : s.fetchPath n = s.pc + BitVec.ofNat 32 n * s.instrBytes := by
  induction n with
  | zero => simp [State.fetchPath]
  | succ n ih =>
    rw [State.fetchPath, btbTarget_of_off h, Option.getD_none, ih, BitVec.ofNat_add, BitVec.add_mul, BitVec.add_assoc]
    simp

/-- A fetch ahead moves nothing the program has: the PC stays. -/
@[simp] theorem fetchAhead_pc (n : Nat) : (s.fetchAhead n).pc = s.pc := by
  unfold State.fetchAhead
  dsimp only
  split
  · rfl
  · split <;> rfl

/-! ### The reset pin -/

theorem updateReset_of_pin (h : s.resetPin = true) :
    s.updateReset = { s.processorReset with inReset := true } := by
  unfold State.updateReset
  rw [if_pos h]

/-- Awake and with both supplies in order, the pins act by the reset pin alone. -/
theorem updatePins_of_running (hf : s.powerFault = false) (h : s.power ≠ .sleep) : s.updatePins = s.updateReset := by
  unfold State.updatePins
  rw [if_neg (by simp [hf]), if_neg (by simpa using h)]

theorem outsideEvent_resetPin (h : s.power ≠ .sleep) (hf : s.powerFault = false) :
    outsideEvent (.resetPin true) s =
      .next { ({ s with resetPin := true } : State).processorReset with inReset := true } := by
  have hf' : ({ s with resetPin := true } : State).powerFault = false := hf
  have hj : ((s.power == .sleep || s.trstPin) && (HostOp.resetPin true).viaJtag) = false := Bool.and_false _
  unfold outsideEvent
  rw [hj]
  show Host.Outcome.next (State.updatePins { s with resetPin := true }) = _
  rw [updatePins_of_running hf' h, updateReset_of_pin rfl]

/-- A low power-fault pin puts the device into sleep, whatever it was doing. -/
theorem updatePins_of_fault (h : s.powerFault = true) : s.updatePins.power = .sleep := by
  unfold State.updatePins
  rw [if_pos h]
  split
  · next e => simpa using e
  · rfl

end Sys2Proof.Machine
end

