-- ==== Sys2Proof/Tests/Slice0.lean ====
section
/-!
SUPPORT. Tests. The words and the expected values come from the spec: the worked examples of the rules and the vectors
of spec/96_test_vectors_derived.md, whose row each comment names; then, for each statement with hypotheses, a state and
operands that meet them.
-/

namespace Sys2Proof.Tests

open Sys2Proof.Machine

set_option maxRecDepth 20000

/-! ### Helpers -/

/-- The start state of the vectors: the state after reset with CP0 allowed, at 0x8000. -/
def start : State := { State.reset with pc := 0x8000#32, cp15 := { State.reset.cp15 with cpar := 1#32 } }

/-- Put values into registers of the current mode. -/
def regs (rs : List (RegNum × Word)) (s : State) : State := rs.foldl (fun s p => s.setReg p.1 p.2) s

/-- Put words into memory. -/
def mem (ms : List (Word × Word)) (s : State) : State :=
  ms.foldl (fun s p => { s with mem := memSetList s.mem p.1 0 (bytesOf p.2 4) }) s

/-- The memory image M of the vectors. -/
def image (s : State) : State :=
  mem [(0x1000#32, 0x44332211#32), (0x1004#32, 0x88776655#32), (0x1008#32, 0xCCBBAA99#32), (0x100C#32, 0x00FFEEDD#32)] s

/-- Set the CPSR. -/
def psr (w : Word) (s : State) : State := { s with cpsr := w }

/-- What an instruction leaves, seen through f; none where it does not complete or the word is none. -/
def seen {α : Type} (d : Decoded) (s : State) (f : State → α) : Option α :=
  match d with
  | .instr i => match exec i s with
    | .next t => some (f t)
    | _ => none
  | _ => none

/-- One ARM word, or one Thumb halfword, executed. -/
def arm {α : Type} (w : Word) (s : State) (f : State → α) : Option α := seen (decodeArm w) s f
def thumb {α : Type} (h : BitVec 16) (s : State) (f : State → α) : Option α := seen (decodeThumb h) s f

/-- N, Z, C, V and Q as the top five bits of the CPSR. -/
def flags (t : State) : Word := t.cpsr >>> 27

/-! ### Decoding: every row of the opcode table, its word written from its encoding -/

theorem test_decode_data_processing_1 : ∀ p ∈ ([
    (0b1010_001_0000_1_1000_0010_1111_01011111, .and 10#4 true 8#4 2#4 (.imm 15#4 95#8)),
    (0b0001_000_0000_1_0001_1001_11001_11_0_1001, .and 1#4 true 1#4 9#4 (.shift 25#5 3#2 9#4)),
    (0b1010_000_0000_0_0000_1110_1001_0_00_1_0101, .and 10#4 false 0#4 14#4 (.reg 9#4 0#2 5#4)),
    (0b1010_001_0001_0_1010_0111_0000_00101011, .eor 10#4 false 10#4 7#4 (.imm 0#4 43#8)),
    (0b1101_000_0001_1_1000_1011_10000_10_0_1000, .eor 13#4 true 8#4 11#4 (.shift 16#5 2#2 8#4)),
    (0b1110_000_0001_0_0110_1101_0110_0_00_1_1101, .eor 14#4 false 6#4 13#4 (.reg 6#4 0#2 13#4)),
    (0b1110_001_0010_0_0111_1011_1100_11010110, .sub 14#4 false 7#4 11#4 (.imm 12#4 214#8)),
    (0b1010_000_0010_0_0101_0100_10101_00_0_1100, .sub 10#4 false 5#4 4#4 (.shift 21#5 0#2 12#4)),
    (0b1110_000_0010_0_0000_0111_0010_0_01_1_1000, .sub 14#4 false 0#4 7#4 (.reg 2#4 1#2 8#4)),
    (0b1101_001_0011_0_1010_0001_1100_11010111, .rsb 13#4 false 10#4 1#4 (.imm 12#4 215#8)),
    (0b1110_000_0011_1_1110_0011_01011_11_0_0000, .rsb 14#4 true 14#4 3#4 (.shift 11#5 3#2 0#4)),
    (0b1110_000_0011_1_0000_1101_0110_0_00_1_0001, .rsb 14#4 true 0#4 13#4 (.reg 6#4 0#2 1#4))] : List (Nat × Instr)),
    decodeTableWord 32 p.1 = some p.2 := by decide

theorem test_decode_data_processing_2 : ∀ p ∈ ([
    (0b1010_001_0100_0_1001_0101_1110_01000001, .add 10#4 false 9#4 5#4 (.imm 14#4 65#8)),
    (0b1010_000_0100_0_0010_0100_01110_01_0_0010, .add 10#4 false 2#4 4#4 (.shift 14#5 1#2 2#4)),
    (0b1101_000_0100_1_1001_0110_0001_0_00_1_1000, .add 13#4 true 9#4 6#4 (.reg 1#4 0#2 8#4)),
    (0b1110_001_0101_1_0110_0100_0101_00100011, .adc 14#4 true 6#4 4#4 (.imm 5#4 35#8)),
    (0b1110_000_0101_1_0100_1110_01101_00_0_0100, .adc 14#4 true 4#4 14#4 (.shift 13#5 0#2 4#4)),
    (0b0001_000_0101_0_0000_0100_1000_0_01_1_0101, .adc 1#4 false 0#4 4#4 (.reg 8#4 1#2 5#4)),
    (0b0001_001_0110_1_1001_1110_0000_11110011, .sbc 1#4 true 9#4 14#4 (.imm 0#4 243#8)),
    (0b1101_000_0110_1_0000_0111_00100_10_0_0010, .sbc 13#4 true 0#4 7#4 (.shift 4#5 2#2 2#4)),
    (0b1110_000_0110_1_1011_1110_1100_0_10_1_0001, .sbc 14#4 true 11#4 14#4 (.reg 12#4 2#2 1#4)),
    (0b1110_001_0111_1_1101_1001_0000_11000011, .rsc 14#4 true 13#4 9#4 (.imm 0#4 195#8)),
    (0b1010_000_0111_0_0001_1010_00111_10_0_1011, .rsc 10#4 false 1#4 10#4 (.shift 7#5 2#2 11#4)),
    (0b0001_000_0111_1_0111_1000_0100_0_00_1_0000, .rsc 1#4 true 7#4 8#4 (.reg 4#4 0#2 0#4))] : List (Nat × Instr)),
    decodeTableWord 32 p.1 = some p.2 := by decide

theorem test_decode_data_processing_3 : ∀ p ∈ ([
    (0b1101_001_1000_1_0111_0000_1111_10000010, .tst 13#4 7#4 (.imm 15#4 130#8)),
    (0b0000_000_1000_1_0010_0000_01100_01_0_1010, .tst 0#4 2#4 (.shift 12#5 1#2 10#4)),
    (0b0001_000_1000_1_0101_0000_1010_0_10_1_1010, .tst 1#4 5#4 (.reg 10#4 2#2 10#4)),
    (0b1110_001_1001_1_0110_0000_0111_10100010, .teq 14#4 6#4 (.imm 7#4 162#8)),
    (0b1110_000_1001_1_0111_0000_10110_00_0_0100, .teq 14#4 7#4 (.shift 22#5 0#2 4#4)),
    (0b1110_000_1001_1_0111_0000_1110_0_01_1_0110, .teq 14#4 7#4 (.reg 14#4 1#2 6#4)),
    (0b1101_001_1010_1_1011_0000_1110_10100100, .cmp 13#4 11#4 (.imm 14#4 164#8)),
    (0b1110_000_1010_1_1101_0000_00010_10_0_0100, .cmp 14#4 13#4 (.shift 2#5 2#2 4#4)),
    (0b1101_000_1010_1_0110_0000_0011_0_00_1_0011, .cmp 13#4 6#4 (.reg 3#4 0#2 3#4)),
    (0b1110_001_1011_1_0111_0000_0011_10111100, .cmn 14#4 7#4 (.imm 3#4 188#8)),
    (0b1101_000_1011_1_0011_0000_11110_10_0_1011, .cmn 13#4 3#4 (.shift 30#5 2#2 11#4)),
    (0b0001_000_1011_1_0010_0000_0100_0_10_1_0110, .cmn 1#4 2#4 (.reg 4#4 2#2 6#4))] : List (Nat × Instr)),
    decodeTableWord 32 p.1 = some p.2 := by decide

theorem test_decode_data_processing_4 : ∀ p ∈ ([
    (0b1110_001_1100_1_0010_0111_0110_00000011, .orr 14#4 true 2#4 7#4 (.imm 6#4 3#8)),
    (0b1010_000_1100_1_0101_0001_00111_01_0_1110, .orr 10#4 true 5#4 1#4 (.shift 7#5 1#2 14#4)),
    (0b1110_000_1100_1_0100_0101_0000_0_11_1_1000, .orr 14#4 true 4#4 5#4 (.reg 0#4 3#2 8#4)),
    (0b0000_001_1101_1_0000_0011_0010_11011011, .mov 0#4 true 3#4 (.imm 2#4 219#8)),
    (0b1110_000_1101_1_0000_0111_01001_11_0_1001, .mov 14#4 true 7#4 (.shift 9#5 3#2 9#4)),
    (0b1110_000_1101_1_0000_1101_1000_0_10_1_1010, .mov 14#4 true 13#4 (.reg 8#4 2#2 10#4)),
    (0b1010_001_1110_0_1101_1000_1000_11111110, .bic 10#4 false 13#4 8#4 (.imm 8#4 254#8)),
    (0b0001_000_1110_0_1001_0000_00010_11_0_0111, .bic 1#4 false 9#4 0#4 (.shift 2#5 3#2 7#4)),
    (0b1101_000_1110_0_1110_0110_0100_0_01_1_0111, .bic 13#4 false 14#4 6#4 (.reg 4#4 1#2 7#4)),
    (0b0000_001_1111_1_0000_1000_1010_00110111, .mvn 0#4 true 8#4 (.imm 10#4 55#8)),
    (0b0001_000_1111_0_0000_0010_00001_00_0_0010, .mvn 1#4 false 2#4 (.shift 1#5 0#2 2#4)),
    (0b1110_000_1111_1_0000_1011_0011_0_11_1_0111, .mvn 14#4 true 11#4 (.reg 3#4 3#2 7#4))] : List (Nat × Instr)),
    decodeTableWord 32 p.1 = some p.2 := by decide

theorem test_decode_data_processing_5 : ∀ p ∈ ([
    (0b1010_00010110_1111_1011_1111_0001_1011, .clz 10#4 11#4 11#4)] : List (Nat × Instr)),
    decodeTableWord 32 p.1 = some p.2 := by decide

theorem test_decode_multiply_1 : ∀ p ∈ ([
    (0b1110_0000000_1_1101_0000_1000_1001_1101, .mul 14#4 true 13#4 8#4 13#4),
    (0b1010_0000001_0_0011_1110_0101_1001_1110, .mla 10#4 false 3#4 14#4 5#4 14#4),
    (0b1110_0000100_0_0010_0010_0100_1001_0001, .umull 14#4 false 2#4 2#4 4#4 1#4),
    (0b0001_0000101_0_0110_0001_1001_1001_1110, .umlal 1#4 false 6#4 1#4 9#4 14#4),
    (0b1110_0000110_1_1100_0111_0000_1001_1100, .smull 14#4 true 12#4 7#4 0#4 12#4),
    (0b1110_0000111_0_0001_0010_0100_1001_1001, .smlal 14#4 false 1#4 2#4 4#4 9#4),
    (0b1110_00010110_0001_0000_0101_1_1_1_0_1000, .smulXY 14#4 1#4 5#4 true true 8#4),
    (0b0001_00010010_1001_0000_0000_1_0_1_0_0010, .smulWY 1#4 9#4 0#4 false 2#4),
    (0b0001_00010000_1011_0110_1001_1_0_0_0_0101, .smlaXY 1#4 11#4 6#4 9#4 false false 5#4),
    (0b1101_00010010_1001_1000_1100_1_1_0_0_1110, .smlaWY 13#4 9#4 8#4 12#4 true 14#4),
    (0b1101_00010100_1101_0010_1110_1_1_1_0_0110, .smlalXY 13#4 13#4 2#4 14#4 true true 6#4),
    (0b1101_00010000_0001_0100_0000_0101_0001, .qadd 13#4 1#4 4#4 1#4)] : List (Nat × Instr)),
    decodeTableWord 32 p.1 = some p.2 := by decide

theorem test_decode_multiply_2 : ∀ p ∈ ([
    (0b0000_00010010_0011_1010_0000_0101_0101, .qsub 0#4 3#4 10#4 5#4),
    (0b1101_00010100_1001_1000_0000_0101_0110, .qdadd 13#4 9#4 8#4 6#4),
    (0b1101_00010110_1011_1100_0000_0101_1001, .qdsub 13#4 11#4 12#4 9#4)] : List (Nat × Instr)),
    decodeTableWord 32 p.1 = some p.2 := by decide

theorem test_decode_load_store_1 : ∀ p ∈ ([
    (0b1110_010_1_0_0_0_1_0111_1000_000110011101, .ldr 14#4 7#4 8#4 (.imm false false 413#12)),
    (0b1101_010_0_1_0_0_1_0001_0100_100011010010, .ldr 13#4 1#4 4#4 (.immPost true 2258#12)),
    (0b1010_011_1_1_0_0_1_1100_1000_00010_11_0_0110, .ldr 10#4 12#4 8#4 (.reg true false 2#5 3#2 6#4)),
    (0b1110_011_0_1_0_0_1_0110_0110_10010_11_0_0101, .ldr 14#4 6#4 6#4 (.regPost true 18#5 3#2 5#4)),
    (0b0001_010_1_1_0_1_0_0000_1100_011111010111, .str 1#4 0#4 12#4 (.imm true true 2007#12)),
    (0b1101_010_0_0_0_0_0_1100_0000_101000010101, .str 13#4 12#4 0#4 (.immPost false 2581#12)),
    (0b1110_011_1_1_0_0_0_0110_0100_01111_00_0_1110, .str 14#4 6#4 4#4 (.reg true false 15#5 0#2 14#4)),
    (0b1110_011_0_0_0_0_0_0000_0111_00111_01_0_0101, .str 14#4 0#4 7#4 (.regPost false 7#5 1#2 5#4)),
    (0b1110_010_1_1_1_1_1_1010_0111_100001100011, .ldrb 14#4 10#4 7#4 (.imm true true 2147#12)),
    (0b0000_010_0_0_1_0_1_1011_0011_111101100101, .ldrb 0#4 11#4 3#4 (.immPost false 3941#12)),
    (0b1010_011_1_1_1_1_1_0100_1010_10001_01_0_0011, .ldrb 10#4 4#4 10#4 (.reg true true 17#5 1#2 3#4)),
    (0b1101_011_0_0_1_0_1_0000_0100_11011_00_0_0001, .ldrb 13#4 0#4 4#4 (.regPost false 27#5 0#2 1#4))] : List (Nat × Instr)),
    decodeTableWord 32 p.1 = some p.2 := by decide

theorem test_decode_load_store_2 : ∀ p ∈ ([
    (0b1010_010_1_1_1_0_0_1110_1000_011110000011, .strb 10#4 14#4 8#4 (.imm true false 1923#12)),
    (0b0001_010_0_1_1_0_0_0011_0101_111111010010, .strb 1#4 3#4 5#4 (.immPost true 4050#12)),
    (0b1110_011_1_0_1_1_0_0111_1011_10000_11_0_0101, .strb 14#4 7#4 11#4 (.reg false true 16#5 3#2 5#4)),
    (0b1101_011_0_1_1_0_0_1000_0110_10111_00_0_1110, .strb 13#4 8#4 6#4 (.regPost true 23#5 0#2 14#4)),
    (0b1110_010_0_0_0_1_1_1001_1101_111011010101, .ldrt 14#4 9#4 13#4 (.imm false 3797#12)),
    (0b1110_011_0_0_0_1_1_0011_1011_10011_11_0_0100, .ldrt 14#4 3#4 11#4 (.reg false 19#5 3#2 4#4)),
    (0b1110_010_0_1_1_1_1_0101_0101_111000011100, .ldrbt 14#4 5#4 5#4 (.imm true 3612#12)),
    (0b0001_011_0_1_1_1_1_0101_0110_01111_00_0_1101, .ldrbt 1#4 5#4 6#4 (.reg true 15#5 0#2 13#4)),
    (0b1110_010_0_1_0_1_0_1001_1100_011000111101, .strt 14#4 9#4 12#4 (.imm true 1597#12)),
    (0b0001_011_0_0_0_1_0_0010_1100_11101_10_0_0011, .strt 1#4 2#4 12#4 (.reg false 29#5 2#2 3#4)),
    (0b1010_010_0_0_1_1_0_0000_0001_100111000110, .strbt 10#4 0#4 1#4 (.imm false 2502#12)),
    (0b0000_011_0_0_1_1_0_1011_1110_10100_00_0_1010, .strbt 0#4 11#4 14#4 (.reg false 20#5 0#2 10#4))] : List (Nat × Instr)),
    decodeTableWord 32 p.1 = some p.2 := by decide

theorem test_decode_load_store_3 : ∀ p ∈ ([
    (0b1110_000_1_0_1_0_0_1100_1100_1110_1_01_1_1100, .strh 14#4 true false false 12#4 12#4 (.imm 14#4 12#4)),
    (0b0000_000_1_0_0_1_0_1000_1011_0000_1_01_1_0110, .strh 0#4 true false true 8#4 11#4 (.reg 6#4)),
    (0b1110_000_1_0_1_1_1_1000_1011_0000_1_01_1_0011, .ldrh 14#4 true false true 8#4 11#4 (.imm 0#4 3#4)),
    (0b0001_000_0_0_0_0_1_1010_0101_0000_1_01_1_0110, .ldrh 1#4 false false false 10#4 5#4 (.reg 6#4)),
    (0b1010_000_1_1_1_0_1_0100_0100_0100_1_10_1_0101, .ldrsb 10#4 true true false 4#4 4#4 (.imm 4#4 5#4)),
    (0b0001_000_0_1_0_0_1_0001_0010_0000_1_10_1_0011, .ldrsb 1#4 false true false 1#4 2#4 (.reg 3#4)),
    (0b1010_000_1_0_1_1_1_1110_0110_0101_1_11_1_1001, .ldrsh 10#4 true false true 14#4 6#4 (.imm 5#4 9#4)),
    (0b0000_000_1_1_0_1_1_0111_0110_0000_1_11_1_0011, .ldrsh 0#4 true true true 7#4 6#4 (.reg 3#4)),
    (0b0001_000_1_0_1_0_0_1101_1110_1011_1_10_1_1110, .ldrd 1#4 true false false 13#4 14#4 (.imm 11#4 14#4)),
    (0b1101_000_1_0_0_1_0_1100_0010_0000_1_10_1_1110, .ldrd 13#4 true false true 12#4 2#4 (.reg 14#4)),
    (0b1101_000_1_0_1_0_0_0000_1101_0100_1_11_1_0100, .strd 13#4 true false false 0#4 13#4 (.imm 4#4 4#4)),
    (0b0000_000_1_0_0_1_0_0001_0000_0000_1_11_1_0110, .strd 0#4 true false true 1#4 0#4 (.reg 6#4))] : List (Nat × Instr)),
    decodeTableWord 32 p.1 = some p.2 := by decide

theorem test_decode_load_store_4 : ∀ p ∈ ([
    (0b1101_100_0_1_0_0_1_1000_1101001110001000, .ldm1 13#4 false true false 8#4 54152#16),
    (0b1110_100_1_1_1_1_1_0001_0_100111001000010, .ldm2 14#4 true true true 1#4 20034#15),
    (0b1101_100_0_1_1_0_1_0001_1_110010011101100, .ldm3 13#4 false true false 1#4 25836#15),
    (0b1101_100_0_1_0_0_0_1011_1111001101010100, .stm1 13#4 false true false 11#4 62292#16),
    (0b0000_100_0_1_1_0_0_1110_0100110111100100, .stm2 0#4 false true false 14#4 19940#16),
    (0b1101_00010000_1110_0101_0000_1001_1000, .swp 13#4 14#4 5#4 8#4),
    (0b0000_00010100_0011_1011_0000_1001_0101, .swpb 0#4 3#4 11#4 5#4),
    (0b1111_010_1_1_1_0_1_1001_1111_111100001000, .pldImm true 9#4 3848#12),
    (0b1111_011_1_1_1_0_1_1101_1111_11000_00_0_0010, .pldReg true 13#4 24#5 0#2 2#4)] : List (Nat × Instr)),
    decodeTableWord 32 p.1 = some p.2 := by decide

theorem test_decode_branch_status_1 : ∀ p ∈ ([
    (0b1110_1010_010110111100010111101111, .b 14#4 6014447#24),
    (0b1110_1011_110011011111011110000100, .bl 14#4 13498244#24),
    (0b1111_101_0_111011010010001111110011, .blx1 false 15541235#24),
    (0b1110_00010010_1111_1111_1111_0011_0000, .blx2 14#4 0#4),
    (0b1110_00010010_1111_1111_1111_0001_0110, .bx 14#4 6#4),
    (0b0000_00010_1_00_1111_1010_0000_0000_0000, .mrs 0#4 true 10#4),
    (0b1110_00010_1_10_1111_1111_0000_0000_1110, .msrReg 14#4 true 15#4 14#4),
    (0b1010_00110_0_10_1100_1111_1010_01111101, .msrImm 10#4 false 12#4 10#4 125#8),
    (0b0000_1111_101010010111101011011011, .swi 0#4 11107035#24),
    (0b1110_00010010_011000001010_0111_1010, .bkpt 1546#12 10#4)] : List (Nat × Instr)),
    decodeTableWord 32 p.1 = some p.2 := by decide

theorem test_decode_coprocessor_1 : ∀ p ∈ ([
    (0b1101_1110_1110_0011_1100_0110_101_0_1001, .cdp 13#4 14#4 3#4 12#4 6#4 5#3 9#4),
    (0b1010_1110_010_0_1000_1000_0101_101_1_0100, .mcr 10#4 2#3 8#4 8#4 5#4 5#3 4#4),
    (0b1010_1110_011_1_0000_1100_0101_010_1_0111, .mrc 10#4 3#3 0#4 12#4 5#4 2#3 7#4),
    (0b1010_110_1_1_1_1_1_1110_1011_1000_11101101, .ldcOffset 10#4 true true true 14#4 11#4 8#4 237#8),
    (0b0001_110_0_0_0_1_1_1000_1000_0101_10101011, .ldcPost 1#4 false false 8#4 8#4 5#4 171#8),
    (0b1110_110_0_1_0_0_1_1010_1011_0111_10111001, .ldcUnindexed 14#4 false 10#4 11#4 7#4 185#8),
    (0b1110_110_1_0_1_0_0_0010_0100_1001_11000011, .stcOffset 14#4 false true false 2#4 4#4 9#4 195#8),
    (0b1110_110_0_0_1_1_0_0000_0100_1100_00111100, .stcPost 14#4 false true 0#4 4#4 12#4 60#8),
    (0b1110_110_0_1_1_0_0_0100_0111_1010_00011011, .stcUnindexed 14#4 true 4#4 7#4 10#4 27#8),
    (0b1101_1100_0100_0110_1001_0101_1111_1011, .mcrr 13#4 6#4 9#4 5#4 15#4 11#4),
    (0b1010_1100_0101_1100_0111_0101_1101_1101, .mrrc 10#4 12#4 7#4 5#4 13#4 13#4),
    (0b1010_1110_0010_0000_1110_0000_000_1_0110, .mia 10#4 14#4 0#3 6#4)] : List (Nat × Instr)),
    decodeTableWord 32 p.1 = some p.2 := by decide

theorem test_decode_coprocessor_2 : ∀ p ∈ ([
    (0b0000_1110_0010_1000_0100_0000_000_1_1001, .miaph 0#4 4#4 0#3 9#4),
    (0b0000_1110_0010_1100_0011_0000_000_1_0011, .miabb 0#4 3#4 0#3 3#4),
    (0b1110_1110_0010_1101_1011_0000_000_1_1000, .miabt 14#4 11#4 0#3 8#4),
    (0b1101_1110_0010_1110_0011_0000_000_1_1101, .miatb 13#4 3#4 0#3 13#4),
    (0b1010_1110_0010_1111_0011_0000_000_1_1110, .miatt 10#4 3#4 0#3 14#4),
    (0b1110_1100_0100_0001_0000_0000_0000_0_000, .mar 14#4 1#4 0#4 0#3),
    (0b1101_1100_0101_0000_0010_0000_0000_0_000, .mra 13#4 0#4 2#4 0#3),
    (0b0001_011_11001011011001001111_1_0100, .undefMedia 1#4 833103#20 4#4),
    (0b1101_00110_0_00_00010111011111101101, .undefMsrImm 13#4 false 96237#20)] : List (Nat × Instr)),
    decodeTableWord 32 p.1 = some p.2 := by decide

theorem test_decode_cp15_1 : ∀ p ∈ ([
    (0b1110_1110_000_1_0000_1110_1111_000_1_0000, .mrcId 14#4 14#4),
    (0b0000_1110_000_0_0000_0111_1111_000_1_0000, .mcrId 0#4 7#4),
    (0b0001_1110_000_1_0000_0011_1111_001_1_0000, .mrcCacheType 1#4 3#4),
    (0b1101_1110_000_0_0000_0011_1111_001_1_0000, .mcrCacheType 13#4 3#4),
    (0b0000_1110_000_1_0001_0000_1111_000_1_0000, .mrcControl 0#4 0#4),
    (0b1101_1110_000_0_0001_1000_1111_000_1_0000, .mcrControl 13#4 8#4),
    (0b1110_1110_000_1_0001_1010_1111_001_1_0000, .mrcAuxControl 14#4 10#4),
    (0b0000_1110_000_0_0001_1110_1111_001_1_0000, .mcrAuxControl 0#4 14#4),
    (0b0001_1110_000_1_0010_0101_1111_000_1_0000, .mrcTtb 1#4 5#4),
    (0b0001_1110_000_0_0010_0010_1111_000_1_0000, .mcrTtb 1#4 2#4),
    (0b0000_1110_000_1_0011_1011_1111_000_1_0000, .mrcDacr 0#4 11#4),
    (0b0000_1110_000_0_0011_1011_1111_000_1_0000, .mcrDacr 0#4 11#4)] : List (Nat × Instr)),
    decodeTableWord 32 p.1 = some p.2 := by decide

theorem test_decode_cp15_2 : ∀ p ∈ ([
    (0b1010_1110_000_1_0101_1100_1111_000_1_0000, .mrcFsr 10#4 12#4),
    (0b0000_1110_000_0_0101_1001_1111_000_1_0000, .mcrFsr 0#4 9#4),
    (0b0000_1110_000_1_0110_1010_1111_000_1_0000, .mrcFar 0#4 10#4),
    (0b0000_1110_000_0_0110_1010_1111_000_1_0000, .mcrFar 0#4 10#4),
    (0b0001_1110_000_0_0111_0111_1111_000_1_0111, .mcrInvIDCacheBtb 1#4 7#4),
    (0b1010_1110_000_0_0111_0000_1111_000_1_0101, .mcrInvICacheBtb 10#4 0#4),
    (0b1010_1110_000_0_0111_0110_1111_001_1_0101, .mcrInvICacheLine 10#4 6#4),
    (0b1110_1110_000_0_0111_1100_1111_000_1_0110, .mcrInvDCache 14#4 12#4),
    (0b1110_1110_000_0_0111_0100_1111_001_1_0110, .mcrInvDCacheLine 14#4 4#4),
    (0b1110_1110_000_0_0111_1110_1111_001_1_1010, .mcrCleanDCacheLine 14#4 14#4),
    (0b1010_1110_000_0_0111_1110_1111_100_1_1010, .mcrDrainWriteBuffer 10#4 14#4),
    (0b1110_1110_000_0_0111_0000_1111_110_1_0101, .mcrInvBtb 14#4 0#4)] : List (Nat × Instr)),
    decodeTableWord 32 p.1 = some p.2 := by decide

theorem test_decode_cp15_3 : ∀ p ∈ ([
    (0b1110_1110_000_0_0111_0101_1111_101_1_0010, .mcrAllocateDLine 14#4 5#4),
    (0b1110_1110_000_0_1000_1000_1111_000_1_0111, .mcrInvIDTlb 14#4 8#4),
    (0b1010_1110_000_0_1000_0001_1111_000_1_0101, .mcrInvITlb 10#4 1#4),
    (0b1110_1110_000_0_1000_1000_1111_001_1_0101, .mcrInvITlbEntry 14#4 8#4),
    (0b1101_1110_000_0_1000_0100_1111_000_1_0110, .mcrInvDTlb 13#4 4#4),
    (0b1010_1110_000_0_1000_1101_1111_001_1_0110, .mcrInvDTlbEntry 10#4 13#4),
    (0b0000_1110_000_0_1001_0011_1111_000_1_0001, .mcrLockILine 0#4 3#4),
    (0b1010_1110_000_0_1001_1101_1111_001_1_0001, .mcrUnlockICache 10#4 13#4),
    (0b0000_1110_000_1_1001_1001_1111_000_1_0010, .mrcDCacheLock 0#4 9#4),
    (0b1010_1110_000_0_1001_1100_1111_000_1_0010, .mcrDCacheLock 10#4 12#4),
    (0b1010_1110_000_0_1001_1011_1111_001_1_0010, .mcrUnlockDCache 10#4 11#4),
    (0b1110_1110_000_0_1010_0001_1111_000_1_0100, .mcrLockITlbEntry 14#4 1#4)] : List (Nat × Instr)),
    decodeTableWord 32 p.1 = some p.2 := by decide

theorem test_decode_cp15_4 : ∀ p ∈ ([
    (0b1010_1110_000_0_1010_1001_1111_000_1_1000, .mcrLockDTlbEntry 10#4 9#4),
    (0b1110_1110_000_0_1010_0110_1111_001_1_0100, .mcrUnlockITlb 14#4 6#4),
    (0b1101_1110_000_0_1010_1101_1111_001_1_1000, .mcrUnlockDTlb 13#4 13#4),
    (0b1010_1110_000_1_1101_0001_1111_000_1_0000, .mrcPid 10#4 1#4),
    (0b0001_1110_000_0_1101_0011_1111_000_1_0000, .mcrPid 1#4 3#4),
    (0b0001_1110_000_1_1110_0000_1111_000_1_1000, .mrcIbcr0 1#4 0#4),
    (0b0001_1110_000_0_1110_0101_1111_000_1_1000, .mcrIbcr0 1#4 5#4),
    (0b1101_1110_000_1_1110_0010_1111_000_1_1001, .mrcIbcr1 13#4 2#4),
    (0b1010_1110_000_0_1110_0010_1111_000_1_1001, .mcrIbcr1 10#4 2#4),
    (0b1010_1110_000_1_1110_0000_1111_000_1_0000, .mrcDbr0 10#4 0#4),
    (0b0001_1110_000_0_1110_0001_1111_000_1_0000, .mcrDbr0 1#4 1#4),
    (0b1010_1110_000_1_1110_0111_1111_000_1_0011, .mrcDbr1 10#4 7#4)] : List (Nat × Instr)),
    decodeTableWord 32 p.1 = some p.2 := by decide

theorem test_decode_cp15_5 : ∀ p ∈ ([
    (0b1110_1110_000_0_1110_1010_1111_000_1_0011, .mcrDbr1 14#4 10#4),
    (0b0000_1110_000_1_1110_0001_1111_000_1_0100, .mrcDbcon 0#4 1#4),
    (0b0001_1110_000_0_1110_0001_1111_000_1_0100, .mcrDbcon 1#4 1#4),
    (0b0000_1110_000_1_1111_0101_1111_000_1_0001, .mrcCpar 0#4 5#4),
    (0b1110_1110_000_0_1111_0110_1111_000_1_0001, .mcrCpar 14#4 6#4)] : List (Nat × Instr)),
    decodeTableWord 32 p.1 = some p.2 := by decide

theorem test_decode_cp14_1 : ∀ p ∈ ([
    (0b1101_1110_000_1_0000_1001_1110_000_1_0000, .mrcPmnc 13#4 9#4),
    (0b0001_1110_000_0_0000_1110_1110_000_1_0000, .mcrPmnc 1#4 14#4),
    (0b0001_1110_000_1_0001_1100_1110_000_1_0000, .mrcCcnt 1#4 12#4),
    (0b1110_1110_000_0_0001_0101_1110_000_1_0000, .mcrCcnt 14#4 5#4),
    (0b1110_1110_000_1_0010_0111_1110_000_1_0000, .mrcPmn0 14#4 7#4),
    (0b0001_1110_000_0_0010_1001_1110_000_1_0000, .mcrPmn0 1#4 9#4),
    (0b0000_1110_000_1_0011_0111_1110_000_1_0000, .mrcPmn1 0#4 7#4),
    (0b1101_1110_000_0_0011_1101_1110_000_1_0000, .mcrPmn1 13#4 13#4),
    (0b1110_1110_000_1_0110_0110_1110_000_1_0000, .mrcCclkcfg 14#4 6#4),
    (0b1110_1110_000_0_0110_0101_1110_000_1_0000, .mcrCclkcfg 14#4 5#4),
    (0b1010_1110_000_1_0111_1000_1110_000_1_0000, .mrcPwrmode 10#4 8#4),
    (0b1101_1110_000_0_0111_1000_1110_000_1_0000, .mcrPwrmode 13#4 8#4)] : List (Nat × Instr)),
    decodeTableWord 32 p.1 = some p.2 := by decide

theorem test_decode_cp14_2 : ∀ p ∈ ([
    (0b1010_1110_000_1_1000_0100_1110_000_1_0000, .mrcTx 10#4 4#4),
    (0b0000_1110_000_0_1000_0010_1110_000_1_0000, .mcrTx 0#4 2#4),
    (0b1110_1110_000_1_1001_1011_1110_000_1_0000, .mrcRx 14#4 11#4),
    (0b1110_1110_000_0_1001_1101_1110_000_1_0000, .mcrRx 14#4 13#4),
    (0b0001_1110_000_1_1010_1101_1110_000_1_0000, .mrcDcsr 1#4 13#4),
    (0b0000_1110_000_0_1010_1100_1110_000_1_0000, .mcrDcsr 0#4 12#4),
    (0b0000_1110_000_1_1011_1001_1110_000_1_0000, .mrcTbreg 0#4 9#4),
    (0b0001_1110_000_0_1011_0011_1110_000_1_0000, .mcrTbreg 1#4 3#4),
    (0b1010_1110_000_1_1100_0000_1110_000_1_0000, .mrcChkpt0 10#4 0#4),
    (0b0000_1110_000_0_1100_0110_1110_000_1_0000, .mcrChkpt0 0#4 6#4),
    (0b1010_1110_000_1_1101_1000_1110_000_1_0000, .mrcChkpt1 10#4 8#4),
    (0b0000_1110_000_0_1101_1010_1110_000_1_0000, .mcrChkpt1 0#4 10#4)] : List (Nat × Instr)),
    decodeTableWord 32 p.1 = some p.2 := by decide

theorem test_decode_cp14_3 : ∀ p ∈ ([
    (0b1110_1110_000_1_1110_1101_1110_000_1_0000, .mrcTxrxctrl 14#4 13#4),
    (0b1010_1110_000_0_1110_0110_1110_000_1_0000, .mcrTxrxctrl 10#4 6#4)] : List (Nat × Instr)),
    decodeTableWord 32 p.1 = some p.2 := by decide

theorem test_decode_thumb_1 : ∀ p ∈ ([
    (0b000_00_01000_101_001, .tLsl1 8#5 5#3 1#3),
    (0b000_01_10010_101_010, .tLsr1 18#5 5#3 2#3),
    (0b000_10_00010_111_100, .tAsr1 2#5 7#3 4#3),
    (0b0001100_011_001_011, .tAdd3 3#3 1#3 3#3),
    (0b0001101_001_001_111, .tSub3 1#3 1#3 7#3),
    (0b0001110_000_110_100, .tAdd1 0#3 6#3 4#3),
    (0b0001111_111_011_110, .tSub1 7#3 3#3 6#3),
    (0b00100_111_01010101, .tMov1 7#3 85#8),
    (0b00101_011_00101111, .tCmp1 3#3 47#8),
    (0b00110_110_01001101, .tAdd2 6#3 77#8),
    (0b00111_100_10011101, .tSub2 4#3 157#8),
    (0b010000_0000_110_101, .tAnd 6#3 5#3)] : List (Nat × Instr)),
    decodeTableWord 16 p.1 = some p.2 := by decide

theorem test_decode_thumb_2 : ∀ p ∈ ([
    (0b010000_0001_110_000, .tEor 6#3 0#3),
    (0b010000_0010_111_111, .tLsl2 7#3 7#3),
    (0b010000_0011_100_000, .tLsr2 4#3 0#3),
    (0b010000_0100_101_101, .tAsr2 5#3 5#3),
    (0b010000_0101_100_111, .tAdc 4#3 7#3),
    (0b010000_0110_101_000, .tSbc 5#3 0#3),
    (0b010000_0111_001_110, .tRor 1#3 6#3),
    (0b010000_1000_001_001, .tTst 1#3 1#3),
    (0b010000_1001_111_110, .tNeg 7#3 6#3),
    (0b010000_1010_010_100, .tCmp2 2#3 4#3),
    (0b010000_1011_101_000, .tCmn 5#3 0#3),
    (0b010000_1100_011_011, .tOrr 3#3 3#3)] : List (Nat × Instr)),
    decodeTableWord 16 p.1 = some p.2 := by decide

theorem test_decode_thumb_3 : ∀ p ∈ ([
    (0b010000_1101_011_000, .tMul 3#3 0#3),
    (0b010000_1110_000_111, .tBic 0#3 7#3),
    (0b010000_1111_101_101, .tMvn 5#3 5#3),
    (0b010001_00_0_0_011_010, .tAdd4 false false 3#3 2#3),
    (0b010001_01_0_0_101_100, .tCmp3 false false 5#3 4#3),
    (0b010001_10_1_1_101_011, .tMov3 true true 5#3 3#3),
    (0b010001_11_0_0_101_000, .tBx false 5#3),
    (0b010001_11_1_0_001_000, .tBlx2 false 1#3),
    (0b01001_001_10011110, .tLdr3 1#3 158#8),
    (0b0101_000_111_000_110, .tStr2 7#3 0#3 6#3),
    (0b0101_001_000_100_110, .tStrh2 0#3 4#3 6#3),
    (0b0101_010_100_101_101, .tStrb2 4#3 5#3 5#3)] : List (Nat × Instr)),
    decodeTableWord 16 p.1 = some p.2 := by decide

theorem test_decode_thumb_4 : ∀ p ∈ ([
    (0b0101_011_010_010_010, .tLdrsb 2#3 2#3 2#3),
    (0b0101_100_011_100_010, .tLdr2 3#3 4#3 2#3),
    (0b0101_101_111_100_110, .tLdrh2 7#3 4#3 6#3),
    (0b0101_110_110_010_010, .tLdrb2 6#3 2#3 2#3),
    (0b0101_111_000_100_001, .tLdrsh 0#3 4#3 1#3),
    (0b01100_11001_000_010, .tStr1 25#5 0#3 2#3),
    (0b01101_10111_100_100, .tLdr1 23#5 4#3 4#3),
    (0b01110_01110_110_110, .tStrb1 14#5 6#3 6#3),
    (0b01111_01101_010_010, .tLdrb1 13#5 2#3 2#3),
    (0b10000_00110_111_001, .tStrh1 6#5 7#3 1#3),
    (0b10001_01001_000_010, .tLdrh1 9#5 0#3 2#3),
    (0b10010_110_10001100, .tStr3 6#3 140#8)] : List (Nat × Instr)),
    decodeTableWord 16 p.1 = some p.2 := by decide

theorem test_decode_thumb_5 : ∀ p ∈ ([
    (0b10011_011_00101001, .tLdr4 3#3 41#8),
    (0b10100_011_10111011, .tAdd5 3#3 187#8),
    (0b10101_000_01001101, .tAdd6 0#3 77#8),
    (0b10110000_0_0010000, .tAdd7 16#7),
    (0b10110000_1_0000001, .tSub4 1#7),
    (0b1011_010_1_00101000, .tPush true 40#8),
    (0b1011_110_0_01011101, .tPop false 93#8),
    (0b10111110_10101100, .tBkpt 172#8),
    (0b10110001_11110111, .tUndefB1 247#8),
    (0b10110010_01000111, .tUndefB2 71#8),
    (0b10110011_01100111, .tUndefB3 103#8),
    (0b10110110_11010001, .tUndefB6 209#8)] : List (Nat × Instr)),
    decodeTableWord 16 p.1 = some p.2 := by decide

theorem test_decode_thumb_6 : ∀ p ∈ ([
    (0b10110111_11110111, .tUndefB7 247#8),
    (0b101110_0001000001, .tUndefB8 65#10),
    (0b10111111_11010100, .tUndefBF 212#8),
    (0b11000_110_00011101, .tStmia 6#3 29#8),
    (0b11001_100_10001101, .tLdmia 4#3 141#8),
    (0b1101_0_011_10010100, .tB1Low 3#3 148#8),
    (0b1101_10_01_11100010, .tB1Mid 1#2 226#8),
    (0b1101_110_0_01011010, .tB1High false 90#8),
    (0b11011110_00001101, .tUndefDE 13#8),
    (0b11011111_01010110, .tSwi 86#8),
    (0b11100_00111100110, .tB2 486#11),
    (0b11101_0010011000_0, .tBlxSuffix 152#10)] : List (Nat × Instr)),
    decodeTableWord 16 p.1 = some p.2 := by decide

theorem test_decode_thumb_7 : ∀ p ∈ ([
    (0b11101_1000101011_1, .tUndefE801 555#10),
    (0b11110_10110111110, .tBlPrefix 1470#11),
    (0b11111_00001100010, .tBlSuffix 98#11)] : List (Nat × Instr)),
    decodeTableWord 16 p.1 = some p.2 := by decide

/-! ### Data processing (section 3.2) -/

/-- `ADDS R0, R1, R2`. -/
theorem test_add : arm 0xE0910002#32 (regs [(1, 0x7FFFFFFF#32), (2, 0x1#32)] start)
    (fun t => [t.reg 0, flags t]) = some [0x80000000#32, 0b10010#32] := by decide

/-- `ADDNE R0, R0, #1`. -/
theorem test_add_2 : arm 0x12800001#32 (regs [(0, 0x7#32)] (psr 0x400000D3#32 start))
    (fun t => [t.reg 0]) = some [0x7#32] := by decide

/-- `SUBS R0, R1, R2`. -/
theorem test_sub : arm 0xE0510002#32 (regs [(1, 0x5#32), (2, 0x5#32)] start)
    (fun t => [t.reg 0, flags t]) = some [0x0#32, 0b01100#32] := by decide

/-- `RSBS R0, R1, #0`. -/
theorem test_rsb : arm 0xE2710000#32 (regs [(1, 0x80000000#32)] start)
    (fun t => [t.reg 0, flags t]) = some [0x80000000#32, 0b10010#32] := by decide

/-- `ADCS R1, R3, R5`. -/
theorem test_adc : arm 0xE0B31005#32 (regs [(3, 0xFFFFFFFF#32), (5, 0x0#32)] (psr 0x200000D3#32 start))
    (fun t => [t.reg 1, flags t]) = some [0x0#32, 0b01100#32] := by decide

/-- `SBCS R1, R3, R5`. -/
theorem test_sbc : arm 0xE0D31005#32 (regs [(3, 0x0#32), (5, 0x0#32)] start)
    (fun t => [t.reg 1, flags t]) = some [0xFFFFFFFF#32, 0b10000#32] := by decide

/-- `RSCS R1, R3, #0`. -/
theorem test_rsc : arm 0xE2F31000#32 (regs [(3, 0x1#32)] start)
    (fun t => [t.reg 1, flags t]) = some [0xFFFFFFFE#32, 0b10000#32] := by decide

/-- `CMP R0, R1`. -/
theorem test_cmp : arm 0xE1500001#32 (regs [(0, 0x1#32), (1, 0x2#32)] start)
    (fun t => [flags t]) = some [0b10000#32] := by decide

/-- `CMN R0, #1`. -/
theorem test_cmn : arm 0xE3700001#32 (regs [(0, 0xFFFFFFFF#32)] start)
    (fun t => [flags t]) = some [0b01100#32] := by decide

/-- `TST R0, #1`. -/
theorem test_tst : arm 0xE3100001#32 (regs [(0, 0x2#32)] (psr 0x300000D3#32 start))
    (fun t => [flags t]) = some [0b01110#32] := by decide

/-- `TEQ R0, R1`. -/
theorem test_teq : arm 0xE1300001#32 (regs [(0, 0x80000000#32), (1, 0x0#32)] start)
    (fun t => [flags t]) = some [0b10000#32] := by decide

/-- `ANDS R0, R1, R2, LSL #4`. -/
theorem test_and : arm 0xE0110202#32 (regs [(1, 0xFFFFFFFF#32), (2, 0x10000001#32)] start)
    (fun t => [t.reg 0, flags t]) = some [0x10#32, 0b00100#32] := by decide

/-- `MOVS R0, R1, RRX`. -/
theorem test_mov : arm 0xE1B00061#32 (regs [(1, 0x1#32)] (psr 0x200000D3#32 start))
    (fun t => [t.reg 0, flags t]) = some [0x80000000#32, 0b10100#32] := by decide

/-- `MOVS R0, R1, ROR R2`. -/
theorem test_mov_2 : arm 0xE1B00271#32 (regs [(1, 0x80000001#32), (2, 0x24#32)] start)
    (fun t => [t.reg 0, flags t]) = some [0x18000000#32, 0b00000#32] := by decide

/-- `MVNS R0, R1`. -/
theorem test_mvn : arm 0xE1F00001#32 (regs [(1, 0xFFFFFFFF#32)] start)
    (fun t => [t.reg 0, flags t]) = some [0x0#32, 0b01000#32] := by decide

/-- `BICS R0, R0, #0x1F`. -/
theorem test_bic : arm 0xE3D0001F#32 (regs [(0, 0x1F#32)] start)
    (fun t => [t.reg 0, flags t]) = some [0x0#32, 0b01000#32] := by decide

/-- `ORR R0, R0, #0x1000`. -/
theorem test_orr : arm 0xE3800A01#32 (regs [(0, 0x78#32)] start) (fun t => [t.reg 0]) = some [0x1078#32] := by decide

/-- `EOR R3, R3, R4`. -/
theorem test_eor : arm 0xE0233004#32 (regs [(3, 0xFFFF0000#32), (4, 0xFFFF00#32)] start)
    (fun t => [t.reg 3]) = some [0xFF00FF00#32] := by decide

/-- `CLZ R0, R1`. -/
theorem test_clz : arm 0xE16F0F11#32 (regs [(1, 0x10000#32)] start) (fun t => [t.reg 0]) = some [0xF#32] := by decide

/-! ### Multiply and DSP extensions (section 3.3) -/

/-- `MULS R0, R1, R2`. -/
theorem test_mul : arm 0xE0100291#32 (regs [(1, 0xFFFFFFFF#32), (2, 0xFFFFFFFF#32)] (psr 0x300000D3#32 start))
    (fun t => [t.reg 0, flags t]) = some [0x1#32, 0b00110#32] := by decide

/-- `MLA R0, R1, R2, R3`. -/
theorem test_mla : arm 0xE0203291#32 (regs [(1, 0x3#32), (2, 0x4#32), (3, 0xFFFFFFFF#32)] start)
    (fun t => [t.reg 0]) = some [0xB#32] := by decide

/-- `UMULL R0, R1, R2, R3`. -/
theorem test_umull : arm 0xE0810392#32 (regs [(2, 0xFFFFFFFF#32), (3, 0xFFFFFFFF#32)] start)
    (fun t => [t.reg 0, t.reg 1]) = some [0x1#32, 0xFFFFFFFE#32] := by decide

/-- `SMULL R0, R1, R2, R3`. -/
theorem test_smull : arm 0xE0C10392#32 (regs [(2, 0xFFFFFFFF#32), (3, 0xFFFFFFFF#32)] start)
    (fun t => [t.reg 0, t.reg 1]) = some [0x1#32, 0x0#32] := by decide

/-- `SMULLS R0, R1, R2, R3`. -/
theorem test_smull_2 : arm 0xE0D10392#32 (regs [(2, 0x80000000#32), (3, 0x2#32)] start)
    (fun t => [t.reg 0, t.reg 1, flags t]) = some [0x0#32, 0xFFFFFFFF#32, 0b10000#32] := by decide

/-- `UMLAL R6, R8, R0, R1`. -/
theorem test_umlal : arm 0xE0A86190#32 (regs [(0, 0xFFFFFFFF#32), (1, 0x2#32), (6, 0x5#32), (8, 0x1#32)] start)
    (fun t => [t.reg 6, t.reg 8]) = some [0x3#32, 0x3#32] := by decide

/-- `SMLAL R0, R1, R2, R3`. -/
theorem test_smlal : arm 0xE0E10392#32 (regs [(0, 0x1#32), (1, 0x0#32), (2, 0xFFFFFFFF#32), (3, 0x1#32)] start)
    (fun t => [t.reg 0, t.reg 1]) = some [0x0#32, 0x0#32] := by decide

/-- `SMULBB R0, R1, R2`. -/
theorem test_smulXY : arm 0xE1600281#32 (regs [(1, 0xFFFF#32), (2, 0x2#32)] start)
    (fun t => [t.reg 0, flags t]) = some [0xFFFFFFFE#32, 0b00000#32] := by decide

/-- `SMLABB R0, R1, R2, R3`. -/
theorem test_smlaXY : arm 0xE1003281#32 (regs [(1, 0x7FFF#32), (2, 0x7FFF#32), (3, 0x7FFFFFFF#32)] start)
    (fun t => [t.reg 0, flags t]) = some [0xBFFF0000#32, 0b00001#32] := by decide

/-- `SMLAWB R0, R1, R2, R3`. -/
theorem test_smlaWY : arm 0xE1203281#32 (regs [(1, 0x10000#32), (2, 0x4#32), (3, 0x1#32)] start)
    (fun t => [t.reg 0, flags t]) = some [0x5#32, 0b00000#32] := by decide

/-- `SMULWB R0, R1, R2`. -/
theorem test_smulWY : arm 0xE12002A1#32 (regs [(1, 0xFFFFFFFF#32), (2, 0x1#32)] start)
    (fun t => [t.reg 0, flags t]) = some [0xFFFFFFFF#32, 0b00000#32] := by decide

/-- `SMLALBT R0, R1, R2, R3`. -/
theorem test_smlalXY : arm 0xE14103C2#32 (regs [(0, 0xFFFFFFFF#32), (1, 0x0#32), (2, 0x1#32), (3, 0x10000#32)] start)
    (fun t => [t.reg 0, t.reg 1, flags t]) = some [0x0#32, 0x1#32, 0b00000#32] := by decide

/-- `QADD R0, R1, R2`. -/
theorem test_qadd : arm 0xE1020051#32 (regs [(1, 0x7FFFFFFF#32), (2, 0x1#32)] start)
    (fun t => [t.reg 0, flags t]) = some [0x7FFFFFFF#32, 0b00001#32] := by decide

/-- `QADD R0, R1, R2`. -/
theorem test_qadd_2 : arm 0xE1020051#32 (regs [(1, 0x80000000#32), (2, 0xFFFFFFFF#32)] start)
    (fun t => [t.reg 0, flags t]) = some [0x80000000#32, 0b00001#32] := by decide

/-- `QSUB R0, R1, R2`. -/
theorem test_qsub : arm 0xE1220051#32 (regs [(1, 0x80000000#32), (2, 0x1#32)] start)
    (fun t => [t.reg 0, flags t]) = some [0x80000000#32, 0b00001#32] := by decide

/-- `QDADD R0, R1, R2`. -/
theorem test_qdadd : arm 0xE1420051#32 (regs [(1, 0x0#32), (2, 0x40000000#32)] start)
    (fun t => [t.reg 0, flags t]) = some [0x7FFFFFFF#32, 0b00001#32] := by decide

/-- `QDSUB R0, R1, R2`. -/
theorem test_qdsub : arm 0xE1620051#32 (regs [(1, 0x0#32), (2, 0x40000000#32)] start)
    (fun t => [t.reg 0, flags t]) = some [0x80000001#32, 0b00001#32] := by decide

/-! ### Load and store (section 3.4) -/

/-- `LDR R0, [R1]`. -/
theorem test_ldr : arm 0xE5910000#32 (regs [(1, 0x1001#32)] (image start))
    (fun t => [t.reg 0]) = some [0x11443322#32] := by decide

/-- `LDR R0, [R1, #4]!`. -/
theorem test_ldr_2 : arm 0xE5B10004#32 (regs [(1, 0x1000#32)] (image start))
    (fun t => [t.reg 0, t.reg 1]) = some [0x88776655#32, 0x1004#32] := by decide

/-- `LDRB R0, [R1, #3]`. -/
theorem test_ldrb : arm 0xE5D10003#32 (regs [(1, 0x1000#32)] (image start))
    (fun t => [t.reg 0]) = some [0x44#32] := by decide

/-- `LDRH R0, [R1, #2]`. -/
theorem test_ldrh : arm 0xE1D100B2#32 (regs [(1, 0x1000#32)] (image start))
    (fun t => [t.reg 0]) = some [0x4433#32] := by decide

/-- `LDRSH R0, [R1, #10]`. -/
theorem test_ldrsh : arm 0xE1D100FA#32 (regs [(1, 0x1000#32)] (image start))
    (fun t => [t.reg 0]) = some [0xFFFFCCBB#32] := by decide

/-- `LDRSB R0, [R1, #8]`. -/
theorem test_ldrsb : arm 0xE1D100D8#32 (regs [(1, 0x1000#32)] (image start))
    (fun t => [t.reg 0]) = some [0xFFFFFF99#32] := by decide

/-- `LDRD R4, [R1]`. -/
theorem test_ldrd : arm 0xE1C140D0#32 (regs [(1, 0x1008#32)] (image start))
    (fun t => [t.reg 4, t.reg 5]) = some [0xCCBBAA99#32, 0xFFEEDD#32] := by decide

/-- `STR R0, [R1, #8]`. -/
theorem test_str : arm 0xE5810008#32 (regs [(0, 0xDEADBEEF#32), (1, 0x2000#32)] start)
    (fun t => [t.reg 1, memWord t.mem 0x2008#32]) = some [0x2000#32, 0xDEADBEEF#32] := by decide

/-- `STRB R0, [R1, #1]`. -/
theorem test_strb : arm 0xE5C10001#32 (regs [(0, 0xDEADBEEF#32), (1, 0x1000#32)] (image start))
    (fun t => [memWord t.mem 0x1000#32]) = some [0x4433EF11#32] := by decide

/-- `STRH R0, [R1, #2]!`. -/
theorem test_strh : arm 0xE1E100B2#32 (regs [(0, 0xDEADBEEF#32), (1, 0x1000#32)] (image start))
    (fun t => [t.reg 1, memWord t.mem 0x1000#32]) = some [0x1002#32, 0xBEEF2211#32] := by decide

/-- `STRD R4, [R1], #8`. -/
theorem test_strd : arm 0xE0C140F8#32 (regs [(4, 0x11111111#32), (5, 0x22222222#32), (1, 0x2000#32)] start)
    (fun t => [t.reg 1, memWord t.mem 0x2000#32, memWord t.mem 0x2004#32]) = some [0x2008#32, 0x11111111#32, 0x22222222#32] := by decide

/-- `LDMDA R0!, {R1, R2}`. -/
theorem test_ldm1 : arm 0xE8300006#32 (regs [(0, 0x1008#32)] (image start))
    (fun t => [t.reg 0, t.reg 1, t.reg 2]) = some [0x1000#32, 0x88776655#32, 0xCCBBAA99#32] := by decide

/-- `STMDB R13!, {R4, R5, R14}`. -/
theorem test_stm1 : arm 0xE92D4030#32 (regs [(13, 0x3000#32), (4, 0x44#32), (5, 0x55#32), (14, 0xEE#32)] start)
    (fun t => [t.reg 13, memWord t.mem 0x2FF4#32, memWord t.mem 0x2FF8#32, memWord t.mem 0x2FFC#32]) = some [0x2FF4#32, 0x44#32, 0x55#32, 0xEE#32] := by decide

/-- `STMIB R0!, {R1, R2}`. -/
theorem test_stm1_2 : arm 0xE9A00006#32 (regs [(0, 0x2000#32), (1, 0xA#32), (2, 0xB#32)] start)
    (fun t => [t.reg 0, memWord t.mem 0x2004#32, memWord t.mem 0x2008#32]) = some [0x2008#32, 0xA#32, 0xB#32] := by decide

/-- `SWP R0, R1, [R2]`. -/
theorem test_swp : arm 0xE1020091#32 (regs [(1, 0xCAFEF00D#32), (2, 0x1004#32)] (image start))
    (fun t => [t.reg 0, memWord t.mem 0x1004#32]) = some [0x88776655#32, 0xCAFEF00D#32] := by decide

/-- `SWP R0, R0, [R2]`. -/
theorem test_swp_2 : arm 0xE1020090#32 (regs [(0, 0x7#32), (2, 0x1000#32)] (image start))
    (fun t => [t.reg 0, memWord t.mem 0x1000#32]) = some [0x44332211#32, 0x7#32] := by decide

/-- `SWPB R0, R1, [R2]`. -/
theorem test_swpb : arm 0xE1420091#32 (regs [(1, 0xCAFEF00D#32), (2, 0x1005#32)] (image start))
    (fun t => [t.reg 0, memWord t.mem 0x1004#32]) = some [0x66#32, 0x88770D55#32] := by decide

/-! ### Branches (section 3.5) -/

/-- `SUB PC, PC, #4`. -/
theorem test_sub_2 : arm 0xE24FF004#32 start
    (fun t => [t.pc, t.cpsr &&& 0x20#32]) = some [0x8004#32, 0#32] := by decide

/-- `LDMIA R13!, {R4, PC}`. -/
theorem test_ldm1_2 : arm 0xE8BD8010#32 (regs [(13, 0x1000#32)] (mem [(0x1000#32, 0x44#32), (0x1004#32, 0x9000#32)] start))
    (fun t => [t.reg 4, t.reg 13, t.pc, t.cpsr &&& 0x20#32]) = some [0x44#32, 0x1008#32, 0x9000#32, 0#32] := by decide

/-- `B 0x7FF0`. -/
theorem test_b : arm 0xEAFFFFFA#32 start (fun t => [t.pc, t.cpsr &&& 0x20#32]) = some [0x7FF0#32, 0#32] := by decide

/-- `BHI 0x8010`. -/
theorem test_b_2 : arm 0x8A000002#32 (psr 0x600000D3#32 start)
    (fun t => [t.pc, t.cpsr &&& 0x20#32]) = some [0x8004#32, 0#32] := by decide

/-- `BL 0x9000`. -/
theorem test_bl : arm 0xEB0003FE#32 start
    (fun t => [t.reg 14, t.pc, t.cpsr &&& 0x20#32]) = some [0x8004#32, 0x9000#32, 0#32] := by decide

/-- `BX R0`. -/
theorem test_bx : arm 0xE12FFF10#32 (regs [(0, 0x9001#32)] start)
    (fun t => [t.pc, t.cpsr &&& 0x20#32]) = some [0x9000#32, 0x20#32] := by decide

/-- `BLX R3`. -/
theorem test_blx2 : arm 0xE12FFF33#32 (regs [(3, 0x9001#32)] start)
    (fun t => [t.reg 14, t.pc, t.cpsr &&& 0x20#32]) = some [0x8004#32, 0x9000#32, 0x20#32] := by decide

/-- `BLX 0x9002`. -/
theorem test_blx1 : arm 0xFB0003FE#32 start
    (fun t => [t.reg 14, t.pc, t.cpsr &&& 0x20#32]) = some [0x8004#32, 0x9002#32, 0x20#32] := by decide

/-! ### Status registers (section 3.6) -/

/-- `MRS R0, CPSR`. -/
theorem test_mrs : arm 0xE10F0000#32 (psr 0x600000D3#32 start)
    (fun t => [t.reg 0]) = some [0x600000D3#32] := by decide

/-- `MSR CPSR_f, #0x90000000`. -/
theorem test_msrImm : arm 0xE328F209#32 (psr 0x60000010#32 start)
    (fun t => [t.cpsr]) = some [0x90000010#32] := by decide

/-- `MSR CPSR_c, #0x1F`. -/
theorem test_msrImm_2 : arm 0xE321F01F#32 (psr 0x60000010#32 start)
    (fun t => [t.cpsr]) = some [0x60000010#32] := by decide

/-- `MSR CPSR_c, R0`. -/
theorem test_msrReg : arm 0xE121F000#32 (regs [(0, 0x92#32)] (psr 0x600000D3#32 start))
    (fun t => [t.cpsr]) = some [0x60000092#32] := by decide

/-- `MSR SPSR_fsxc, R0`. -/
theorem test_msrReg_2 : arm 0xE16FF000#32 (regs [(0, 0x60000010#32)] (psr 0xD2#32 start))
    (fun t => [t.spsr[1]]) = some [0x60000010#32] := by decide

/-! ### The accumulator (section 3.7) -/

/-- `MIA acc0, R2, R3`. -/
theorem test_mia : arm 0xEE203012#32 (regs [(2, 0x7FFFFFFF#32), (3, 0x7FFFFFFF#32)] start)
    (fun t => [(t.acc0 >>> 32).truncate 32, t.acc0.truncate 32]) = some [0xFF#32, 0x1#32] := by decide

/-- `MIAPH acc0, R3, R4`. -/
theorem test_miaph : arm 0xEE284013#32 (regs [(3, 0x20003#32), (4, 0xFFFF0004#32)] start)
    (fun t => [(t.acc0 >>> 32).truncate 32, t.acc0.truncate 32]) = some [0x0#32, 0xA#32] := by decide

/-- `MIABB acc0, R1, R2`. -/
theorem test_miabb : arm 0xEE2C2011#32 (regs [(1, 0x2FFFD#32), (2, 0x50007#32)] { start with acc0 := 0x100#40 })
    (fun t => [(t.acc0 >>> 32).truncate 32, t.acc0.truncate 32]) = some [0x0#32, 0xEB#32] := by decide

/-- `MIABT acc0, R1, R2`. -/
theorem test_miabt : arm 0xEE2D2011#32 (regs [(1, 0x2FFFD#32), (2, 0x50007#32)] { start with acc0 := 0x100#40 })
    (fun t => [(t.acc0 >>> 32).truncate 32, t.acc0.truncate 32]) = some [0x0#32, 0xF1#32] := by decide

/-- `MIATB acc0, R1, R2`. -/
theorem test_miatb : arm 0xEE2E2011#32 (regs [(1, 0x2FFFD#32), (2, 0x50007#32)] { start with acc0 := 0x100#40 })
    (fun t => [(t.acc0 >>> 32).truncate 32, t.acc0.truncate 32]) = some [0x0#32, 0x10E#32] := by decide

/-- `MIATT acc0, R1, R2`. -/
theorem test_miatt : arm 0xEE2F2011#32 (regs [(1, 0x2FFFD#32), (2, 0x50007#32)] { start with acc0 := 0x100#40 })
    (fun t => [(t.acc0 >>> 32).truncate 32, t.acc0.truncate 32]) = some [0x0#32, 0x10A#32] := by decide

/-- `MAR acc0, R0, R1`. -/
theorem test_mar : arm 0xEC410000#32 (regs [(0, 0x89ABCDEF#32), (1, 0x123456F7#32)] start)
    (fun t => [(t.acc0 >>> 32).truncate 32, t.acc0.truncate 32]) = some [0xF7#32, 0x89ABCDEF#32] := by decide

/-- `MRA R6, R7, acc0`. -/
theorem test_mra : arm 0xEC576000#32 { start with acc0 := 0xF789ABCDEF#40 }
    (fun t => [t.reg 6, t.reg 7, (t.acc0 >>> 32).truncate 32, t.acc0.truncate 32]) = some [0x89ABCDEF#32, 0xFFFFFFF7#32, 0xF7#32, 0x89ABCDEF#32] := by decide

/-! ### Thumb (section 3.8) -/

/-- `LSL R0, R1, #4`. -/
theorem test_tLsl1 : thumb 0x0108#16 (regs [(1, 0xF0000001#32)] (psr 0xF3#32 start))
    (fun t => [t.reg 0, flags t]) = some [0x10#32, 0b00100#32] := by decide

/-- `LSR R2, R3, #32`. -/
theorem test_tLsr1 : thumb 0x081A#16 (regs [(3, 0x80000000#32)] (psr 0xF3#32 start))
    (fun t => [t.reg 2, flags t]) = some [0x0#32, 0b01100#32] := by decide

/-- `ASR R2, R3, #32`. -/
theorem test_tAsr1 : thumb 0x101A#16 (regs [(3, 0x80000000#32)] (psr 0xF3#32 start))
    (fun t => [t.reg 2, flags t]) = some [0xFFFFFFFF#32, 0b10100#32] := by decide

/-- `ADD R0, R1, R2`. -/
theorem test_tAdd3 : thumb 0x1888#16 (regs [(1, 0x7FFFFFFF#32), (2, 0x1#32)] (psr 0xF3#32 start))
    (fun t => [t.reg 0, flags t]) = some [0x80000000#32, 0b10010#32] := by decide

/-- `SUB R0, R1, R2`. -/
theorem test_tSub3 : thumb 0x1A88#16 (regs [(1, 0x5#32), (2, 0x7#32)] (psr 0xF3#32 start))
    (fun t => [t.reg 0, flags t]) = some [0xFFFFFFFE#32, 0b10000#32] := by decide

/-- `ADD R0, R1, #7`. -/
theorem test_tAdd1 : thumb 0x1DC8#16 (regs [(1, 0xFFFFFFFF#32)] (psr 0xF3#32 start))
    (fun t => [t.reg 0, flags t]) = some [0x6#32, 0b00100#32] := by decide

/-- `SUB R0, R1, #1`. -/
theorem test_tSub1 : thumb 0x1E48#16 (regs [(1, 0x0#32)] (psr 0xF3#32 start))
    (fun t => [t.reg 0, flags t]) = some [0xFFFFFFFF#32, 0b10000#32] := by decide

/-- `MOV R0, #255`. -/
theorem test_tMov1 : thumb 0x20FF#16 (psr 0x300000F3#32 start)
    (fun t => [t.reg 0, flags t]) = some [0xFF#32, 0b00110#32] := by decide

/-- `CMP R1, #16`. -/
theorem test_tCmp1 : thumb 0x2910#16 (regs [(1, 0x10#32)] (psr 0xF3#32 start))
    (fun t => [flags t]) = some [0b01100#32] := by decide

/-- `ADD R2, #1`. -/
theorem test_tAdd2 : thumb 0x3201#16 (regs [(2, 0xFFFFFFFF#32)] (psr 0xF3#32 start))
    (fun t => [t.reg 2, flags t]) = some [0x0#32, 0b01100#32] := by decide

/-- `SUB R3, #200`. -/
theorem test_tSub2 : thumb 0x3BC8#16 (regs [(3, 0xC8#32)] (psr 0xF3#32 start))
    (fun t => [t.reg 3, flags t]) = some [0x0#32, 0b01100#32] := by decide

/-- `AND R0, R1`. -/
theorem test_tAnd : thumb 0x4008#16 (regs [(0, 0xFF00FF00#32), (1, 0xFF00FF0#32)] (psr 0xF3#32 start))
    (fun t => [t.reg 0, flags t]) = some [0xF000F00#32, 0b00000#32] := by decide

/-- `EOR R0, R1`. -/
theorem test_tEor : thumb 0x4048#16 (regs [(0, 0xFFFF0000#32), (1, 0xFF00FF00#32)] (psr 0xF3#32 start))
    (fun t => [t.reg 0, flags t]) = some [0xFFFF00#32, 0b00000#32] := by decide

/-- `LSL R0, R1`. -/
theorem test_tLsl2 : thumb 0x4088#16 (regs [(0, 0x1#32), (1, 0x20#32)] (psr 0xF3#32 start))
    (fun t => [t.reg 0, flags t]) = some [0x0#32, 0b01100#32] := by decide

/-- `LSR R0, R1`. -/
theorem test_tLsr2 : thumb 0x40C8#16 (regs [(0, 0x80000000#32), (1, 0x20#32)] (psr 0xF3#32 start))
    (fun t => [t.reg 0, flags t]) = some [0x0#32, 0b01100#32] := by decide

/-- `ASR R0, R1`. -/
theorem test_tAsr2 : thumb 0x4108#16 (regs [(0, 0x80000000#32), (1, 0x28#32)] (psr 0xF3#32 start))
    (fun t => [t.reg 0, flags t]) = some [0xFFFFFFFF#32, 0b10100#32] := by decide

/-- `ADC R0, R1`. -/
theorem test_tAdc : thumb 0x4148#16 (regs [(0, 0xFFFFFFFF#32), (1, 0x0#32)] (psr 0x200000F3#32 start))
    (fun t => [t.reg 0, flags t]) = some [0x0#32, 0b01100#32] := by decide

/-- `SBC R0, R1`. -/
theorem test_tSbc : thumb 0x4188#16 (regs [(0, 0x0#32), (1, 0x0#32)] (psr 0xF3#32 start))
    (fun t => [t.reg 0, flags t]) = some [0xFFFFFFFF#32, 0b10000#32] := by decide

/-- `ROR R0, R1`. -/
theorem test_tRor : thumb 0x41C8#16 (regs [(0, 0x1#32), (1, 0x1#32)] (psr 0xF3#32 start))
    (fun t => [t.reg 0, flags t]) = some [0x80000000#32, 0b10100#32] := by decide

/-- `ROR R0, R1`. -/
theorem test_tRor_2 : thumb 0x41C8#16 (regs [(0, 0x80000001#32), (1, 0x20#32)] (psr 0xF3#32 start))
    (fun t => [t.reg 0, flags t]) = some [0x80000001#32, 0b10100#32] := by decide

/-- `TST R0, R1`. -/
theorem test_tTst : thumb 0x4208#16 (regs [(0, 0x80000000#32), (1, 0x80000000#32)] (psr 0xF3#32 start))
    (fun t => [flags t]) = some [0b10000#32] := by decide

/-- `NEG R0, R1`. -/
theorem test_tNeg : thumb 0x4248#16 (regs [(1, 0x1#32)] (psr 0xF3#32 start))
    (fun t => [t.reg 0, flags t]) = some [0xFFFFFFFF#32, 0b10000#32] := by decide

/-- `NEG R0, R1`. -/
theorem test_tNeg_2 : thumb 0x4248#16 (regs [(1, 0x80000000#32)] (psr 0xF3#32 start))
    (fun t => [t.reg 0, flags t]) = some [0x80000000#32, 0b10010#32] := by decide

/-- `CMP R0, R1`. -/
theorem test_tCmp2 : thumb 0x4288#16 (regs [(0, 0x1#32), (1, 0x2#32)] (psr 0xF3#32 start))
    (fun t => [flags t]) = some [0b10000#32] := by decide

/-- `CMN R0, R1`. -/
theorem test_tCmn : thumb 0x42C8#16 (regs [(0, 0x1#32), (1, 0xFFFFFFFF#32)] (psr 0xF3#32 start))
    (fun t => [flags t]) = some [0b01100#32] := by decide

/-- `ORR R0, R1`. -/
theorem test_tOrr : thumb 0x4308#16 (regs [(0, 0xF0#32), (1, 0xF#32)] (psr 0xF3#32 start))
    (fun t => [t.reg 0, flags t]) = some [0xFF#32, 0b00000#32] := by decide

/-- `MUL R0, R1`. -/
theorem test_tMul : thumb 0x4348#16 (regs [(0, 0x10000#32), (1, 0x10000#32)] (psr 0xF3#32 start))
    (fun t => [t.reg 0, flags t]) = some [0x0#32, 0b01000#32] := by decide

/-- `BIC R0, R1`. -/
theorem test_tBic : thumb 0x4388#16 (regs [(0, 0xFF#32), (1, 0xF#32)] (psr 0xF3#32 start))
    (fun t => [t.reg 0, flags t]) = some [0xF0#32, 0b00000#32] := by decide

/-- `MVN R0, R1`. -/
theorem test_tMvn : thumb 0x43C8#16 (regs [(1, 0x0#32)] (psr 0xF3#32 start))
    (fun t => [t.reg 0, flags t]) = some [0xFFFFFFFF#32, 0b10000#32] := by decide

/-- `ADD R0, R8`. -/
theorem test_tAdd4 : thumb 0x4440#16 (regs [(0, 0x1#32), (8, 0xFFFFFFFF#32)] (psr 0xF3#32 start))
    (fun t => [t.reg 0, flags t]) = some [0x0#32, 0b00000#32] := by decide

/-- `CMP R8, R9`. -/
theorem test_tCmp3 : thumb 0x45C8#16 (regs [(8, 0x5#32), (9, 0x5#32)] (psr 0xF3#32 start))
    (fun t => [flags t]) = some [0b01100#32] := by decide

/-- `MOV R8, R0`. -/
theorem test_tMov3 : thumb 0x4680#16 (regs [(0, 0x80000000#32)] (psr 0xF3#32 start))
    (fun t => [t.reg 8, flags t]) = some [0x80000000#32, 0b00000#32] := by decide

/-- `BX R0`. -/
theorem test_tBx : thumb 0x4700#16 (regs [(0, 0x9000#32)] (psr 0xF3#32 start))
    (fun t => [t.pc, t.cpsr &&& 0x20#32]) = some [0x9000#32, 0#32] := by decide

/-- `BX R0`. -/
theorem test_tBx_2 : thumb 0x4700#16 (regs [(0, 0x9001#32)] (psr 0xF3#32 start))
    (fun t => [t.pc, t.cpsr &&& 0x20#32]) = some [0x9000#32, 0x20#32] := by decide

/-- `BLX R3`. -/
theorem test_tBlx2 : thumb 0x4798#16 (regs [(3, 0x9000#32)] (psr 0xF3#32 start))
    (fun t => [t.reg 14, t.pc, t.cpsr &&& 0x20#32]) = some [0x8003#32, 0x9000#32, 0#32] := by decide

/-- `LDR R0, [PC, #4]`. -/
theorem test_tLdr3 : thumb 0x4801#16 (mem [(0x8008#32, 0x12345678#32)] { psr 0xF3#32 start with pc := 0x8002#32 })
    (fun t => [t.reg 0]) = some [0x12345678#32] := by decide

/-- `LDR R0, [R1, R2]`. -/
theorem test_tLdr2 : thumb 0x5888#16 (regs [(1, 0x1000#32), (2, 0x8#32)] (image (psr 0xF3#32 start)))
    (fun t => [t.reg 0]) = some [0xCCBBAA99#32] := by decide

/-- `STR R0, [R1, R2]`. -/
theorem test_tStr2 : thumb 0x5088#16 (regs [(0, 0xDEADBEEF#32), (1, 0x2000#32), (2, 0x4#32)] (psr 0xF3#32 start))
    (fun t => [memWord t.mem 0x2004#32]) = some [0xDEADBEEF#32] := by decide

/-- `STRH R0, [R1, R2]`. -/
theorem test_tStrh2 : thumb 0x5288#16 (regs [(0, 0xDEADBEEF#32), (1, 0x1000#32), (2, 0x2#32)] (image (psr 0xF3#32 start)))
    (fun t => [memWord t.mem 0x1000#32]) = some [0xBEEF2211#32] := by decide

/-- `STRB R0, [R1, R2]`. -/
theorem test_tStrb2 : thumb 0x5488#16 (regs [(0, 0xDEADBEEF#32), (1, 0x1000#32), (2, 0x3#32)] (image (psr 0xF3#32 start)))
    (fun t => [memWord t.mem 0x1000#32]) = some [0xEF332211#32] := by decide

/-- `LDRSB R0, [R1, R2]`. -/
theorem test_tLdrsb : thumb 0x5688#16 (regs [(1, 0x1000#32), (2, 0x8#32)] (image (psr 0xF3#32 start)))
    (fun t => [t.reg 0]) = some [0xFFFFFF99#32] := by decide

/-- `LDRH R0, [R1, R2]`. -/
theorem test_tLdrh2 : thumb 0x5A88#16 (regs [(1, 0x1000#32), (2, 0x6#32)] (image (psr 0xF3#32 start)))
    (fun t => [t.reg 0]) = some [0x8877#32] := by decide

/-- `LDRB R0, [R1, R2]`. -/
theorem test_tLdrb2 : thumb 0x5C88#16 (regs [(1, 0x1000#32), (2, 0x5#32)] (image (psr 0xF3#32 start)))
    (fun t => [t.reg 0]) = some [0x66#32] := by decide

/-- `LDRSH R0, [R1, R2]`. -/
theorem test_tLdrsh : thumb 0x5E88#16 (regs [(1, 0x1000#32), (2, 0xA#32)] (image (psr 0xF3#32 start)))
    (fun t => [t.reg 0]) = some [0xFFFFCCBB#32] := by decide

/-- `LDR R0, [R1, #12]`. -/
theorem test_tLdr1 : thumb 0x68C8#16 (regs [(1, 0x1000#32)] (image (psr 0xF3#32 start)))
    (fun t => [t.reg 0]) = some [0xFFEEDD#32] := by decide

/-- `STR R0, [R1, #124]`. -/
theorem test_tStr1 : thumb 0x67C8#16 (regs [(0, 0xAA#32), (1, 0x2000#32)] (psr 0xF3#32 start))
    (fun t => [memWord t.mem 0x207C#32]) = some [0xAA#32] := by decide

/-- `LDRB R0, [R1, #31]`. -/
theorem test_tLdrb1 : thumb 0x7FC8#16 (regs [(1, 0xFE8#32)] (image (psr 0xF3#32 start)))
    (fun t => [t.reg 0]) = some [0x88#32] := by decide

/-- `STRB R0, [R1, #0]`. -/
theorem test_tStrb1 : thumb 0x7008#16 (regs [(0, 0x1FF#32), (1, 0x1000#32)] (image (psr 0xF3#32 start)))
    (fun t => [memWord t.mem 0x1000#32]) = some [0x443322FF#32] := by decide

/-- `LDRH R0, [R1, #62]`. -/
theorem test_tLdrh1 : thumb 0x8FC8#16 (regs [(1, 0xFCC#32)] (image (psr 0xF3#32 start)))
    (fun t => [t.reg 0]) = some [0xCCBB#32] := by decide

/-- `STRH R0, [R1, #2]`. -/
theorem test_tStrh1 : thumb 0x8048#16 (regs [(0, 0xABCD#32), (1, 0x1004#32)] (image (psr 0xF3#32 start)))
    (fun t => [memWord t.mem 0x1004#32]) = some [0xABCD6655#32] := by decide

/-- `LDR R0, [SP, #8]`. -/
theorem test_tLdr4 : thumb 0x9802#16 (regs [(13, 0x1000#32)] (image (psr 0xF3#32 start)))
    (fun t => [t.reg 0]) = some [0xCCBBAA99#32] := by decide

/-- `STR R0, [SP, #1020]`. -/
theorem test_tStr3 : thumb 0x90FF#16 (regs [(0, 0x55#32), (13, 0x2000#32)] (psr 0xF3#32 start))
    (fun t => [memWord t.mem 0x23FC#32]) = some [0x55#32] := by decide

/-- `ADD R0, PC, #4`. -/
theorem test_tAdd5 : thumb 0xA001#16 (psr 0xF3#32 start) (fun t => [t.reg 0]) = some [0x8008#32] := by decide

/-- `ADD R0, SP, #1020`. -/
theorem test_tAdd6 : thumb 0xA8FF#16 (regs [(13, 0x1000#32)] (psr 0xF3#32 start))
    (fun t => [t.reg 0]) = some [0x13FC#32] := by decide

/-- `ADD SP, #508`. -/
theorem test_tAdd7 : thumb 0xB07F#16 (regs [(13, 0x1000#32)] (psr 0xF3#32 start))
    (fun t => [t.reg 13]) = some [0x11FC#32] := by decide

/-- `SUB SP, #8`. -/
theorem test_tSub4 : thumb 0xB082#16 (regs [(13, 0x1000#32)] (psr 0xF3#32 start))
    (fun t => [t.reg 13]) = some [0xFF8#32] := by decide

/-- `PUSH {R4, R5, LR}`. -/
theorem test_tPush : thumb 0xB530#16 (regs [(13, 0x3000#32), (4, 0x44#32), (5, 0x55#32), (14, 0x8125#32)] (psr 0xF3#32 start))
    (fun t => [t.reg 13, memWord t.mem 0x2FF4#32, memWord t.mem 0x2FF8#32, memWord t.mem 0x2FFC#32]) = some [0x2FF4#32, 0x44#32, 0x55#32, 0x8125#32] := by decide

/-- `POP {R4, R5, PC}`. -/
theorem test_tPop : thumb 0xBD30#16 (regs [(13, 0x1000#32)] (mem [(0x1000#32, 0x44#32), (0x1004#32, 0x55#32), (0x1008#32, 0x9001#32)] (psr 0xF3#32 start)))
    (fun t => [t.reg 4, t.reg 5, t.reg 13, t.pc, t.cpsr &&& 0x20#32]) = some [0x44#32, 0x55#32, 0x100C#32, 0x9000#32, 0x20#32] := by decide

/-- `POP {PC}`. -/
theorem test_tPop_2 : thumb 0xBD00#16 (regs [(13, 0x1000#32)] (mem [(0x1000#32, 0x9000#32)] (psr 0xF3#32 start)))
    (fun t => [t.reg 13, t.pc, t.cpsr &&& 0x20#32]) = some [0x1004#32, 0x9000#32, 0#32] := by decide

/-- `STMIA R0!, {R1, R2}`. -/
theorem test_tStmia : thumb 0xC006#16 (regs [(0, 0x2000#32), (1, 0xA#32), (2, 0xB#32)] (psr 0xF3#32 start))
    (fun t => [t.reg 0, memWord t.mem 0x2000#32, memWord t.mem 0x2004#32]) = some [0x2008#32, 0xA#32, 0xB#32] := by decide

/-- `LDMIA R0!, {R1, R2}`. -/
theorem test_tLdmia : thumb 0xC806#16 (regs [(0, 0x1000#32)] (image (psr 0xF3#32 start)))
    (fun t => [t.reg 0, t.reg 1, t.reg 2]) = some [0x1008#32, 0x44332211#32, 0x88776655#32] := by decide

/-- `LDMIA R0!, {R0, R1}`. -/
theorem test_tLdmia_2 : thumb 0xC803#16 (regs [(0, 0x1000#32)] (image (psr 0xF3#32 start)))
    (fun t => [t.reg 0, t.reg 1]) = some [0x44332211#32, 0x88776655#32] := by decide

/-- `BEQ 0x8010`. -/
theorem test_tB1Low : thumb 0xD006#16 (psr 0x400000F3#32 start)
    (fun t => [t.pc, t.cpsr &&& 0x20#32]) = some [0x8010#32, 0x20#32] := by decide

/-- `BEQ 0x8010`. -/
theorem test_tB1Low_2 : thumb 0xD006#16 (psr 0xF3#32 start)
    (fun t => [t.pc, t.cpsr &&& 0x20#32]) = some [0x8002#32, 0x20#32] := by decide

/-- `B 0x8100`. -/
theorem test_tB2 : thumb 0xE07E#16 (psr 0xF3#32 start)
    (fun t => [t.pc, t.cpsr &&& 0x20#32]) = some [0x8100#32, 0x20#32] := by decide

/-! ### The memory forms and system instructions (the rules' examples; section 4) -/

/-- A state with the MMU on, domain 0 client, and the descriptors of S4 at 0x4000, 0x5000 and above. -/
def mapped (s : State) : State :=
  mem [(0x4004#32, 0xA0000C0E#32), (0x4008#32, 0x5001#32), (0x5004#32, 0xB00077F2#32), (0x4010#32, 0x6003#32),
       (0x600C#32, 0xD0000437#32), (0x4018#32, 0xA0600CA2#32), (0xA0023454#32, 0x11111111#32),
       (0xB0007C04#32, 0x22222222#32), (0xD0000410#32, 0x44444444#32)]
    { s with cp15 := { s.cp15 with control := 0x79#32, dacr := 1#32, ttb := 0x4000#32 } }

/-- S4, rows T1, T2 and T6: a section, a small page and a tiny page. -/
theorem test_translate : [0x123454#32, 0x201C04#32, 0x400C10#32].map (fun a =>
    arm 0xE5910000#32 (regs [(1, a)] (mapped start)) fun t => t.reg 0) =
    [some 0x11111111#32, some 0x22222222#32, some 0x44444444#32] := by decide

/-- S4, rows T3, T8, T9 and T10: FSR and FAR of the data aborts. -/
theorem test_translate_abort : [(0xD0#32, 0x201C04#32), (0xD3#32, 0x203000#32), (0xD3#32, 0x600040#32)].map (fun p =>
    arm 0xE5910000#32 (regs [(1, p.2)] (mapped (psr p.1 start))) fun t => [t.cp15.fsr, t.cp15.far, t.pc, t.reg 14]) =
    [some [0xF#32, 0x201C04#32, 0x10#32, 0x8008#32], some [0x7#32, 0x203000#32, 0x10#32, 0x8008#32],
     some [0x59#32, 0x600040#32, 0x10#32, 0x8008#32]] := by decide

/-- R452: in Supervisor mode on the page of T2, whose permission is for privileged accesses only. -/
theorem test_ldrt : arm 0xE4B10000#32 (regs [(1, 0x201C04#32)] (mapped start))
    (fun t => [t.cp15.fsr, t.reg 1, t.pc]) = some [0xF#32, 0x201C04#32, 0x10#32] := by decide

/-- `LDRBT R0, [R1], #1`. -/
theorem test_ldrbt : arm 0xE4F10001#32 (regs [(1, 0x1003#32)] (image start))
    (fun t => [t.reg 0, t.reg 1]) = some [0x44#32, 0x1004#32] := by decide

/-- `STRT R0, [R1], #4` and `STRBT R0, [R1], #-1`. -/
theorem test_strt : arm 0xE4A10004#32 (regs [(0, 0xDEADBEEF#32), (1, 0x1000#32)] (image start))
    (fun t => [memWord t.mem 0x1000#32, t.reg 1]) = some [0xDEADBEEF#32, 0x1004#32] := by decide
theorem test_strbt : arm 0xE4610001#32 (regs [(0, 0xDEADBEEF#32), (1, 0x1000#32)] (image start))
    (fun t => [memWord t.mem 0x1000#32, t.reg 1]) = some [0x443322EF#32, 0xFFF#32] := by decide

/-- R464: a doubleword at an address that is not 8-aligned. -/
theorem test_ldrd_align : arm 0xE1C140D0#32 (regs [(1, 0x1004#32)] (image start))
    (fun t => [t.cp15.far, t.reg 14, t.reg 4]) = some [0x1004#32, 0x8008#32, 0#32] := by decide

/-- `LDMIA R0, {R13}^` and `STMIA R0, {R13}^` of R473: the User-mode R13. -/
theorem test_ldm2 : arm 0xE8D02000#32 (regs [(0, 0x1000#32), (13, 7#32)] (image start))
    (fun t => [t.bankReg .usr 13, t.reg 13]) = some [0x44332211#32, 7#32] := by decide
theorem test_stm2 : arm 0xE8C02000#32
    (regs [(0, 0x2000#32)] ((regs [(13, 7#32)] start).setBankReg .usr 13 9#32))
    (fun t => memWord t.mem 0x2000#32) = some 9#32 := by decide

/-- `LDMIA R13!, {R0, PC}^` of R472: the state comes from the SPSR. -/
theorem test_ldm3 : arm 0xE8FD8001#32
    (regs [(13, 0x1000#32)] (mem [(0x1000#32, 5#32), (0x1004#32, 0x9000#32)] { start with spsr := start.spsr.set 2 0x60000010#32 }))
    (fun t => [t.reg 0, t.pc, t.cpsr, t.bankReg .svc 13]) =
    some [5#32, 0x9000#32, 0x60000010#32, 0x1008#32] := by decide

/-- R476: PLD of the null pointer. -/
theorem test_pldImm : arm 0xF5D1F000#32 start (fun t => [t.pc, t.cp15.fsr]) = some [0x8004#32, 0#32] := by decide
theorem test_pldReg : arm 0xF7D1F102#32 start (fun t => t.pc) = some 0x8004#32 := by decide

/-- S1: SWI and an undefined word from User mode. -/
theorem test_swi : arm 0xEF000011#32 (psr 0x60000010#32 start)
    (fun t => [t.reg 14, t.spsr[2], t.cpsr, t.pc]) = some [0x8004#32, 0x60000010#32, 0x60000093#32, 8#32] := by decide
theorem test_undefMedia : arm 0xE7F000F0#32 (psr 0x60000010#32 start)
    (fun t => [t.reg 14, t.spsr[4], t.cpsr, t.pc]) = some [0x8004#32, 0x60000010#32, 0x6000009B#32, 4#32] := by decide
theorem test_undefMsrImm : arm 0xE30F0001#32 start (fun t => t.pc) = some 4#32 := by decide

/-- S11, rows D1 to D3: BKPT with debug off, in Monitor mode and in Halt mode. -/
theorem test_bkpt : [0#32, 0x80000000#32, 0xC0000000#32].map (fun d =>
    arm 0xE1212374#32 (psr 0x60000013#32 { start with dbgUnit := { start.dbgUnit with dcsr := d } })
      fun t => [t.pc, t.cpsr, t.dbgUnit.dcsr]) =
    [some [0x8004#32, 0x60000013#32, 0#32], some [0xC#32, 0x60000097#32, 0x8000000C#32],
     some [0#32, 0x600000D5#32, 0xC000000C#32]] := by decide

/-- S11, row D4, and R733. -/
theorem test_tBkpt : [0#32, 0xC0000000#32].map (fun d =>
    thumb 0xBEAB#16 (psr 0x60000033#32 { start with dbgUnit := { start.dbgUnit with dcsr := d } })
      fun t => [t.pc, t.reg 14, t.spsr[5]]) =
    [some [0x8002#32, 0#32, 0#32], some [0#32, 0x8004#32, 0x60000033#32]] := by decide

/-- R732, R731 and R666. -/
theorem test_tSwi : thumb 0xDF05#16 (psr 0xF3#32 start)
    (fun t => [t.reg 14, t.spsr[2], t.cpsr, t.pc]) = some [0x8002#32, 0xF3#32, 0xD3#32, 8#32] := by decide
theorem test_tUndef :
    [0xDE00#16, 0xB100#16, 0xB200#16, 0xB300#16, 0xB600#16, 0xB700#16, 0xB800#16, 0xBF00#16, 0xE801#16].map (fun h =>
      thumb h (psr 0xF3#32 start) fun t => (t.pc, t.reg 14)) = List.replicate 9 (some (4#32, 0x8002#32)) := by decide

/-- R741 to R743: the halves of BL and BLX at 0x100 and 0x102. -/
theorem test_tBlPrefix : [0xF000#16, 0xF7FF#16].map (fun h =>
    thumb h { psr 0xF3#32 start with pc := 0x100#32 } fun t => t.reg 14) =
    [some 0x104#32, some 0xFFFFF104#32] := by decide
theorem test_tBlSuffix : thumb 0xFFFE#16 (regs [(14, 0xFFFFF104#32)] { psr 0xF3#32 start with pc := 0x102#32 })
    (fun t => [t.pc, t.reg 14]) = some [0x100#32, 0x105#32] := by decide
theorem test_tBlxSuffix : thumb 0xE810#16 (regs [(14, 0x104#32)] { psr 0xF3#32 start with pc := 0x102#32 })
    (fun t => [t.pc, t.reg 14, t.cpsr]) = some [0x124#32, 0x105#32, 0xD3#32] := by decide

/-- R548: LDC and STC of CCNT. -/
theorem test_ldcOffset : arm 0xED921E00#32 (regs [(2, 0x1000#32)] (mem [(0x1000#32, 0x1234#32)] start))
    (fun t => t.pmu.ccnt) = some 0x1234#32 := by decide
theorem test_stcOffset : arm 0xEDA21E01#32 (regs [(2, 0x1000#32)] { start with pmu := { start.pmu with ccnt := 7#32 } })
    (fun t => [memWord t.mem 0x1004#32, t.reg 2]) = some [7#32, 0x1004#32] := by decide

/-- S3 and R541 to R543: absent coprocessors, CP0 with CPAR clear, CP15 in User mode. -/
theorem test_absent : [0xEE100A10#32, 0xEE000100#32, 0xEC410100#32, 0xEC510100#32, 0xED921000#32, 0xED821000#32].map
    (fun w => arm w start fun t => (t.pc, t.reg 14)) = List.replicate 6 (some (4#32, 0x8004#32)) := by decide
theorem test_denied : [0xEE203012#32, 0xEC576000#32, 0xEE110F10#32, 0xEE0F0F11#32].map
    (fun w => arm w (psr 0x10#32 { start with cp15 := State.reset.cp15 }) fun t => (t.pc, t.cpsr)) =
    List.replicate 4 (some (4#32, 0x9B#32)) := by decide

/-- S2: the registers of CP15 and CP14. -/
theorem test_mrcCacheType : arm 0xEE100F30#32 start (fun t => t.reg 0) = some 0x0B1AA1AA#32 := by decide
theorem test_mcrControl : arm 0xEE010F10#32 (regs [(0, 0x107D#32)] start)
    (fun t => t.cp15.control) = some 0x107D#32 := by decide
theorem test_mcrTtb : arm 0xEE020F10#32 (regs [(0, 0xA0004000#32)] start)
    (fun t => t.cp15.ttb) = some 0xA0004000#32 := by decide
theorem test_mcrPid : arm 0xEE0D0F10#32 (regs [(0, 0x12345678#32)] start)
    (fun t => t.cp15.pid) = some 0x12000000#32 := by decide
theorem test_mcrCpar : arm 0xEE0F0F11#32 (regs [(0, 0x3FFF#32)] start) (fun t => t.cp15.cpar) = some 0x3FFF#32 := by decide
theorem test_mrcTxrxctrl : [0xEE1EFE10#32, 0xEE1E0E10#32].map (fun w =>
    arm w { start with dbgUnit := { start.dbgUnit with txrxctrl := 0xA0000000#32 } } fun t => (t.reg 0, flags t)) =
    [some (0#32, 0b10100#32), some (0xA0000000#32, 0#32)] := by decide
theorem test_mcrTx : arm 0xEE080E10#32 (regs [(0, 0xCAFE0001#32)] start)
    (fun t => [t.dbgUnit.tx, t.dbgUnit.txrxctrl]) = some [0xCAFE0001#32, 0x10000000#32] := by decide
theorem test_mrcRx : arm 0xEE190E10#32
    { start with dbgUnit := { start.dbgUnit with rx := 0x42#32, txrxctrl := 0x80000000#32 } }
    (fun t => [t.reg 0, t.dbgUnit.txrxctrl]) = some [0x42#32, 0#32] := by decide
theorem test_mcrDcsr : arm 0xEE0A0E10#32 (regs [(0, 0xC0FF0003#32)] start)
    (fun t => t.dbgUnit.dcsr) = some 0x80000003#32 := by decide
theorem test_mcrCclkcfg : arm 0xEE060E10#32 (regs [(0, 3#32)] start) (fun t => t.pmu.cclkcfg) = some 3#4 := by decide
theorem test_mcrPwrmode : arm 0xEE070E10#32 (regs [(0, 1#32)] start) (fun t => t.power) = some .idle := by decide

/-- S10, steps 1 and 8. -/
theorem test_mcrPmnc : arm 0xEE000E10#32 (regs [(0, 0x400#32)]
      { start with pmu := { start.pmu with pmnc := 0x7571#32 } })
    (fun t => t.pmu.pmnc &&& 0x771#32) = some 0x100#32 := by decide

/-- S9, rows TB4 and TB5: the bytes of a SWI and of an indirect branch. -/
theorem test_trace : (match endInstr start (exec (.swi 14#4 0#24) (psr 0xD3#32 { start with
      dbgUnit := { start.dbgUnit with dcsr := 0x80000001#32 }, trace := { start.trace with count := 3#4 } })) with
    | .next t => some t.trace.bytes | _ => none) = some [(0, 0x23#8)] := by decide

/-- S6, steps 1 to 4: the entry written, the round-robin pointer and the lock pointer. -/
theorem test_tlb_miss : arm 0xE5910000#32 (regs [(1, 0x123454#32)] (mapped start))
    (fun t => (t.dtlb.entries.map Prod.fst, t.dtlb.rr, t.dtlb.lock)) = some ([31], 0, 0) := by decide
theorem test_mcrLockDTlbEntry : arm 0xEE0A1F18#32 (regs [(1, 0x123454#32)]
      { mapped start with dtlb := { entries := [], rr := 1, lock := 1 } })
    (fun t => (t.dtlb.entries.map Prod.fst, t.dtlb.rr, t.dtlb.lock)) = some ([1], 31, 2) := by decide

/-- S7: a byte, a halfword and a store in big-endian order. -/
theorem test_big_endian : [0xE5D10000#32, 0xE1D100B2#32, 0xE5910000#32].map (fun w =>
    arm w (regs [(1, 0x1000#32)] (image { start with cp15 := { start.cp15 with control := 0xF8#32 } })) fun t => t.reg 0) =
    [some 0x44#32, some 0x2211#32, some 0x44332211#32] := by decide

/-- S8: alignment checking on. -/
theorem test_alignment : [0xE5910000#32, 0xE5810000#32, 0xE1D100B0#32].map (fun w =>
    arm w (regs [(1, 0x1003#32)] { start with cp15 := { start.cp15 with control := 0x7A#32 } })
      fun t => [t.cp15.far, t.reg 14, t.pc, t.cpsr]) =
    List.replicate 3 (some [0x1003#32, 0x8008#32, 0x10#32, 0xD7#32]) := by decide

/-- A state with the MMU and the data cache on and section 0 write-back, and the line of 0x2000 loaded and stored to. -/
def dirty : State :=
  let s := mem [(0x4000#32, 0xC0E#32), (0x2000#32, 0x11111111#32)]
    (regs [(0, 0x22222222#32), (1, 0x2000#32)]
      { start with cp15 := { start.cp15 with control := 0x7D#32, dacr := 1#32, ttb := 0x4000#32 } })
  ((arm 0xE5912000#32 s id).bind fun t => arm 0xE5810000#32 t id).getD s

/-- S12, rows K3 and K4: the dirty line, its clean, its invalidation. -/
theorem test_cache_store : (memWord dirty.mem 0x2000#32, dirty.dcache.lines.map fun l => (l.1, l.2.dirtyLo)) =
    (0x11111111#32, [(31, true)]) := by decide
theorem test_mcrCleanDCacheLine : ((arm 0xEE071F3A#32 dirty id).bind fun t => arm 0xEE070F9A#32 t fun u =>
    (memWord u.mem 0x2000#32, u.dcache.lines.map fun l => l.2.dirtyLo)) = some (0x22222222#32, [false]) := by decide
theorem test_mcrInvDCacheLine : ((arm 0xEE071F36#32 dirty id).bind fun t => arm 0xE5912000#32 t fun u => u.reg 2) =
    some 0x11111111#32 := by decide

/-- R595, R596: a dirty line of the mini-data cache that is also in the main one. -/
def inBoth : State :=
  let l : DLine := { tag := 8#22, paLine := 0x100#27, data := List.replicate 32 7#8, dirtyLo := false, dirtyHi := false,
                     bad := 0#32 }
  regs [(1, 0x2000#32)] { start with dcache := { start.dcache with lines := [(31, l)] },
                                     miniDc := { start.miniDc with lines := [(0, { l with dirtyHi := true })] } }
theorem test_mcrCleanDCacheLine_both : arm 0xEE071F3A#32 inBoth (fun t =>
    (t.dataByte 0x2000, t.dataByte 0x2010, t.miniDc.lines.map fun l => l.2.dirtyHi)) = some (0#8, 7#8, [false]) := by decide
theorem test_mcrInvDCacheLine_both : arm 0xEE071F36#32 inBoth (fun t =>
    (t.dcache.lines, t.miniDc.lines, t.dataByte 0x2010)) = some ([], [], 0#8) := by decide

/-- The MMU and the instruction cache on, the code in a non-cacheable section, section 0 cacheable (R229). -/
def lockable : State :=
  mem [(0x4000#32, 0xC0E#32), (0x4008#32, 0x200C02#32)] (regs [(0, 0x1A4C0#32)]
    { start with pc := 0x208000#32,
                 cp15 := { start.cp15 with control := 0x1079#32, dacr := 1#32, ttb := 0x4000#32 } })

/-- S12, row K6: an instruction line locked into way 0 of set 6. -/
theorem test_mcrLockILine : arm 0xEE090F11#32 lockable
    (fun t => (t.icache.lines.map Prod.fst, t.icache.locked)) = some ([192], [(6, 1)]) := by decide

/-- S5: the PID remap. -/
theorem test_mva : [0x8000#32, 0x01FFFFFC#32, 0x02000000#32].map
    (fun a => { start with cp15 := { start.cp15 with pid := 0x0A000000#32 } }.mva a) =
    [0x0A008000#32, 0x0BFFFFFC#32, 0x02000000#32] := by decide

/-- Section 3.1: MOV<cond> R0, #1 with flags that pass and flags that fail. -/
theorem test_conditions : [(0x03A00001#32, 0x40000000#32), (0x83A00001#32, 0x20000000#32), (0xB3A00001#32, 0x80000000#32),
      (0x83A00001#32, 0x60000000#32), (0xC3A00001#32, 0x80000000#32), (0xD3A00001#32, 0#32)].map (fun p =>
    arm p.1 (psr (p.2 ||| 0xD3#32) start) fun t => t.reg 0) =
    [some 1#32, some 1#32, some 1#32, some 0#32, some 0#32, some 0#32] := by decide

/-- A step from reset runs the word at 0: `MOV R0, #0xFF000000` of R373. -/
theorem test_step : (match step (State.reset.withFetchWord 32 0xE3A004FF) with
    | .next t => some (t.reg 0, t.pc) | _ => none) = some (0xFF000000#32, 4#32) := by decide


/-! ### Devices, other masters, the turns of a step (R135, R146, R848) -/

/-- A device at 0x40000000 that has words to answer with. -/
def device : State := regs [(0, 0xAABBCCDD#32), (1, 0x40000004#32)]
  { start with physMap := [{ base := 0x40000000, size := 0x1000, kind := .device, widths := [] }],
               deviceReplies := [0x11223344#32, 5#32] }
theorem test_device_load : arm 0xE5912000#32 device (fun t => (t.reg 2, t.deviceReplies, t.deviceLog)) =
    some (0x11223344#32, [5#32],
      [{ write := false, addr := 0x40000004#32, data := [0x44#8, 0x33#8, 0x22#8, 0x11#8] }]) := by decide
theorem test_device_store : arm 0xE5C10000#32 device (fun t => (t.mem, t.deviceLog)) =
    some ([], [{ write := true, addr := 0x40000004#32, data := [0xDD#8] }]) := by decide
/-- R135, D5: what answers depends on the width: words are memory and bytes an error; words are a device's and other
widths memory. -/
def byWidth : State := regs [(0, 0xAABBCCDD#32), (1, 0x1000#32)]
  { start with physMap := [{ base := 0x1000, size := 4, kind := .memory, widths := [4] },
                           { base := 0x1004, size := 4, kind := .device, widths := [4] },
                           { base := 0x1004, size := 4, kind := .memory, widths := [] }] }
theorem test_region_widths : [1, 2, 4].map (byWidth.regionAt 0x1000#32) = [some .busError, some .busError, none] ∧
    [1, 2, 4].map (byWidth.regionAt 0x1004#32) = [none, none, some .device] ∧ byWidth.regionAt 0x1008#32 1 = none := by
  decide
theorem test_store_widths : [0xE5810000#32, 0xE5C10000#32, 0xE5C10004#32, 0xE5810004#32].map (fun w =>
      arm w byWidth fun t => (memWord t.mem 0x1000#32, memWord t.mem 0x1004#32, t.deviceLog.length,
        t.pendingAbort.isSome)) =
    [some (0xAABBCCDD#32, 0#32, 0, false), some (0#32, 0#32, 0, true), some (0#32, 0xDD#32, 0, false),
     some (0#32, 0#32, 1, false)] := by decide
/-- R272: the fetch side, running ahead, reads at the target of a branch that is usually taken, else in address order. -/
def predicting (history : BitVec 2) : State :=
  { start with
    schedule := [.outside (.fetchAhead 1)]
    cp15 := { start.cp15 with control := 0x878#32 }
    btb := [(btbIndex 0x8000#32, { tag := btbTag 0x8000#32, target := 0x9000#32, history := history, suffix := none })] }
theorem test_fetch_predicted : [0#2, 1#2, 2#2, 3#2].map (fun h => match step (predicting h) with
      | .next t => (t.fetchBuffers.map (·.line), t.pc) | _ => ([], 0#32)) =
    [([0x400#27], 0x8000#32), ([0x400#27], 0x8000#32), ([0x480#27], 0x8000#32), ([0x480#27], 0x8000#32)] := by decide
theorem test_master_write :
    (match step { start with schedule := [.outside (.masterWrite 0x1000#32 [1#8, 2#8]), .core] } with
    | .next t => some (memWord t.mem 0x1000#32, t.schedule, t.pc) | _ => none) =
    some (0x201#32, [.core], 0x8000#32) := by decide
theorem test_core_turn :
    (match step (mem [(0x8000#32, 0xE3A004FF#32)] { start with schedule := [.core, .outside .idcode] }) with
    | .next t => some (t.reg 0, t.schedule, t.pc) | _ => none) =
    some (0xFF000000#32, [.outside .idcode], 0x8004#32) := by decide
/-- R141: another master writes between the two words of an LDM, and only a master outside the chip within a swap. -/
theorem test_master_between : arm 0xE8900006#32 (regs [(0, 0x1000#32)]
    (image { start with between := [[{ offChip := false, addr := 0x1004#32, data := [1#8, 2#8, 3#8, 4#8] }]] }))
    (fun t => (t.reg 1, t.reg 2, t.between)) = some (0x44332211#32, 0x04030201#32, []) := by decide
theorem test_swap_between : [true, false].map (fun b => arm 0xE1020091#32 (regs [(1, 0xCAFEF00D#32), (2, 0x1004#32)]
    (image { start with between := [[{ offChip := b, addr := 0x1000#32, data := [1#8] }]] }))
    fun t => (memGet t.mem 0x1000, t.between.length, memWord t.mem 0x1004#32)) =
    [some (1#8, 1, 0xCAFEF00D#32), some (0x11#8, 1, 0xCAFEF00D#32)] := by decide
/-- R877: of a parity error and an external abort that merge the external one is reported; R816: a fault pin. -/
theorem test_abort_priority : ((start.latchAbort 0b11000#5 false).latchAbort 0b10110#5 false).pendingAbort.map (·.code) =
    some 0b10110#5 := by decide
theorem test_fault_pin : (match step { start with schedule := [.outside (.faultPins true false)] } with
    | .next t => some t.power | _ => none) = some .sleep := by decide

/-! ### Witnesses: states and operands that meet the hypotheses of each statement, clause by clause -/

/-- A Thumb state and a User-mode state at 0x8000, and one in Supervisor mode with an SPSR of a legal mode. -/
def thumbed : State := psr 0xF3#32 start
def user : State := psr 0x10#32 start
def saved : State := { start with spsr := start.spsr.set 2 0x60000010#32 }
/-- Supervisor mode with an SPSR for Thumb state, and with one that names no mode. -/
def savedThumb : State := { start with spsr := start.spsr.set 2 0x60000030#32 }
def savedBad : State := { start with spsr := start.spsr.set 2 0x60000000#32 }
/-- Registers R0 to R5 at the image. -/
def pointing : State := regs [(0, 0x1000#32), (1, 0x1001#32), (2, 0x1002#32), (3, 0x1004#32), (13, 0x1010#32)] (image start)

theorem witness_ArithmeticResult : start.passes 14#4 = true ∧ op2Allowed (.reg 3#4 1#2 4#4) 1#4 14#4 = true ∧
    (14#4 : RegNum) ≠ 15#4 := by decide
theorem witness_LogicalResult : start.passes 14#4 = true ∧ op2Allowed (.imm 15#4 255#8) 15#4 14#4 = true ∧
    (14#4 : RegNum) ≠ 15#4 := by decide
theorem witness_Comparisons : start.passes 14#4 = true ∧ op2Allowed (.shift 0#5 3#2 15#4) 15#4 0#4 = true := by decide

/-- MOV and MOVS to the PC: an aligned value; an SPSR for Thumb state and an odd value; the stops. -/
theorem witness_ResultToPc_branch : start.passes 14#4 = true ∧ op2Allowed (.shift 0#5 0#2 14#4) 1#4 15#4 = true ∧
    (start.operand2 (.shift 0#5 0#2 14#4)).value.extractLsb' 0 2 = 0#2 := by decide
theorem witness_ResultToPc_return : savedThumb.passes 14#4 = true ∧ savedThumb.spsrOf = some 0x60000030#32 ∧
    (modeOf ((0x60000030#32 : Word).extractLsb' 0 5)).isSome = true ∧ (0x60000030#32 : Word).getLsbD 5 = true := by decide
theorem witness_ResultToPc_unaligned : saved.spsrOf = some 0x60000010#32 ∧
    (modeOf ((0x60000010#32 : Word).extractLsb' 0 5)).isSome = true ∧ (0x60000010#32 : Word).getLsbD 5 = false ∧
    (saved.operand2 (.imm 0#4 1#8)).value.extractLsb' 0 2 ≠ 0#2 := by decide
theorem witness_ResultToPc_noSpsr : user.passes 14#4 = true ∧ user.spsrOf = none := by decide
theorem witness_ResultToPc_illegalMode : savedBad.spsrOf = some 0x60000000#32 ∧
    (modeOf ((0x60000000#32 : Word).extractLsb' 0 5)).isSome = false := by decide

theorem witness_CountLeadingZeros : start.passes 14#4 = true ∧ (14#4 : RegNum) ≠ 15#4 ∧ start.reg 14#4 = 0#32 ∧
    thumbed.reg 15#4 ≠ 0#32 := by decide
theorem witness_ConditionFails : (14#4 : BitVec 4) ≠ 15#4 ∧ (Instr.b 0#4 4#24).cond? = some 0#4 ∧
    start.passes 0#4 = false ∧ (Instr.mcrCpar 0#4 1#4).cond? = some 0#4 := by decide
theorem witness_Multiply : start.passes 14#4 = true ∧ (14#4 : RegNum) ≠ 15#4 ∧ (0#4 : RegNum) ≠ 15#4 := by decide
theorem witness_LongMultiply : start.passes 14#4 = true ∧ (14#4 : RegNum) ≠ 15#4 ∧ (13#4 : RegNum) ≠ 15#4 ∧
    (14#4 : RegNum) ≠ 13#4 := by decide
theorem witness_HalfwordMultiply : start.passes 14#4 = true ∧ (14#4 : RegNum) ≠ 15#4 ∧ (0#4 : RegNum) ≠ 15#4 := by decide
theorem witness_SaturatingArithmetic : start.passes 14#4 = true ∧ (14#4 : RegNum) ≠ 15#4 ∧ (0#4 : RegNum) ≠ 15#4 := by
  decide

/-- A word at an unaligned address with checking off, the halfword at 0x1002, with write-back. -/
theorem witness_LoadRegister : pointing.plainData = true ∧ pointing.passes 14#4 = true ∧ (14#4 : RegNum) ≠ 15#4 ∧
    transferRefusal 1#4 14#4 (mode2Rm (.imm true true 0#12)) (mode2Writes (.imm true true 0#12)) = none ∧
    transferRefusal 1#4 14#4 (offset2Rm (.reg true 0#5 0#2 3#4)) true = none ∧
    mode3Refusal true true 2#4 14#4 (.imm 0#4 0#4) = none ∧
    pointing.alignedFor (pointing.mode2 1#4 (.imm true true 0#12)).at_ 4 = true ∧
    pointing.alignedFor (pointing.mode3 true true true 2#4 (.imm 0#4 0#4)).at_ 2 = true := by decide
theorem witness_StoreSingle : pointing.plainData = true ∧ pointing.passes 14#4 = true ∧
    transferRefusal 1#4 15#4 (mode2Rm (.immPost false 4#12)) (mode2Writes (.immPost false 4#12)) = none ∧
    transferRefusal 1#4 14#4 (offset2Rm (.imm true 4#12)) true = none ∧
    mode3Refusal false false 0#4 14#4 (.reg 3#4) = none ∧
    pointing.alignedFor (pointing.mode3 false true false 0#4 (.reg 3#4)).at_ 2 = true := by decide
theorem witness_Doubleword : pointing.passes 14#4 = true ∧ (13#4 : RegNum).getLsbD 0 = true ∧ pointing.noDebug = true ∧
    (12#4 : RegNum).getLsbD 0 = false ∧ pointing.plainData = true ∧
    doubleRefusal true true 0#4 12#4 (.imm 0#4 8#4) = none ∧
    (pointing.mode3 true true true 0#4 (.imm 0#4 8#4)).at_.extractLsb' 0 3 = 0#3 ∧
    (pointing.mode3 true true true 0#4 (.imm 0#4 4#4)).at_.extractLsb' 0 3 ≠ 0#3 := by decide

/-- Two registers from 0x1000, with write-back; one register in the last word of memory. -/
theorem witness_LoadMultiple : pointing.plainData = true ∧ pointing.passes 14#4 = true ∧ (0#4 : RegNum) ≠ 15#4 ∧
    (0x30#15 : BitVec 15) ≠ 0#15 ∧ pointing.alignedFor (mode4 false true (pointing.reg 0#4) 2).1 4 = true ∧
    (mode4 false true (pointing.reg 0#4) 2).1.toNat / 4 + 2 ≤ 2 ^ 30 ∧
    (listRegs ((0x30#15 : BitVec 15).zeroExtend 16)).contains 0#4 = false ∧ pointing.lacksSpsr = false := by decide
theorem witness_LoadMultiple_top : (mode4 false true 0xFFFFFFFC#32 1).1.toNat / 4 + 1 ≤ 2 ^ 30 := by decide

/-- R15 loaded as 0x8001, and with bits [1:0] = 10. -/
def pops (v : Word) : State := regs [(0, 0x1000#32)] (mem [(0x1000#32, v), (0x1004#32, v)] saved)
theorem witness_LoadsOfPc : (pops 0x8001#32).plainData = true ∧ (pops 0x8001#32).passes 14#4 = true ∧
    transferRefusal 0#4 15#4 (mode2Rm (.immPost true 4#12)) (mode2Writes (.immPost true 4#12)) = none ∧
    ((pops 0x8001#32).mode2 0#4 (.immPost true 4#12)).at_.extractLsb' 0 2 = 0#2 ∧
    ((pops 0x8001#32).loaded 0x1000#32 4).extractLsb' 0 2 ≠ 2#2 ∧
    ((pops 0x8002#32).loaded 0x1000#32 4).extractLsb' 0 2 = 2#2 := by decide
theorem witness_LoadsOfPc_multiple : (0#4 : RegNum) ≠ 15#4 ∧
    (pops 0x8001#32).alignedFor (mode4 false true ((pops 0x8001#32).reg 0#4) 2).1 4 = true ∧
    (mode4 false true ((pops 0x8001#32).reg 0#4) 2).1.toNat / 4 + 2 ≤ 2 ^ 30 ∧
    (listRegs ((0x10#15 : BitVec 15).zeroExtend 16)).contains 0#4 = false ∧
    ((pops 0x8001#32).loaded 0x1004#32 4).extractLsb' 0 2 ≠ 2#2 ∧
    ((pops 0x8002#32).loaded 0x1004#32 4).extractLsb' 0 2 = 2#2 ∧
    ((pops 0x8000#32).loaded 0x1004#32 4).extractLsb' 0 2 = 0#2 ∧ (0x60000010#32 : Word).getLsbD 5 = false ∧
    (pops 0x8001#32).spsrOf = some 0x60000010#32 ∧ (modeOf ((0x60000010#32 : Word).extractLsb' 0 5)).isSome = true ∧
    user.plainData = true ∧ user.spsrOf = none := by decide
theorem witness_StoreMultiple : pointing.plainData = true ∧ pointing.passes 14#4 = true ∧ (0#4 : RegNum) ≠ 15#4 ∧
    (0x8001#16 : BitVec 16) ≠ 0#16 ∧ pointing.alignedFor (mode4 true false (pointing.reg 0#4) 2).1 4 = true ∧
    (mode4 true false (pointing.reg 0#4) 2).1.toNat / 4 + 2 ≤ 2 ^ 30 ∧
    (∀ j, j < 2 → pointing.mva ((mode4 true false (pointing.reg 0#4) 2).1 + BitVec.ofNat 32 (4 * j)) =
      pointing.mva (mode4 true false (pointing.reg 0#4) 2).1 + BitVec.ofNat 32 (4 * j)) ∧
    pointing.lacksSpsr = false := by decide
theorem witness_Swap : pointing.passes 14#4 = true ∧ pointing.plainData = true ∧ (1#4 : RegNum) ≠ 15#4 ∧
    (0#4 : RegNum) ≠ 15#4 ∧ (1#4 : RegNum) ≠ 0#4 ∧ pointing.alignedFor (pointing.reg 1#4) 4 = true ∧
    pointing.alignedFor (pointing.reg 1#4) 1 = true := by decide
theorem witness_Swap_overlap : (14#4 : RegNum) ≠ 15#4 ∧ (0#4 : RegNum) ≠ 15#4 ∧ (14#4 : RegNum) = 14#4 := by decide

/-- MMU and data cache on, and a section at 0xA0000000 that the data TLB holds for the MVAs from 0 on, in domain d with
AP = ap; R1 points into a line, R0 has a value to store. -/
def inTlb (a : Attrs) (d : BitVec 4) (ap : BitVec 8) : State :=
  let e : TlbEntry := { tag := 0#32, size := .section1M, base := 0xA0000000#32, domain := d, ap := ap, attrs := a }
  mem [(0xA0002004#32, 0x11111111#32)] (regs [(0, 0x22222222#32), (1, 0x2004#32)]
    { start with cp15 := { start.cp15 with control := 0x7D#32, dacr := 1#32 },
                 dtlb := { start.dtlb with entries := [(0, e)] } })
def writeBackPage : Attrs := { x := false, c := true, b := true }
def throughPage : Attrs := { x := false, c := true, b := false }
def allocatePage : Attrs := { x := true, c := true, b := true }
def miniPage : Attrs := { x := true, c := true, b := false }
def uncachedPage : Attrs := { x := false, c := false, b := true }
/-- A swap on a bufferable page. -/
theorem witness_Swap_page :
    let s := inTlb uncachedPage 0#4 255#8
    s.passes 14#4 = true ∧ s.inDebug = false ∧ s.debugOn = false ∧ s.mmuOn = true ∧ s.physMap = [] ∧ s.between = [] ∧
      Memory.wf s.mem = true ∧ s.mva (s.reg 1#4) = 0x2004#32 ∧ (0x2004#32 : Word).extractLsb' 0 2 = 0#2 ∧
      (s.dtlb.lookup 0x2004#32).map (·.attrs) = some uncachedPage ∧ uncachedPage.c = false ∧
      s.reservedAttrs uncachedPage = false ∧ s.findDLine 0x2004#32 = none ∧ s.granted 0#4 3#2 s.privileged false = true ∧
      s.granted 0#4 3#2 s.privileged true = true ∧ (1#4 : RegNum) ≠ 0#4 ∧ (1#4 : RegNum) ≠ 2#4 := by decide
/-- R141, R474: the store of a swap does not wait in the write buffer. -/
theorem test_swpb_page : arm 0xE1412090#32 (inTlb uncachedPage 0#4 255#8)
    (fun t => (t.reg 2, memWord t.mem 0xA0002004#32, t.writeBuffer.length)) = some (0x11#32, 0x11111122#32, 0) := by decide

/-- The same with a line in a slot of the main data cache. -/
def withLine (s : State) (tag : BitVec 22) (paLine : BitVec 27) : State :=
  let l : DLine := { tag := tag, paLine := paLine, data := List.replicate 32 7#8, dirtyLo := true, dirtyHi := true,
                     bad := 0#32 }
  { s with dcache := { s.dcache with lines := [(31, l)] } }

/-- MMU off; no translation; no access of the domain; no permission; not cacheable; resident. -/
theorem witness_Preload : start.mmuOn = false ∧ (mapped start).dtlb.lookup 0x2004#32 = none ∧
    (mapped start).mmuOn = true ∧ (14#4 : RegNum) ≠ 15#4 ∧
    ([(inTlb writeBackPage 1#4 255#8), (inTlb writeBackPage 0#4 0#8)].all fun s =>
      s.mmuOn && (s.dtlb.lookup 0x2004#32).any fun e =>
        !s.granted e.domain (e.apFor 0x2004#32) s.privileged false) = true ∧
    (inTlb uncachedPage 0#4 255#8).cacheable uncachedPage = false ∧
    ((withLine (inTlb writeBackPage 0#4 255#8) 8#22 0x5000100#27).findDLine 0x2004#32).isSome = true := by decide
/-- A line fill into either cache; with a locking fill; a bus error; a reserved policy. -/
theorem witness_Preload_fill :
    (∀ a ∈ [writeBackPage, miniPage],
      let s := inTlb a 0#4 255#8
      s.mva (offsetBy true (s.reg 1#4) 0#32) = 0x2004#32 ∧ (s.dtlb.lookup 0x2004#32).map (·.attrs) = some a ∧
      s.granted 0#4 3#2 s.privileged false = true ∧ s.cacheable a = true ∧ s.findDLine 0x2004#32 = none ∧
      s.reservedAttrs a = false ∧ s.writeBuffer = [] ∧ s.physMap = [] ∧ s.dcache = State.reset.dcache ∧
      s.miniDc = State.reset.miniDc ∧ s.cp15.dcacheLock = false) ∧
    writeBackPage.mini = false ∧ miniPage.mini = true ∧
    { inTlb writeBackPage 0#4 255#8 with
        physMap := [{ base := 0xA0002000, size := 32, kind := .busError, widths := [] }] }.regionAt 0xA0002000#32 32 =
      some .busError ∧
    (let s := inTlb miniPage 0#4 255#8
     { s with cp15 := { s.cp15 with auxControl := 0x30#32 } }.reservedAttrs miniPage = true ∧
     { s with cp15 := { s.cp15 with dcacheLock := true } }.reservedAttrs miniPage = false) := by decide
/-- R476: the line that a PLD brings in. -/
theorem test_pld_fill : arm 0xF5D1F000#32 (inTlb writeBackPage 0#4 255#8)
    (fun t => (t.findDLine 0x2000#32).map fun p => (p.1, p.2.1, p.2.2.paLine, p.2.2.data.getD 4 0#8)) =
    some (some (false, 31, 0x5000100#27, 0x11#8)) := by decide

/-- The section of S4, row T1, as client with AP = 11, in User mode. -/
def sectioned : State := regs [(1, 0x123454#32)] (mapped user)
theorem witness_TranslatedAccess : sectioned.passes 14#4 = true ∧ sectioned.inDebug = false ∧
    sectioned.debugOn = false ∧ sectioned.findDLine 0x123454#32 = none ∧
    transferRefusal 1#4 0#4 (mode2Rm (.imm true false 0#12)) (mode2Writes (.imm true false 0#12)) = none ∧
    sectioned.mmuOn = true ∧ sectioned.dcacheOn = false ∧ sectioned.dtlb.entries = [] ∧ sectioned.physMap = [] ∧
    sectioned.writeBuffer = [] ∧ Memory.wf sectioned.mem = true ∧
    (sectioned.mva (sectioned.reg 1#4)).extractLsb' 0 2 = 0#2 ∧
    (sectioned.firstLevel 0x123454#32).extractLsb' 0 2 = 2#2 ∧ (sectioned.firstLevel 0x123454#32).getLsbD 9 = false ∧
    sectioned.reservedAttrs { x := false, c := true, b := true } = false ∧
    sectioned.granted 0#4 3#2 sectioned.privileged true = true := by decide
/-- The second-level descriptors that S4 has not: large and extended small in a coarse table, large and small in a fine
one. -/
def paged : State := mem [(0x5008#32, 0xC0000FF1#32), (0x500C#32, 0xC0001033#32), (0x6010#32, 0xC0000FF1#32),
  (0x6014#32, 0xC0001FF2#32)] (mapped start)
theorem witness_TranslatedAccess_pages :
    [0x201C04#32, 0x202000#32, 0x203000#32, 0x400C10#32, 0x401000#32, 0x401400#32].map (fun a =>
      let l1 := paged.firstLevel a
      ((l1.extractLsb' 0 2).toNat, l1.getLsbD 9, ((memWord paged.mem (secondAddress l1 a)).extractLsb' 0 2).toNat)) =
    [(1, false, 2), (1, false, 1), (1, false, 3), (3, false, 3), (3, false, 1), (3, false, 2)] := by decide

/-- A TLB hit: a load and a store that hit, write-back and write-through; that miss, on a page that is not cacheable, on
one that does not allocate for stores, on one that does, in the mini-data cache; with a dirty line in the place. -/
theorem witness_CachedAccess : ∀ a ∈ [writeBackPage, throughPage, allocatePage, miniPage, uncachedPage],
    let s := inTlb a 0#4 255#8
    s.passes 14#4 = true ∧ s.inDebug = false ∧ s.debugOn = false ∧ s.mmuOn = true ∧ s.physMap = [] ∧
      s.writeBuffer = [] ∧ Memory.wf s.mem = true ∧ s.mva (s.mode2 1#4 (.imm true false 0#12)).at_ = 0x2004#32 ∧
      (s.dtlb.lookup 0x2004#32).map (·.attrs) = some a ∧ s.reservedAttrs a = false ∧
      s.granted 0#4 3#2 s.privileged false = true ∧ s.granted 0#4 3#2 s.privileged true = true ∧
      s.findDLine 0x2004#32 = none ∧ s.dcache = State.reset.dcache ∧ s.miniDc = State.reset.miniDc ∧
      s.cp15.dcacheLock = false := by decide
theorem witness_CachedAccess_policies :
    [writeBackPage, throughPage, allocatePage, miniPage, uncachedPage].map (fun a =>
      let s := inTlb a 0#4 255#8
      [s.cacheable a, s.writeAllocates a, s.writesThrough a, a.mini]) =
    [[true, false, false, false], [true, false, true, false], [true, true, false, false], [true, false, false, true],
     [false, false, false, false]] := by decide
theorem witness_CachedAccess_lines :
    ((withLine (inTlb writeBackPage 0#4 255#8) 8#22 0x5000100#27).findDLine 0x2004#32).map
      (fun p => (p.2.1, p.2.2.bad, p.2.2.data.length)) = some (31, 0#32, 32) ∧
    (withLine (inTlb writeBackPage 0#4 255#8) 9#22 0x5000120#27).findDLine 0x2004#32 = none ∧
    32 * setOf 0x2004#32 + 31 = 31 ∧ (0x5000120#27 : BitVec 27) ≠ (0xA0002004#32 : Word).extractLsb' 5 27 := by decide
/-- R244, R246: the dirty line that a load evicts; R251: a write-through hit, and a store that allocates. -/
theorem test_cache_evict : arm 0xE5912000#32 (withLine (inTlb writeBackPage 0#4 255#8) 9#22 0x5000120#27)
    (fun t => (t.reg 2, t.dataByte 0xA0002400, t.dataByte 0xA000241F, t.dcache.lines.map fun p => (p.1, p.2.paLine))) =
    some (0x11111111#32, 7#8, 7#8, [(31, 0x5000100#27)]) := by decide
theorem test_cache_through : arm 0xE5810000#32 (withLine (inTlb throughPage 0#4 255#8) 8#22 0x5000100#27)
    (fun t => (t.dataByte 0xA0002004, t.dcache.lines.map fun p => (p.1, p.2.data.getD 4 0#8))) =
    some (0x22#8, [(31, 0x22#8)]) := by decide
theorem test_cache_allocate : arm 0xE5810000#32 (inTlb allocatePage 0#4 255#8)
    (fun t => (t.dataByte 0xA0002004, t.dcache.lines.map fun p => (p.1, p.2.data.getD 4 0#8, p.2.dirtyLo, p.2.dirtyHi))) =
    some (0x11#8, [(31, 0x22#8, true, false)]) := by decide

/-- An unaligned address with checking on; a descriptor 0; a domain without access; a section that denies (S4, T12). -/
theorem witness_DataAborts : start.passes 14#4 = true ∧ start.noDebug = true ∧ start.inDebug = false ∧
    transferRefusal 1#4 0#4 (mode2Rm (.imm true false 0#12)) (mode2Writes (.imm true false 0#12)) = none ∧
    (0#4 : RegNum) ≠ 15#4 ∧ transferRefusal 1#4 0#4 (offset2Rm (.imm true 0#12)) true = none := by decide
theorem witness_DataAborts_alignment :
    { start with cp15 := { start.cp15 with control := 0x7A#32 } }.alignCheck = true ∧
    (start.mva 0x1001#32).extractLsb' 0 2 ≠ 0#2 := by decide
theorem witness_DataAborts_translation : (mapped start).mmuOn = true ∧ (mapped start).dtlb.entries = [] ∧
    (0x500000#32 : Word).extractLsb' 0 2 = 0#2 ∧
    (mapped start).regionAt ((mapped start).l1Address 0x500000#32) 4 = none ∧
    ((mapped start).firstLevel 0x500000#32).extractLsb' 0 2 = 0#2 := by decide
theorem witness_DataAborts_domain : ((mapped start).firstLevel 0x600040#32).extractLsb' 0 2 = 2#2 ∧
    ((mapped start).firstLevel 0x600040#32).getLsbD 9 = false ∧
    (mapped start).domainOf (((mapped start).firstLevel 0x600040#32).extractLsb' 5 4) = 0 := by decide
/-- A section with AP = 00, and one with AP = 10, which a User-mode store may not write. -/
def denied : State := mem [(0x401C#32, 0xA0700002#32), (0x4020#32, 0xA0800802#32)] (mapped start)
theorem witness_DataAborts_permission : (denied.firstLevel 0x700000#32).extractLsb' 0 2 = 2#2 ∧
    (denied.firstLevel 0x700000#32).getLsbD 9 = false ∧
    denied.domainOf ((denied.firstLevel 0x700000#32).extractLsb' 5 4) = 1 ∧
    denied.denied ((denied.firstLevel 0x700000#32).extractLsb' 10 2) true false = true ∧
    (denied.firstLevel 0x800000#32).extractLsb' 0 2 = 2#2 ∧
    denied.denied ((denied.firstLevel 0x800000#32).extractLsb' 10 2) false true = true := by decide
/-- The pages of `paged`: none; the domain that denies; the permission that denies to User mode. -/
theorem witness_DataAborts_pages : [0x201C04#32, 0x202000#32, 0x203000#32, 0x204000#32, 0x400C10#32].map (fun a =>
      let l2 := memWord paged.mem (secondAddress (paged.firstLevel a) a)
      ((l2.extractLsb' 0 2).toNat, paged.domainOf ((paged.firstLevel a).extractLsb' 5 4))) =
      [(2, 1), (1, 1), (3, 1), (0, 1), (3, 1)] ∧
    paged.regionAt (secondAddress (paged.firstLevel 0x201C04#32) 0x201C04#32) 4 = none ∧
    { paged with cp15 := { paged.cp15 with dacr := 2#32 } }.domainOf 0#4 = 2 ∧
    (memWord paged.mem (secondAddress (paged.firstLevel 0x201C04#32) 0x201C04#32)).extractLsb' 10 2 = 1#2 ∧
    paged.denied 1#2 false false = true ∧ paged.denied 1#2 false true = true := by decide
theorem witness_DataAborts_bus : (∀ b ∈ [0x4004, 0x5004],
    let s : State := { paged with physMap := [{ base := b, size := 4, kind := .busError, widths := [] }] }
    s.regionAt (s.l1Address 0x123454#32) 4 = (if b = 0x4004 then some .busError else none) ∧
    s.regionAt (secondAddress (s.firstLevel 0x201C04#32) 0x201C04#32) 4 =
      (if b = 0x5004 then some .busError else none)) := by decide

theorem witness_DirectBranches : start.passes 14#4 = true := by decide
theorem witness_ExchangeBranches : start.passes 14#4 = true ∧ (pointing.reg 1#4).extractLsb' 0 2 ≠ 2#2 ∧
    (pointing.reg 2#4).extractLsb' 0 2 = 2#2 ∧ (1#4 : RegNum) ≠ 15#4 := by decide
theorem witness_ReadStatus : saved.passes 14#4 = true ∧ (14#4 : RegNum) ≠ 15#4 ∧ saved.spsrOf = some 0x60000010#32 ∧
    user.mode = .usr ∧ (psr 0x1F#32 start).mode = .sys := by decide

/-- MSR CPSR_c, #0x1F, and #0x33, which would set T; the SPSR of Supervisor mode. -/
theorem witness_WriteStatus : start.passes 14#4 = true ∧ start.inDebug = false ∧
    (0x1F#32 : Word).getLsbD 5 = start.cpsr.getLsbD 5 ∧ (modeOf ((0x1F#32 : Word).extractLsb' 0 5)).isSome = true ∧
    start.mode ≠ .usr ∧ (0x33#32 : Word).getLsbD 5 ≠ start.cpsr.getLsbD 5 ∧ start.mode.spsrIndex = some 2 ∧
    user.mode = .usr := by decide
theorem witness_SoftwareTraps : start.noDebug = true ∧ start.passes 14#4 = true := by decide
theorem witness_Breakpoint : start.debugOn = false ∧
    { start with dbgUnit := { start.dbgUnit with dcsr := 0x80000000#32 } }.debugOn = true ∧
    { start with dbgUnit := { start.dbgUnit with dcsr := 0x80000000#32 } }.haltMode = false ∧
    { start with dbgUnit := { start.dbgUnit with dcsr := 0xC0000000#32 } }.haltMode = true ∧
    start.dbgUnit.sds = false := by decide
theorem witness_ExceptionEntry : start.noDebug = true := by decide
theorem witness_EntryThenReturn : user.noDebug = true ∧ (modeOf (user.cpsr.extractLsb' 0 5)).isSome = true ∧
    user.thumb = false ∧ user.pc.extractLsb' 0 2 = 0#2 := by decide
theorem witness_AbsentCoprocessors : start.passes 14#4 = true ∧ start.noDebug = true ∧ (13#4 : BitVec 4) ≠ 0#4 ∧
    (13#4 : BitVec 4) ≠ 14#4 ∧ (13#4 : BitVec 4) ≠ 15#4 ∧ State.reset.cp0Allowed = false := by decide
theorem witness_UserModeDenied : user.passes 14#4 = true ∧ user.noDebug = true ∧ user.mode = .usr := by decide
theorem witness_RegisterReads : start.passes 14#4 = true ∧ start.privileged = true ∧ start.debugLocked = false ∧
    start.tracing = false := by decide
theorem witness_SystemRegisterWrites : start.passes 14#4 = true ∧ start.privileged = true ∧
    start.debugLocked = false ∧ (14#4 : RegNum) ≠ 15#4 ∧ (0x79#32 : Word).getLsbD 2 = false ∧
    (0x7D#32 : Word).getLsbD 0 = true ∧ dirty.dcacheOn = true ∧ (0x31#32 : Word).getLsbD 1 = false := by decide
theorem witness_MonitorAndDebugWrites : start.passes 14#4 = true ∧ start.privileged = true ∧
    start.debugLocked = false ∧ start.tracing = false ∧ (14#4 : RegNum) ≠ 15#4 ∧
    (1#32 : Word).extractLsb' 0 2 ≠ 2#2 ∧ (2#32 : Word).extractLsb' 0 2 = 2#2 := by decide

theorem witness_InvalidateFunctions : dirty.passes 14#4 = true ∧ dirty.privileged = true ∧ (1#4 : RegNum) ≠ 15#4 ∧
    start.findDLine 0x2000#32 = none ∧ (dirty.findDLine 0x2000#32).map (fun x => (x.1, x.2.1)) = some (false, 31) := by
  decide
/-- A line in the mini-data cache. -/
def miniLine : State :=
  let line : DLine := { tag := 8#22, paLine := 0x100#27, data := [], dirtyLo := true, dirtyHi := false, bad := 0#32 }
  { start with miniDc := { start.miniDc with lines := [(0, line)] } }
theorem witness_InvalidateFunctions_mini :
    (miniLine.findDLine 0x2000#32).map (fun x => (x.1, x.2.1)) = some (true, 0) := by decide
theorem witness_CleanDrainAllocate_both : inBoth.passes 14#4 = true ∧ inBoth.privileged = true ∧ inBoth.physMap = [] ∧
    Memory.wf inBoth.mem = true ∧ (inBoth.lineIn false 0x2000#32).map (fun x => (x.1, x.2.bad)) = some (31, 0#32) ∧
    (inBoth.lineIn true 0x2000#32).map (fun x => (x.1, x.2.bad)) = some (0, 0#32) ∧ inBoth.reg 1#4 = 0x2000#32 ∧
    dirty.lineIn true 0x2000#32 = none ∧ miniLine.lineIn false 0x2000#32 = none ∧
    (miniLine.lineIn true 0x2000#32).map (fun x => (x.1, x.2.bad)) = some (0, 0#32) := by decide
theorem witness_CleanDrainAllocate : dirty.passes 14#4 = true ∧ dirty.privileged = true ∧ (1#4 : RegNum) ≠ 15#4 ∧
    dirty.physMap = [] ∧ Memory.wf dirty.mem = true ∧
    (dirty.findDLine 0x2000#32).map (fun x => (x.2.2.dirtyLo, x.2.2.bad)) = some (true, 0#32) ∧
    start.mmuOn = false ∧ start.dcache = State.reset.dcache ∧ start.miniDc.lines = [] ∧ start.cp15.dcacheLock = false ∧
    Memory.wf start.mem = true := by decide
theorem witness_TlbFunctions : start.passes 14#4 = true ∧ start.privileged = true ∧ (1#4 : RegNum) ≠ 15#4 := by decide

/-- With 27 and with 28 lines of the set locked. -/
def locked (n : Nat) : State := { lockable with icache := { lockable.icache with locked := [(6, n)] } }
theorem witness_LockFunctions : [27, 28].all (fun n =>
    (locked n).passes 14#4 && (locked n).privileged && (locked n).mayLockCode && (locked n).physMap.isEmpty &&
      (findILine (locked n).icache.lines 32 ((locked n).reg 0#4)).isNone &&
      match translate true (lineBase ((locked n).reg 0#4)) true false (locked n) with
      | .ok (pa, a) _ => pa == 0x1A4C0#32 && a.c
      | .error _ _ => false) = true := by decide
theorem witness_LockFunctions_off : dirty.dcacheOn = true ∧ start.mayLockCode = false ∧
    start.icacheOn = false ∧ start.dcacheOn = false ∧ start.mmuOn = false ∧ lockable.icacheOn = true := by decide
theorem witness_LockFunctions_tlb : sectioned.mmuOn = true ∧ sectioned.physMap = [] ∧
    (sectioned.firstLevel 0x123454#32).extractLsb' 0 2 = 2#2 ∧ (sectioned.firstLevel 0x123454#32).getLsbD 9 = false ∧
    sectioned.itlb.lookup 0x123454#32 = none ∧ sectioned.dtlb.lookup 0x123454#32 = none ∧
    (mapped start).noDebug = true ∧ ((mapped start).firstLevel 0x500000#32).extractLsb' 0 2 = 0#2 := by decide
theorem witness_CoprocessorTransfers : pointing.passes 14#4 = true ∧ pointing.privileged = true ∧
    pointing.plainData = true ∧ (0#4 : RegNum) ≠ 15#4 ∧ pointing.debugLocked = false ∧
    pointing.alignedFor (pointing.mode5 true true true 0#4 1#8).at_ 4 = true ∧
    pointing.alignedFor (pointing.mode5 false true true 0#4 255#8).at_ 4 = true ∧
    (pointing.mode5 true true true 15#4 1#8).writes = true ∧ (15#4 : BitVec 4) ∈ [4#4, 5#4, (15#4 : BitVec 4)] ∧
    (14#4 : BitVec 4) ∉ [4#4, 5#4, (15#4 : BitVec 4)] ∧ (pointing.loaded 0x1000#32 4).extractLsb' 0 2 ≠ 2#2 ∧
    ((mem [(0x1000#32, 2#32)] pointing).loaded 0x1000#32 4).extractLsb' 0 2 = 2#2 := by decide
/-- R548, R638: the registers other than CCNT: LDC to DCSR, STC of CHKPT0. -/
theorem test_ldcPost : arm 0xECB2AE01#32 (regs [(2, 0x1000#32)] (mem [(0x1000#32, 0x80000003#32)] start))
    (fun t => (t.dbgUnit.dcsr, t.reg 2)) = some (0x80000003#32, 0x1004#32) := by decide
theorem test_stcPost : arm 0xECA2CE01#32 (regs [(2, 0x1000#32)]
    { start with dbgUnit := { start.dbgUnit with chkpt0 := 0xCAFE#32 } })
    (fun t => (memWord t.mem 0x1000#32, t.reg 2)) = some (0xCAFE#32, 0x1004#32) := by decide
theorem witness_Accumulator : start.passes 14#4 = true ∧ start.cp0Allowed = true ∧ (14#4 : RegNum) ≠ 15#4 ∧
    (0#4 : RegNum) ≠ 15#4 ∧ (14#4 : RegNum) ≠ 0#4 ∧ (7#3 : BitVec 3) ≠ 0#3 := by decide

/-- The operands of each clause of OperandStops. -/
theorem witness_OperandStops : start.passes 14#4 = true ∧
    transferRefusal 1#4 1#4 (mode2Rm (.immPost true 4#12)) (mode2Writes (.immPost true 4#12)) = some .registerOverlap ∧
    rdRefusal 15#4 (transferRefusal 1#4 15#4 (mode2Rm (.imm true false 0#12)) (mode2Writes (.imm true false 0#12))) =
      some .r15Operand ∧
    rdRefusal 0#4 (transferRefusal 0#4 0#4 (offset2Rm (.imm true 0#12)) true) = some .registerOverlap ∧
    mode3Refusal false true 0#4 1#4 (.reg 2#4) = some .addressingMode ∧
    doubleRefusal true true 12#4 12#4 (.imm 0#4 0#4) = some .registerOverlap ∧
    listRefusal 0#4 (listRegs 0#16) = some .registerOverlap ∧ listRefusal 15#4 (listRegs 1#16) = some .r15Operand ∧
    listRefusal 0#4 (listRegs 1#16) = none ∧ user.lacksSpsr = true ∧ (listRegs 1#16).contains 0#4 = true ∧
    op2Allowed (.reg 1#4 0#2 2#4) 0#4 15#4 = false ∧ op2Allowed (.reg 15#4 0#2 2#4) 0#4 0#4 = false ∧
    15#4 ∈ [0#4, 15#4, (1#4 : RegNum)] ∧ 15#4 ∉ [14#4, 14#4, 0#4, (1#4 : RegNum)] ∧ start.cp0Allowed = true ∧
    start.privileged = true := by decide

theorem witness_ThumbHighRegisters : thumbed.thumb = true := by decide
theorem witness_ThumbLoads : (psr 0xF3#32 pointing).thumb = true ∧ (psr 0xF3#32 pointing).plainData = true ∧
    (psr 0xF3#32 pointing).alignedFor 0x1001#32 4 = true ∧ (psr 0xF3#32 pointing).alignedFor 0x1002#32 2 = true := by decide
theorem witness_ThumbStores : (psr 0xF3#32 pointing).plainData = true ∧
    (psr 0xF3#32 pointing).alignedFor 0x1003#32 4 = true ∧ (psr 0xF3#32 pointing).alignedFor 0x1002#32 2 = true := by decide
theorem witness_ThumbMultiple : (psr 0xF3#32 pointing).plainData = true ∧ (0x30#8 : BitVec 8) ≠ 0#8 ∧
    pointing.alignedFor 0x1000#32 4 = true ∧ (0x1000#32 : Word).toNat / 4 + 3 ≤ 2 ^ 30 ∧
    (∀ j, j < 3 → pointing.mva (0x1000#32 + BitVec.ofNat 32 (4 * j)) = pointing.mva 0x1000#32 + BitVec.ofNat 32 (4 * j)) ∧
    (listRegs ((0x30#8 : BitVec 8).zeroExtend 16)).contains (lowReg 0#3) = false ∧
    (pointing.loaded 0x1000#32 4).extractLsb' 0 2 ≠ 2#2 := by decide
theorem witness_ThumbBranches : thumbed.thumb = true ∧ (pointing.reg 1#4).extractLsb' 0 2 ≠ 2#2 ∧
    (pointing.reg 2#4).extractLsb' 0 2 = 2#2 ∧ (1#4 : RegNum) ≠ 15#4 := by decide

theorem witness_ProcessorReset :
    { start with schedule := [.outside (.resetPin true), .core] }.schedule = .outside (.resetPin true) :: [.core] ∧
    start.power ≠ .sleep ∧ start.powerFault = false ∧ start.ldicMode = false ∧ start.haltMode = false ∧
    { start with jtag := { start.jtag with ir := 0b00111#5 } }.ldicMode = true ∧
    { start with dbgUnit := { start.dbgUnit with dcsr := 0x40000000#32 } }.haltMode = true := by decide
theorem witness_StepRunsDecoded : (mem [(0x8000#32, 0xE3A004FF#32)] start).quiet = true ∧
    (mem [(0x8000#32, 0xE3A004FF#32)] start).plainFetch = true ∧
    (mem [(0x8000#32, 0xE3A004FF#32)] start).decodeFetched (mem [(0x8000#32, 0xE3A004FF#32)] start).fetchedWord =
      .instr (.mov 14#4 false 0#4 (.imm 4#4 255#8)) := by decide
theorem witness_StepRunsDecoded_next : start.mode ≠ .dbg ∧ start.tracing = false ∧ start.pmu.pmnc.getLsbD 0 = false ∧
    ranPastTop start { start with pc := 0x8004#32 } = false ∧ start.scratch.dataBreak = false := by decide

/-- User mode with both interrupts unmasked; an imprecise abort that is due; an IRQ; an FIQ; a masked FIQ. -/
theorem witness_BoundaryEvents : user.schedule = [] ∧ user.inReset = false ∧ user.power = .active ∧
    user.dbgUnit.resetTrap = false ∧ user.noDebug = true ∧ user.mode ≠ .dbg ∧ user.bankHazard = false ∧
    user.writeBuffer = [] ∧ user.pmu.pmnc.getLsbD 0 = false ∧ user.pendingAbort = none := by decide
theorem witness_BoundaryEvents_lines : { user with irqLine := true }.irqLevel = true ∧ user.maskI = false ∧
    user.fiqLevel = false ∧ { user with fiqLine := true }.fiqLevel = true ∧ user.maskF = false ∧ user.irqLevel = false ∧
    start.maskF = true ∧ start.maskI = true ∧ user.asyncWait = none ∧
    { user with asyncWait := some 0 }.asyncWait = some 0 ∧ { user with asyncWait := some 1 }.asyncWait = some 1 := by decide
/-- FIQ before IRQ where both are due. -/
theorem test_fiq_first : (match step { user with irqLine := true, fiqLine := true, asyncWait := some 0 } with
    | .next t => some (t.mode, t.pc, t.bankReg .fiq 14#4) | _ => none) = some (.fiq, 0x1C#32, 0x8004#32) := by decide
theorem witness_BoundaryEvents_abort :
    { user with pendingAbort := some { code := 0b10110#5, wait := 0 } }.pendingAbort =
      some { code := 0b10110#5, wait := 0 } := by decide

/-- A step of a state of each invariant answers a next state. -/
def steps : State := mem [(0x8000#32, 0xE3A004FF#32)] start
theorem witness_StepKeepsMemory : Memory.wf steps.mem = true ∧ steps.writeBuffer.length ≤ 8 ∧
    (match step steps with | .next t => t.pc == 0x8004#32 | _ => false) = true := by decide
theorem witness_StepKeepsMode : (modeOf (steps.cpsr.extractLsb' 0 5)).isSome = true ∧ steps.thumb = false ∧
    steps.pc.extractLsb' 0 2 = 0#2 ∧ (match step steps with | .next t => t.pc == 0x8004#32 | _ => false) = true := by decide
theorem witness_StepKeepsFixedBits : steps.cp15.control &&& 0xFFFFC478#32 = 0x78#32 ∧
    steps.cp15.auxControl &&& 0xFFFFFFCE#32 = 0#32 ∧ steps.cp15.ttb &&& 0x3FFF#32 = 0#32 ∧
    steps.cp15.fsr &&& 0xFFFFF900#32 = 0#32 ∧ steps.cp15.pid &&& 0x01FFFFFF#32 = 0#32 ∧ steps.cp15.dbcon &&& 0xFFFFFEF0#32 = 0#32 ∧
    steps.cp15.cpar &&& 0xFFFFC000#32 = 0#32 ∧
    (match step steps with | .next t => t.pc == 0x8004#32 | _ => false) = true := by decide
theorem witness_UserIsolation : user.mode = .usr ∧ user.dbgUnit.sds = false ∧
    (match exec (.swi 14#4 0#24) user with | .next t => t.mode == .svc | _ => false) = true ∧
    (match exec (.mov 14#4 true 0#4 (.imm 0#4 1#8)) user with | .next t => t.mode == .usr | _ => false) = true := by decide
theorem witness_DecodeEncode : (Instr.tLdr1 31#5 7#3 0#3).wf = true ∧ (Instr.mcrInvIDTlb 14#4 0#4).wf = true ∧
    (Instr.ldr 14#4 15#4 15#4 (.regPost false 31#5 3#2 15#4)).wf = true := by decide

/-! ### Well-formedness refuses each ill-formed term -/

theorem test_wf_condition : (Instr.add 15#4 false 0#4 0#4 (.imm 0#4 0#8)).wf = false := by decide
theorem test_wf_mcr_cp15 : (Instr.mcr 14#4 0#3 1#4 0#4 15#4 0#3 0#4).wf = false := by decide
theorem test_wf_mrc_cp14 : (Instr.mrc 14#4 0#3 0#4 0#4 14#4 0#3 0#4).wf = false := by decide
theorem test_wf_mcr_mia : (Instr.mcr 14#4 1#3 0#4 0#4 0#4 0#3 0#4).wf = false := by decide
theorem test_wf_mcrr_mar : (Instr.mcrr 14#4 0#4 0#4 0#4 0#4 0#4).wf = false := by decide
theorem test_wf_mrrc_mra : (Instr.mrrc 14#4 0#4 0#4 0#4 0#4 0#4).wf = false := by decide
theorem test_wf_accepts : (Instr.add 14#4 true 15#4 15#4 (.reg 15#4 3#2 15#4)).wf = true := by decide

end Sys2Proof.Tests
end

/-!
SUPPORT. The step in which nothing but the instruction at the PC happens: what is left of the boundary, of a fetch that
only reads memory, and of the bookkeeping after the instruction. Settles O53.
-/

namespace Sys2Proof.Machine

section

variable {s t s1 : State}

/-! ### What a quiet state leaves out -/

/-- What State.quiet asks beyond the turn being the core's: no reset, no event at the boundary, no breakpoint, no branch
target buffer, no hazard (60_exceptions.md R863). -/
structure State.Undisturbed (s : State) : Prop where
  asyncWait : s.asyncWait = none
  extHeld : s.dbgUnit.extHeld = false
  inReset : s.inReset = false
  power : s.power = .active
  resetTrap : s.dbgUnit.resetTrap = false
  pendingAbort : s.pendingAbort = none
  debugOn : s.debugOn = false
  sds : s.dbgUnit.sds = false
  fiq : s.maskF = true ∨ s.fiqLevel = false
  irq : s.maskI = true ∨ s.irqLevel = false
  breakpointArmed : s.breakpointArmed = false
  btbOn : s.btbOn = false
  bankHazard : s.bankHazard = false
  pmuOff : s.pmu.pmnc.getLsbD 0 = false
  writeBuffer : s.writeBuffer = []

theorem quiet_iff : s.quiet = true ↔ s.coresTurn = true ∧ s.Undisturbed := by
  simp only [State.quiet, State.noDebug, Bool.and_eq_true, Bool.or_eq_true, Bool.not_eq_true', beq_iff_eq,
    List.isEmpty_iff, Option.isNone_iff_eq_none, and_assoc]
  constructor
  · rintro ⟨hturn, hwait, hheld, hreset, hpower, htrap, habort, hdebug, hsds, hfiq, hirq, hbreak, hbtb, hhazard, hpmu,
      hbuffer⟩
    exact ⟨hturn, hwait, hheld, hreset, hpower, htrap, habort, hdebug, hsds, hfiq, hirq, hbreak, hbtb, hhazard, hpmu,
      hbuffer⟩
  · rintro ⟨hturn, h⟩
    exact ⟨hturn, h.asyncWait, h.extHeld, h.inReset, h.power, h.resetTrap, h.pendingAbort, h.debugOn, h.sds, h.fiq,
      h.irq, h.breakpointArmed, h.btbOn, h.bankHazard, h.pmuOff, h.writeBuffer⟩

/-- The turns to come and the notes of the step disturb nothing. -/
theorem State.Undisturbed.withTurn (h : s.Undisturbed) (turns : List Turn) (notes : Scratch) :
    State.Undisturbed { s with schedule := turns, scratch := notes } :=
  ⟨h.asyncWait, h.extHeld, h.inReset, h.power, h.resetTrap, h.pendingAbort, h.debugOn, h.sds, h.fiq, h.irq,
    h.breakpointArmed, h.btbOn, h.bankHazard, h.pmuOff, h.writeBuffer⟩

/-! ### The boundary -/

/-- With debugging off no external break is held back (48_debug_jtag.md R795). -/
theorem holdBreak_of_debugOff (h : s.debugOn = false) (hh : s.dbgUnit.extHeld = false) : s.holdBreak = s := by
  have held : (s.dbgUnit.extBreak && (s.dbgUnit.extHeld || (s.debugOn && s.breaksPostponed))) = s.dbgUnit.extHeld := by
    simp [h, hh]
  unfold State.holdBreak
  rw [held]

theorem asyncDue_of_undisturbed (h : s.Undisturbed) : s.asyncDue = false := by
  have hext : s.extDue = false := by simp [State.extDue, h.debugOn]
  have hfiq : s.fiqDue = false := by rcases h.fiq with e | e <;> simp [State.fiqDue, e]
  have hirq : s.irqDue = false := by rcases h.irq with e | e <;> simp [State.irqDue, e]
  simp [State.asyncDue, hext, hfiq, hirq]

/-- At the boundary nothing is taken, and the state stays. -/
theorem boundary_of_undisturbed (h : s.Undisturbed) : boundary s = (s, false) := by
  have hhold := holdBreak_of_debugOff h.debugOn h.extHeld
  have hnone : s.holdBreak.breakAtOnce = none := by rw [hhold, breakAtOnce_of_debugOff h.debugOn]
  have hwait : ({ s with asyncWait := none } : State) = s := by rw [← h.asyncWait]
  rw [boundary_of_none h.resetTrap h.pendingAbort hnone, hhold, asyncEvents_of_not_due (asyncDue_of_undisturbed h),
    hwait]

/-- The running core does nothing but run the instruction at the PC. -/
theorem runCore_of_undisturbed (h : s.Undisturbed) :
    runCore s = runFetched { s with scratch := Scratch.clear } := by
  have h0 : State.Undisturbed { s with scratch := Scratch.clear } := h.withTurn s.schedule Scratch.clear
  have hhit : State.breakpointHit { s with scratch := Scratch.clear } = false := by
    unfold State.breakpointHit
    rw [h0.debugOn]
    rfl
  unfold runCore
  rw [beginStep_of_empty h.writeBuffer, boundary_of_undisturbed h0]
  simp only [h0.breakpointArmed, hhit, Bool.false_and, Bool.false_eq_true, if_false]

/-! ### A fetch that only reads memory -/

theorem plainFetch_iff : s.plainFetch = true ↔ s.mmuOn = false ∧ s.icacheOn = false ∧ s.icache.lines = [] ∧
    s.miniIc.lines = [] ∧ s.fetchBuffers = [] ∧ s.physMap = [] ∧ s.isModified (s.mva s.pc) = false := by
  simp [State.plainFetch, List.isEmpty_iff, and_assoc]

/-- The word of a line at an address's offset is at that address, aligned. -/
theorem lineBase_add_offset (a : Word) :
    lineBase a + BitVec.ofNat 32 (4 * (offsetOf a / 4)) = a &&& 0xFFFFFFFC#32 := by
  have hbase : (lineBase a).toNat = a.toNat / 32 * 32 := by
    refine (BitVec.toNat_append (a.extractLsb' 5 27) 0#5).trans ?_
    simp only [BitVec.extractLsb'_toNat, BitVec.toNat_ofNat, Nat.shiftRight_eq_div_pow, Nat.shiftLeft_eq,
      Nat.zero_mod, Nat.or_zero]
    omega
  have hoff : offsetOf a = a.toNat % 32 := by simp [offsetOf]
  have hmask : (a &&& 0xFFFFFFFC#32).toNat = a.toNat / 4 * 4 := by
    have hshift : a &&& 0xFFFFFFFC#32 = a >>> 2 <<< 2 := (BitVec.shiftLeft_ushiftRight (x := a) (n := 2)).symm
    simp only [hshift, BitVec.toNat_shiftLeft, BitVec.toNat_ushiftRight, Nat.shiftRight_eq_div_pow, Nat.shiftLeft_eq]
    omega
  apply BitVec.eq_of_toNat_eq
  rw [BitVec.toNat_add, BitVec.toNat_ofNat, hbase, hoff, hmask]
  omega

theorem lineWords_getD_offset (m : List Host.Cell) (a : Word) :
    (lineWords m a).getD (offsetOf a / 4) 0#32 = memWord m (a &&& 0xFFFFFFFC#32) := by
  have hlt : offsetOf a / 4 < 8 := by
    have := (a.extractLsb' 0 5).isLt
    unfold offsetOf
    omega
  simp [lineWords, List.getD_eq_getElem?_getD, hlt, lineBase_add_offset]

/-- The fetch buffer of the line at the PC, as memory holds it (21_mmu_caches_tlb.md R223). -/
def State.plainLine (s : State) : FetchBuffer :=
  { line := (s.mva s.pc).extractLsb' 5 27, paLine := (s.mva s.pc).extractLsb' 5 27,
    words := lineWords s.mem (s.mva s.pc) }

theorem fetchPlace_of_mmuOff (hm : s.mmuOn = false) (hs : s.dbgUnit.sds = false) :
    fetchPlace s = .ok (s.mva s.pc, s.mva s.pc, true) s := by
  unfold fetchPlace State.fetchMva
  simp only [bind, EStateM.bind, get, getThe, MonadStateOf.get, EStateM.get, hm, hs, Bool.false_and, Bool.false_eq_true,
    if_false]
  rfl

/-- A plain fetch reads the line of the PC on the bus and answers the word of memory there (20_memory.md R153). -/
theorem fetchWord_plain (h : s.plainFetch = true) :
    fetchWord (s.mva s.pc) (s.mva s.pc) true s =
      .ok s.fetchedWord { s.noteIMiss with fetchBuffers := [s.plainLine] } := by
  obtain ⟨-, hi, hlines, hmini, hbuf, hmap, hmod⟩ := plainFetch_iff.1 h
  have hread : s.noteIMiss.readILine (s.mva s.pc) = some (lineWords s.mem (s.mva s.pc), s.noteIMiss) := by
    unfold State.readILine
    rw [regionAt_plain (show s.noteIMiss.physMap = [] from hmap)]
    rfl
  have hb : s.noteIMiss.fetchBuffers = [] := hbuf
  unfold fetchWord
  simp only [bind, EStateM.bind, get, getThe, MonadStateOf.get, EStateM.get, hlines, hmini, hbuf, findILine,
    List.find?_nil, hread, hi, hmod, hb, Bool.false_and, Bool.false_eq_true, if_false, set, MonadStateOf.set, EStateM.set,
    List.drop_nil, List.nil_append, pure, EStateM.pure, lineWords_getD_offset]
  rfl

theorem fetch_plain (h : s.plainFetch = true) (hs : s.dbgUnit.sds = false) :
    fetch s = .ok s.fetchedWord { s.noteIMiss with fetchBuffers := [s.plainLine] } := by
  unfold fetch
  simp only [bind, EStateM.bind, fetchPlace_of_mmuOff (plainFetch_iff.1 h).1 hs, fetchWord_plain h]

/-! ### The instruction that was fetched -/

theorem btbStale_of_off (h : s.btbOn = false) (i : Option Instr) : s.btbStale i = false := by simp [State.btbStale, h]

theorem readsBanked_of_noHazard (h : s.bankHazard = false) (i : Instr) : s.readsBanked i = false := by
  simp [State.readsBanked, h]

/-- A word that decodes to an instruction is run, where neither the branch target buffer nor a LDM of user registers
stands in its way (10_state.md R27). -/
theorem runFetched_of_instr {w : Word} {i : Instr} (hf : fetch s = .ok w s1) (hd : s1.decodeFetched w = .instr i)
    (hb : s1.btbOn = false) (hz : s1.bankHazard = false) : runFetched s = endInstr s (exec i s1) := by
  have hs1 : ({ s1 with bankHazard := false } : State) = s1 := by rw [← hz]
  unfold runFetched
  simp only [hf, hd, btbStale_of_off hb, readsBanked_of_noHazard hz, hs1, Bool.false_eq_true, if_false]

/-- An undisturbed step whose fetch is plain is exec of the instruction that the fetched word decodes to. -/
theorem runCore_of_plainFetch {i : Instr} (h : s.Undisturbed) (hf : s.plainFetch = true)
    (hd : s.decodeFetched s.fetchedWord = .instr i) :
    runCore s = endInstr { s with scratch := Scratch.clear }
      (exec i { s with scratch := { Scratch.clear with icacheMiss := 1 }, fetchBuffers := [s.plainLine] }) := by
  rw [runCore_of_undisturbed h]
  exact runFetched_of_instr (fetch_plain (s := { s with scratch := Scratch.clear }) hf h.sds) hd h.btbOn h.bankHazard

theorem step_of_quiet {i : Instr} (hq : s.quiet = true) (hf : s.plainFetch = true)
    (hd : s.decodeFetched s.fetchedWord = .instr i) :
    step s = endInstr { s with schedule := s.schedule.tail, scratch := Scratch.clear }
      (exec i { s with schedule := s.schedule.tail, scratch := { Scratch.clear with icacheMiss := 1 },
                       fetchBuffers := [s.plainLine] }) := by
  obtain ⟨hturn, h⟩ := quiet_iff.1 hq
  calc step s = coreTurn s.takeTurn := step_of_coresTurn hturn
    _ = runCore s.takeTurn := coreTurn_of_active (s := s.takeTurn) h.inReset h.power
    _ = _ := runCore_of_plainFetch (s := s.takeTurn) (h.withTurn s.schedule.tail s.scratch) hf hd

/-- What follows an instruction leaves its answer as it is, where trace buffer and monitor are off, no data breakpoint was
hit, DEBUG mode is not involved and the PC stayed below the top. -/
theorem endInstr_of_quiet (hp : ranPastTop s t = false) (ht : s.tracing = false) (hm : s.pmu.pmnc.getLsbD 0 = false)
    (hd : t.scratch.dataBreak = false) (hs : s.mode ≠ .dbg) (hs' : t.mode ≠ .dbg) :
    endInstr s (.next t) = .next t := by
  rw [endInstr_next hp, endStep_of_quiet true ht hm hd hs hs']

end

/-- Settles O53: the step is the instruction of the fetched word (`step_of_quiet`), and nothing follows its answer
(`endInstr_of_quiet`). -/
theorem stepRunsDecoded : Obligations.StepRunsDecoded := by
  unfold Obligations.StepRunsDecoded
  intro s i hq hf hd line s0 s1
  have hstep : step s = endInstr s0 (exec i s1) := step_of_quiet hq hf hd
  refine ⟨hstep, fun t hexec hbreak hs ht htrace hpc hpmu => ?_⟩
  rw [hstep, hexec]
  exact endInstr_of_quiet (s := s0) hpc htrace hpmu hbreak hs ht

end Sys2Proof.Machine

/-!
SUPPORT. The state after reset: the values the spec gives (10_state.md R100; 70_reset_and_hazards.md R941 to R946), and
that it meets the invariants of the machine. Settles O50 and O51.
-/

namespace Sys2Proof.Machine

section

/-- The CPSR at reset: Supervisor mode, ARM state, both interrupts masked (70_reset_and_hazards.md R941). -/
theorem reset_status : State.reset.mode = .svc ∧ State.reset.maskI = true ∧ State.reset.maskF = true ∧
    State.reset.thumb = false := by decide

/-- No set of a 32-way cache has a locked way at reset, and every pointer is at way 31 (10_state.md R100). -/
theorem reset_pointers (set : Nat) : rrOf State.reset.icache.rr set = 31 ∧ lockedOf State.reset.icache.locked set = 0 ∧
    rrOf State.reset.dcache.rr set = 31 ∧ lockedOf State.reset.dcache.locked set = 0 := ⟨rfl, rfl, rfl, rfl⟩

theorem reset_memoryInv : State.reset.memoryInv := ⟨reset_memory_wf, Nat.zero_le 8⟩

theorem reset_modeInv : State.reset.modeInv := by
  unfold State.modeInv
  decide

theorem reset_fixedBitsInv : State.reset.fixedBitsInv := by
  unfold State.fixedBitsInv
  decide

end

/-- Settles O50: the status register (`reset_status`), the cache pointers (`reset_pointers`), and fields that reset
gives as they stand. -/
theorem resetState : Obligations.ResetState := by
  obtain ⟨hmode, hI, hF, hthumb⟩ := reset_status
  exact ⟨rfl, hmode, hI, hF, hthumb, rfl, rfl, rfl, rfl, rfl, rfl, rfl, rfl, rfl, rfl, rfl, rfl, rfl, rfl, rfl, rfl, rfl,
    rfl, rfl, reset_pointers, rfl, rfl, rfl, rfl⟩

/-- Settles O51. -/
theorem resetInvariants : Obligations.ResetInvariants :=
  ⟨reset_memoryInv, reset_modeInv, reset_fixedBitsInv⟩

end Sys2Proof.Machine

/-!
SUPPORT. What memory accesses, instruction fetches and the functions of the system registers leave of the CPSR, of the PC
and of the fixed bits of the CP15 registers: a relation between the state before and after, and for each computation one
lemma that it stays within it.
-/

namespace Sys2Proof.Machine

section

variable {α β : Type} {s t u : State}

/-! ### The relation -/

/-- The CPSR and the PC are unchanged, and the CP15 registers keep their fixed bits (10_state.md R52 to R66). -/
structure ControlKept (s t : State) : Prop where
  cpsr : t.cpsr = s.cpsr
  pc : t.pc = s.pc
  fixedBits : s.fixedBitsInv → t.fixedBitsInv

theorem ControlKept.refl (s : State) : ControlKept s s := ⟨rfl, rfl, id⟩

theorem ControlKept.trans (h : ControlKept s t) (h' : ControlKept t u) : ControlKept s u :=
  ⟨h'.cpsr.trans h.cpsr, h'.pc.trans h.pc, h'.fixedBits ∘ h.fixedBits⟩

/-- The fixed bits are those of the CP15 registers alone. -/
theorem fixedBitsInv_congr (h : t.cp15 = s.cp15) : s.fixedBitsInv → t.fixedBitsInv := by
  unfold State.fixedBitsInv
  rw [h]
  exact id

theorem ControlKept.of_eq (hcpsr : t.cpsr = s.cpsr) (hpc : t.pc = s.pc) (hcp15 : t.cp15 = s.cp15) : ControlKept s t :=
  ⟨hcpsr, hpc, fixedBitsInv_congr hcp15⟩

/-- A computation that stays within a relation, then others that do. -/
theorem Within.bind {R : State → State → Prop} (ht : ∀ {a b c}, R a b → R b c → R a c) {x : Exec α} {f : α → Exec β}
    (hx : Within R x) (hf : ∀ a, Within R (f a)) : Within R (x >>= f) :=
  fun s => at_bind (hx s) fun a _ h => (hf a).at ht h

/-- A computation that starts by looking at the state. -/
theorem within_get_bind {R : State → State → Prop} {f : State → Exec β} (h : ∀ s, At R s s (f s)) :
    Within R (get >>= f) := fun s => at_get_bind (h s)

/-! ### Updates of memory, buffers and caches -/

theorem controlKept_draw (s : State) : ControlKept s s.draw.2 := ⟨rfl, rfl, id⟩

theorem controlKept_latchAbort (s : State) (c : BitVec 5) (b : Bool) : ControlKept s (s.latchAbort c b) := ⟨rfl, rfl, id⟩

theorem controlKept_noteAccess (s : State) (m : Bool) : ControlKept s (s.noteAccess m) := ⟨rfl, rfl, id⟩

theorem controlKept_noteWriteBack (s : State) : ControlKept s s.noteWriteBack := ⟨rfl, rfl, id⟩

theorem controlKept_noteModified (s : State) (a : Word) (bs : List Byte) : ControlKept s (s.noteModified a bs) :=
  ⟨rfl, rfl, id⟩

theorem controlKept_retire (s : State) (n : Nat) : ControlKept s (s.retire n) := ⟨rfl, rfl, id⟩

theorem controlKept_drain (s : State) : ControlKept s s.drain := controlKept_retire s _

theorem controlKept_fence (s : State) (f : Bool) : ControlKept s (s.fence f) := by
  unfold State.fence
  split
  · exact controlKept_drain s
  · exact .refl s

theorem controlKept_writeThrough (s : State) (a : Word) (bs : List Byte) : ControlKept s (s.writeThrough a bs) :=
  ⟨rfl, rfl, id⟩

theorem controlKept_pushWrite (s : State) (a : Word) (bs : List Byte) (c d : Bool) :
    ControlKept s (s.pushWrite a bs c d) := by
  unfold State.pushWrite
  split
  · exact ⟨rfl, rfl, id⟩
  · dsimp only
    split <;> exact ⟨rfl, rfl, id⟩

theorem controlKept_deviceWords (s : State) (n : Nat) : ControlKept s (s.deviceWords n).2 := by
  induction n with
  | zero => exact .refl s
  | succ n ih =>
    simp only [State.deviceWords]
    split <;> exact ih.trans ⟨rfl, rfl, id⟩

theorem controlKept_deviceRead (s : State) (a : Word) (n : Nat) : ControlKept s (s.deviceRead a n).2 :=
  (controlKept_deviceWords s _).trans ⟨rfl, rfl, id⟩

theorem controlKept_setDLine (s : State) (m : Bool) (i : Nat) (l : DLine) : ControlKept s (s.setDLine m i l) := by
  unfold State.setDLine
  split <;> exact ⟨rfl, rfl, id⟩

theorem controlKept_masterWrite (s : State) (a : Word) (bs : List Byte) : ControlKept s (s.masterWrite a bs) := by
  unfold State.masterWrite
  split
  · exact ⟨rfl, rfl, id⟩
  · exact .refl s

theorem controlKept_masterWrites (s : State) (ws : List BusWrite) : ControlKept s (s.masterWrites ws) := by
  induction ws generalizing s with
  | nil => exact .refl s
  | cons w ws ih => exact (controlKept_masterWrite s _ _).trans (ih _)

theorem controlKept_between (s : State) (b : List (List BusWrite)) : ControlKept s { s with between := b } :=
  ⟨rfl, rfl, id⟩

theorem controlKept_gap (s : State) (more : Bool) : ControlKept s (s.gap more) := by
  unfold State.gap
  split
  · exact .refl s
  · split
    · exact (controlKept_between s _).trans (controlKept_masterWrites _ _)
    · exact .refl s

theorem controlKept_swapGap (s : State) : ControlKept s s.swapGap := by
  unfold State.swapGap
  split
  · exact .refl s
  · exact (controlKept_between s _).trans (controlKept_masterWrites _ _)

theorem controlKept_noteTlbMiss (s : State) (i : Bool) : ControlKept s (s.noteTlbMiss i) := by
  unfold State.noteTlbMiss
  split <;> exact ⟨rfl, rfl, id⟩

theorem controlKept_setTlb (s : State) (i : Bool) (b : Tlb) : ControlKept s (s.setTlb i b) := by
  unfold State.setTlb
  split <;> exact ⟨rfl, rfl, id⟩

/-! ### The fault registers -/

/-- A fault report leaves bit 8 and bits [31:11] of the FSR zero (10_state.md R56; 60_exceptions.md R873). -/
theorem reportedFsr_fixedBits : ∀ (x : BitVec 1) (domain status : BitVec 4),
    (0#21 ++ x ++ 0#1 ++ 0#1 ++ domain ++ status : Word) &&& 0xFFFFF900#32 = 0#32 := by decide

/-- The rule for the fixed bits where only FSR and FAR change. -/
theorem fixedBitsInv_of_fsr {fsr' far' : Word} (h : t.cp15 = { s.cp15 with fsr := fsr', far := far' })
    (hf : fsr' &&& 0xFFFFF900#32 = 0#32) : s.fixedBitsInv → t.fixedBitsInv := by
  unfold State.fixedBitsInv
  rw [h]
  rintro ⟨hcontrol, haux, httb, -, hpid, hdbcon, hcpar⟩
  exact ⟨hcontrol, haux, httb, hf, hpid, hdbcon, hcpar⟩

theorem controlKept_reportFault (s : State) (code : BitVec 5) (domain : Option (BitVec 4)) (far : Option Word) :
    ControlKept s (s.reportFault code domain far) := by
  obtain ⟨fsr', far', n, h⟩ := reportFault_rest s code domain far
  have hfsr : fsr' &&& 0xFFFFF900#32 = 0#32 := by
    have e : (s.reportFault code domain far).cp15.fsr = fsr' := by rw [h]
    rw [← e]
    exact reportedFsr_fixedBits _ _ _
  rw [h]
  exact ⟨rfl, rfl, fixedBitsInv_of_fsr rfl hfsr⟩

theorem controlKept_stickyAbort (s : State) (code : BitVec 5) (domain : Option (BitVec 4)) (far : Option Word) :
    ControlKept s (s.stickyAbort code domain far) :=
  (controlKept_reportFault s code domain far).trans ⟨rfl, rfl, id⟩

/-! ### Loads and stores through caches and buffers -/

theorem drawWord_controlKept : Within ControlKept drawWord := controlKept_draw

theorem writeBackHalf_controlKept (l : DLine) (hi : Bool) : Within ControlKept (writeBackHalf l hi) := by
  refine within_get_bind fun s => ?_
  dsimp only
  split
  · exact at_fault _ (.refl s)
  · exact at_set ((controlKept_noteWriteBack s).trans (controlKept_latchAbort _ _ _))
  · exact at_set ((controlKept_noteWriteBack s).trans (controlKept_pushWrite _ _ _ _ _))

theorem pure_within {R : State → State → Prop} (hr : ∀ s, R s s) (a : α) : Within R (pure a) := hr

theorem writeBack_controlKept (l : DLine) : Within ControlKept (writeBack l) := by
  unfold writeBack
  have upper : Within ControlKept (if l.dirtyHi then writeBackHalf l true else pure ⟨⟩) := by
    split
    · exact writeBackHalf_controlKept l true
    · exact pure_within .refl _
  dsimp only
  split
  · exact (writeBackHalf_controlKept l false).bind .trans fun _ => upper
  · exact upper

theorem allocateLine_controlKept (mini : Bool) (mva pa : Word) (data : List Byte) :
    Within ControlKept (allocateLine mini mva pa data) := by
  refine within_get_bind fun s => ?_
  dsimp only
  split
  · split
    · exact at_refuse _ (.refl s)
    · split
      · exact at_bind (writeBack_controlKept _ s) fun _ t h => at_modify _ (h.trans ⟨rfl, rfl, id⟩)
      · exact at_modify _ ⟨rfl, rfl, id⟩
  · split
    · exact at_bind (writeBack_controlKept _ s) fun _ t h => at_modify _ (h.trans ⟨rfl, rfl, id⟩)
    · exact at_modify _ ⟨rfl, rfl, id⟩

theorem busRead_controlKept (pa : Word) (n : Nat) : Within ControlKept (busRead pa n) := by
  intro s
  refine at_modify_bind (at_get_bind ?_)
  have h := controlKept_fence s s.noCoalesce
  split
  · exact at_pure _ h
  · exact at_set_bind (at_pure _ (h.trans (controlKept_deviceRead _ pa n)))
  · exact at_pure _ h

/-- A computation that latches an imprecise abort, and answers. -/
theorem latch_controlKept (code : BitVec 5) (strong : Bool) (a : α) :
    Within ControlKept ((modify fun s => s.latchAbort code strong : Exec PUnit) >>= fun _ => pure a) :=
  fun s => at_modify_bind (at_pure _ (controlKept_latchAbort s code strong))

theorem fillLine_controlKept (mini : Bool) (mva pa : Word) (latch : Bool) :
    Within ControlKept (fillLine mini mva pa latch) := by
  refine (busRead_controlKept _ _).bind .trans fun bs => ?_
  split
  · exact (allocateLine_controlKept _ _ _ _).bind .trans fun _ => pure_within .refl _
  · dsimp only
    split
    · exact latch_controlKept _ _ _
    · exact pure_within .refl _

theorem loadBus_controlKept (pa : Word) (a : Attrs) (n : Nat) : Within ControlKept (loadBus pa a n) := by
  refine (busRead_controlKept _ _).bind .trans fun bs => ?_
  split
  · exact pure_within .refl _
  · exact latch_controlKept _ _ _

theorem loadHit_controlKept (l : DLine) (a : Attrs) (off n : Nat) : Within ControlKept (loadHit l a off n) := by
  unfold loadHit
  split
  · exact latch_controlKept _ _ _
  · exact pure_within .refl _

theorem loadBytes_controlKept (mva pa : Word) (a : Attrs) (n : Nat) : Within ControlKept (loadBytes mva pa a n) := by
  intro s
  refine at_modify_bind (at_get_bind ?_)
  have hf := controlKept_fence s a.fencesLoad
  have hn := fun m => hf.trans (controlKept_noteAccess (s.fence a.fencesLoad) m)
  split
  · exact at_fault _ hf
  · split
    · exact at_set_bind ((loadHit_controlKept _ _ _ n).at .trans (hn _))
    · refine at_set_bind ?_
      split
      · refine at_bind ((fillLine_controlKept _ _ _ _).at .trans (hn _)) fun ok t h => at_get_bind ?_
        split <;> exact at_pure _ h
      · exact (loadBus_controlKept _ _ n).at .trans (hn _)

theorem storeBus_controlKept (pa : Word) (a : Attrs) (bs : List Byte) : Within ControlKept (storeBus pa a bs) := by
  refine within_get_bind fun s => ?_
  split
  · have h := controlKept_noteModified s pa bs
    dsimp only
    split
    · exact at_set (h.trans (controlKept_writeThrough _ _ _))
    · exact at_set (h.trans (controlKept_pushWrite _ _ _ _ _))
  · split
    · exact at_set ((controlKept_drain s).trans ⟨rfl, rfl, id⟩)
    · exact at_set (controlKept_pushWrite s _ _ _ _)
  · exact at_set (controlKept_latchAbort s _ _)

theorem storeHit_controlKept (mini : Bool) (slot : Nat) (l : DLine) (mva pa : Word) (a : Attrs) (bs : List Byte) :
    Within ControlKept (storeHit mini slot l mva pa a bs) := by
  refine within_get_bind fun s => ?_
  dsimp only
  split
  · exact at_set_bind ((storeBus_controlKept _ _ _).at .trans (controlKept_setDLine s _ _ _))
  · exact at_set ((controlKept_noteModified s _ _).trans (controlKept_setDLine _ _ _ _))

theorem storeBytes_controlKept (mva pa : Word) (a : Attrs) (bs : List Byte) :
    Within ControlKept (storeBytes mva pa a bs) := by
  intro s
  refine at_modify_bind (at_get_bind ?_)
  have hf := controlKept_fence s a.fencesStore
  have hn := fun m => hf.trans (controlKept_noteAccess (s.fence a.fencesStore) m)
  split
  · exact at_fault _ hf
  · split
    · exact at_set_bind ((storeHit_controlKept _ _ _ _ _ _ _).at .trans (hn _))
    · refine at_set_bind ?_
      split
      · refine at_bind ((fillLine_controlKept _ _ _ _).at .trans (hn _)) fun ok t h => at_get_bind ?_
        split
        · exact (storeHit_controlKept _ _ _ _ _ _ _).at .trans h
        · exact at_pure _ h
      · exact (storeBus_controlKept _ _ _).at .trans (hn _)

/-! ### Translation -/

theorem ofExcept_within {R : State → State → Prop} (hr : ∀ s, R s s) (r : Except Trap α) : Within R (ofExcept r) :=
  fun s => at_ofExcept r (hr s)

theorem readDescriptor_controlKept (a : Word) (code : BitVec 5) (domain : Option (BitVec 4)) (mva : Word) :
    Within ControlKept (readDescriptor a code domain mva) := by
  intro s
  unfold At readDescriptor
  cases s.regionAt a 4 with
  | none => exact .refl s
  | some kind =>
    cases kind with
    | device => exact controlKept_deviceRead s a 4
    | _ => exact .refl s

theorem walkFrom_controlKept (l1 mva : Word) : Within ControlKept (walkFrom l1 mva) := by
  unfold walkFrom
  dsimp only
  split
  · exact ofExcept_within .refl _
  · split
    · exact fun s => at_fault _ (.refl s)
    · split
      · exact pure_within .refl _
      · exact (readDescriptor_controlKept _ _ _ _).bind .trans fun _ => ofExcept_within .refl _

theorem walk_controlKept (mva : Word) : Within ControlKept (walk mva) :=
  within_get_bind fun s => (readDescriptor_controlKept _ _ _ _).bind .trans (fun _ => walkFrom_controlKept _ mva) s

theorem findEntry_controlKept (instr : Bool) (mva : Word) : Within ControlKept (findEntry instr mva) := by
  refine within_get_bind fun s => ?_
  split
  · exact at_pure _ (.refl s)
  · refine at_set_bind (at_bind ((walk_controlKept mva).at .trans (controlKept_noteTlbMiss s instr)) fun e t h => ?_)
    exact at_modify_bind (at_pure _ (h.trans (controlKept_setTlb t instr _)))

theorem translate_controlKept (instr : Bool) (mva : Word) (priv write : Bool) :
    Within ControlKept (translate instr mva priv write) :=
  (findEntry_controlKept instr mva).bind .trans fun _ => within_get_bind fun s =>
    (ofExcept_within .refl _).bind .trans (fun _ => pure_within .refl _) s

theorem translateData_controlKept (mva : Word) (priv write : Bool) :
    Within ControlKept (translateData mva priv write) := by
  refine within_get_bind fun s => ?_
  split
  · exact translate_controlKept false mva priv write s
  · exact at_pure _ (.refl s)

/-! ### MemRead and MemWrite -/

theorem alignmentFault_controlKept (mva : Word) : Within ControlKept (alignmentFault mva : Exec α) := controlKept_draw

theorem dataPlace_controlKept (va : Word) (n : Nat) (priv write store : Bool) :
    Within ControlKept (dataPlace va n priv write store) := by
  refine within_get_bind fun s => ?_
  dsimp only
  split
  · exact alignmentFault_controlKept _ s
  · split
    · exact at_refuse _ (.refl s)
    · refine at_bind (translateData_controlKept _ _ _ s) fun p t h => ?_
      exact at_modify_bind (at_pure _ (h.trans ⟨rfl, rfl, id⟩))

/-- A computation whose data aborts Special Debug State only records (48_debug_jtag.md R812): the relation has to allow
that record, in that state. -/
theorem ignoreAbortInSds_within {R : State → State → Prop} (ht : ∀ {a b c}, R a b → R b c → R a c)
    (hr : ∀ t code domain far, t.dbgUnit.sds = true → R t (t.stickyAbort code domain far)) {x y : Exec α}
    (hx : Within R x) (hy : Within R y) : Within R (ignoreAbortInSds x y) := by
  intro s
  unfold At ignoreAbortInSds
  cases e : x s with
  | ok a t => exact hx.ok e
  | error r t =>
    have h := hx.error e
    cases r with
    | dataAbort code domain far =>
      dsimp only
      cases hs : t.dbgUnit.sds with
      | true => exact hy.at ht (ht h (hr t code domain far hs))
      | false => exact h
    | _ => exact h

theorem ignoreAbortInSds_controlKept {x y : Exec α} (hx : Within ControlKept x) (hy : Within ControlKept y) :
    Within ControlKept (ignoreAbortInSds x y) :=
  ignoreAbortInSds_within .trans (fun t code domain far _ => controlKept_stickyAbort t code domain far) hx hy

theorem refuseAbortInSds_within {R : State → State → Prop} {x : Exec α} (hx : Within R x) :
    Within R (refuseAbortInSds x) := by
  intro s
  unfold At refuseAbortInSds
  cases e : x s with
  | ok a t => exact hx.ok e
  | error r t =>
    have h := hx.error e
    cases r with
    | dataAbort code domain far =>
      dsimp only
      cases t.dbgUnit.sds <;> exact h
    | _ => exact h

theorem loadedValue_controlKept (f : List Byte → Word) (bs : Option (List Byte)) :
    Within ControlKept (loadedValue f bs) := by
  cases bs with
  | none => exact drawWord_controlKept
  | some bs => exact pure_within .refl _

theorem memReadRaw_controlKept (f : List Byte → Word) (va : Word) (n : Nat) (priv : Bool) :
    Within ControlKept (memReadRaw f va n priv) :=
  (dataPlace_controlKept _ _ _ _ _).bind .trans fun _ => (loadBytes_controlKept _ _ _ _).bind .trans fun _ =>
    loadedValue_controlKept _ _

theorem memReadAs_controlKept (f : List Byte → Word) (va : Word) (n : Nat) (priv : Bool) :
    Within ControlKept (memReadAs f va n priv) :=
  ignoreAbortInSds_controlKept (memReadRaw_controlKept f va n priv) drawWord_controlKept

theorem memWriteRaw_controlKept (va : Word) (n : Nat) (priv : Bool) (v : Word) :
    Within ControlKept (memWriteRaw va n priv v) :=
  (dataPlace_controlKept _ _ _ _ _).bind .trans fun _ => storeBytes_controlKept _ _ _ _

theorem memWrite_controlKept (va : Word) (n : Nat) (priv : Bool) (v : Word) :
    Within ControlKept (memWrite va n priv v) :=
  ignoreAbortInSds_controlKept (memWriteRaw_controlKept va n priv v) (pure_within .refl _)

theorem checkSpan_controlKept (a : Word) (n : Nat) : Within ControlKept (checkSpan a n) := by
  intro s
  unfold At checkSpan
  by_cases h : a.toNat / 4 + n ≤ 2 ^ 30
  · rw [if_pos h]; exact .refl s
  · rw [if_neg h]; exact .refl s

theorem loadWords_controlKept (priv : Bool) (rs : List RegNum) (a : Word) :
    Within ControlKept (loadWords priv rs a) := by
  induction rs generalizing a with
  | nil => exact pure_within .refl _
  | cons r rs ih =>
    intro s
    unfold At loadWords
    cases e : memReadRaw wordOf a 4 priv s with
    | ok v t =>
      have h := ((memReadRaw_controlKept wordOf a 4 priv).ok e).trans (controlKept_gap t !rs.isEmpty)
      dsimp only
      cases e' : loadWords priv rs (a + 4#32) (t.gap !rs.isEmpty) with
      | ok p u => exact h.trans ((ih _).ok e')
      | error x u => exact h.trans ((ih _).error e')
    | error x t =>
      have h := (memReadRaw_controlKept wordOf a 4 priv).error e
      cases x <;> exact h

theorem storeWords_controlKept (priv : Bool) (vs : List Word) (a : Word) :
    Within ControlKept (storeWords priv vs a) := by
  induction vs generalizing a with
  | nil => exact pure_within .refl _
  | cons v vs ih =>
    exact (refuseAbortInSds_within (memWriteRaw_controlKept a 4 priv v)).bind .trans fun _ s =>
      at_modify_bind ((ih _).at .trans (controlKept_gap s !vs.isEmpty))

theorem swapAccess_controlKept (va : Word) (n : Nat) (priv : Bool) (v : Word) :
    Within ControlKept (swapAccess va n priv v) := by
  refine (dataPlace_controlKept va n priv false true).bind .trans fun _ => ?_
  refine (dataPlace_controlKept va n priv true true).bind .trans fun p => within_get_bind fun s => ?_
  refine at_bind (loadBytes_controlKept _ _ _ _ s) fun bs t h => at_modify_bind ?_
  refine at_bind ((storeBytes_controlKept _ _ _ _).at .trans (h.trans (controlKept_swapGap t))) fun _ u h' => ?_
  exact at_modify_bind ((loadedValue_controlKept _ _).at .trans (h'.trans (controlKept_fence u _)))

/-- PLD is a line fill, or nothing (42_load_store.md R476). -/
theorem preload_controlKept (va : Word) : Within ControlKept (preload va) := by
  refine within_get_bind fun s => ?_
  dsimp only
  split
  · exact at_pure _ (.refl s)
  · split
    · exact at_pure _ (.refl s)
    · split
      · exact at_set (controlKept_noteAccess s _)
      · split
        · exact at_fault _ (.refl s)
        · exact at_set_bind (at_bind ((fillLine_controlKept _ _ _ _).at .trans (controlKept_noteAccess s _))
            fun _ _ h => at_pure _ h)

end

end Sys2Proof.Machine

/-! ### Fetch -/
namespace Sys2Proof.Machine
section

variable {α : Type} {s t u : State}

theorem fetchPlace_controlKept : Within ControlKept fetchPlace := by
  refine within_get_bind fun s => ?_
  dsimp only
  split
  · exact at_bind (translate_controlKept _ _ _ _ s) fun _ _ h => at_pure _ h
  · exact at_pure _ (.refl s)

theorem oneOf_controlKept (w : Word) (ws : List Word) : Within ControlKept (oneOf w ws) := by
  intro s
  unfold At oneOf
  cases ws.all (· == w)
  · exact controlKept_draw s
  · exact .refl s

theorem heldWord_controlKept (paLine : BitVec 27) (pa held : Word) : Within ControlKept (heldWord paLine pa held) := by
  intro s
  unfold At heldWord
  cases paLine != pa.extractLsb' 5 27 || (s.regionAt (lineBase pa) 32).isSome
  · exact oneOf_controlKept _ _ s
  · exact .refl s

theorem controlKept_readILine {pa : Word} {words : List Word} (h : s.readILine pa = some (words, t)) :
    ControlKept s t := by
  unfold State.readILine at h
  split at h
  · cases h; exact .refl s
  · cases h; exact controlKept_deviceRead s _ _
  · cases h

theorem fetchWord_controlKept (mva pa : Word) (cacheable : Bool) : Within ControlKept (fetchWord mva pa cacheable) := by
  have hit (l : ILine) : Within ControlKept (match l.word mva with
      | some w => if l.downloaded then pure w else heldWord l.paLine pa w
      | none => fun s => .error (.prefetchAbort 0b11000#5) s) := by
    split
    · split
      · exact pure_within .refl _
      · exact heldWord_controlKept _ _ _
    · exact fun s => .refl s
  refine within_get_bind fun s => ?_
  dsimp only
  split
  · exact hit _ s
  · split
    · exact heldWord_controlKept _ _ _ s
    · split
      · exact hit _ s
      · have hmiss : ControlKept s s.noteIMiss := ⟨rfl, rfl, id⟩
        split
        · exact hmiss
        · next words s1 hread =>
          have h : ControlKept s s1 := hmiss.trans (controlKept_readILine hread)
          have word {t : State} (ht : ControlKept s1 t) : At ControlKept s t
              (if s.isModified pa then heldWord (pa.extractLsb' 5 27) pa (words.getD (offsetOf mva / 4) 0#32)
              else pure (words.getD (offsetOf mva / 4) 0#32)) := by
            split
            · exact (heldWord_controlKept _ _ _).at .trans (h.trans ht)
            · exact at_pure _ (h.trans ht)
          split
          · exact at_set_bind (word ⟨rfl, rfl, id⟩)
          · exact at_set_bind (word ⟨rfl, rfl, id⟩)

/-- The word at the place the PC names. -/
theorem fetchAtPlace_controlKept : Within ControlKept (do
    let (mva, pa, cacheable) ← fetchPlace
    fetchWord mva pa cacheable) :=
  fetchPlace_controlKept.bind .trans fun ⟨mva, pa, cacheable⟩ => fetchWord_controlKept mva pa cacheable

/-- A fetch is this access, and only renames what it fails with. -/
theorem fetch_cases (s : State) : (∃ w t, fetch s = .ok w t ∧ ControlKept s t) ∨
    ∃ e t, fetch s = .error (fetchTrap e) t ∧ ControlKept s t := by
  have hx := fetchAtPlace_controlKept s
  have hfetch : fetch s = match (fetchPlace >>= fun p => fetchWord p.1 p.2.1 p.2.2) s with
    | .ok w s1 => .ok w s1
    | .error t s1 => .error (fetchTrap t) s1 := rfl
  change At ControlKept s s (fetchPlace >>= fun p => fetchWord p.1 p.2.1 p.2.2) at hx
  rw [hfetch]
  unfold At at hx
  generalize (fetchPlace >>= fun p => fetchWord p.1 p.2.1 p.2.2) s = r at hx
  cases r with
  | ok w t => exact .inl ⟨w, t, rfl, hx⟩
  | error e t => exact .inr ⟨e, t, rfl, hx⟩

theorem controlKept_fetch_ok {w : Word} (h : fetch s = .ok w t) : ControlKept s t := by
  obtain ⟨w', t', e, hk⟩ | ⟨e', t', e, hk⟩ := fetch_cases s <;> rw [h] at e <;> cases e
  exact hk

theorem controlKept_fetch_error {e : Trap} (h : fetch s = .error e t) : ControlKept s t := by
  obtain ⟨w', t', e, hk⟩ | ⟨e', t', e, hk⟩ := fetch_cases s <;> rw [h] at e <;> cases e
  exact hk

/-! ### Registers of CP15 -/

theorem modify_within {R : State → State → Prop} {f : State → State} (h : ∀ s, R s (f s)) :
    Within R (modify f : Exec PUnit) := h

theorem refuse_within {R : State → State → Prop} (hr : ∀ s, R s s) (r : Refusal) : Within R (refuseWith r : Exec α) := hr

theorem freeUnder_controlKept (mask v : Word) : Within ControlKept (freeUnder mask v) :=
  drawWord_controlKept.bind .trans fun _ => pure_within .refl _

/-- A read of a register that reads as it is. -/
theorem readPlain_controlKept (f : State → Word) : Within ControlKept (do let s ← get; pure (f s)) :=
  within_get_bind fun s => at_pure _ (.refl s)

/-- A read of a register some of whose bits are free. -/
theorem readFree_controlKept (mask : Word) (f : State → Word) :
    Within ControlKept (do let s ← get; freeUnder mask (f s)) :=
  within_get_bind fun s => freeUnder_controlKept _ _ s

theorem readLocked_controlKept (f : State → Word) : Within ControlKept (readLocked f) := by
  refine within_get_bind fun s => ?_
  split
  · exact drawWord_controlKept s
  · exact at_pure _ (.refl s)

theorem writeLocked_controlKept {x : Exec Unit} (hx : Within ControlKept x) : Within ControlKept (writeLocked x) := by
  refine within_get_bind fun s => ?_
  split
  · exact at_pure _ (.refl s)
  · exact hx s

/-- A write of CP15 registers that stores no fixed bit. -/
theorem setCp15_controlKept {f : Cp15 → Cp15}
    (h : ∀ s : State, s.fixedBitsInv → State.fixedBitsInv { s with cp15 := f s.cp15 }) : Within ControlKept (setCp15 f) :=
  modify_within fun s => ⟨rfl, rfl, h s⟩

theorem setPmu_controlKept (f : Pmu → Pmu) : Within ControlKept (setPmu f) := modify_within fun _ => ⟨rfl, rfl, id⟩

theorem setDebug_controlKept (f : Debug → Debug) : Within ControlKept (setDebug f) :=
  modify_within fun _ => ⟨rfl, rfl, id⟩

/-- The bits under a mask hold nothing outside it. -/
theorem and_and_of_disjoint {a b : Word} (v : Word) (h : a &&& b = 0#32) : v &&& a &&& b = 0#32 := by
  rw [BitVec.and_assoc, h, BitVec.and_zero]

theorem writeControl_controlKept (v : Word) : Within ControlKept (writeControl v) := by
  have hfixed : (v &&& 0x3B87#32 ||| 0x78#32) &&& 0xFFFFC478#32 = 0x78#32 := by
    rw [BitVec.and_or_distrib_right, and_and_of_disjoint v (by decide), BitVec.zero_or]
    decide
  unfold writeControl
  split
  · exact refuse_within .refl _
  · refine setCp15_controlKept ?_
    rintro s ⟨-, haux, httb, hfsr, hpid, hdbcon, hcpar⟩
    exact ⟨hfixed, haux, httb, hfsr, hpid, hdbcon, hcpar⟩

theorem writeAuxControl_controlKept (v : Word) : Within ControlKept (writeAuxControl v) := by
  unfold writeAuxControl
  split
  · exact refuse_within .refl _
  · refine setCp15_controlKept ?_
    rintro s ⟨hcontrol, -, httb, hfsr, hpid, hdbcon, hcpar⟩
    exact ⟨hcontrol, and_and_of_disjoint v (by decide), httb, hfsr, hpid, hdbcon, hcpar⟩

theorem writeTtb_controlKept (v : Word) : Within ControlKept (writeTtb v) := by
  refine setCp15_controlKept ?_
  rintro s ⟨hcontrol, haux, -, hfsr, hpid, hdbcon, hcpar⟩
  exact ⟨hcontrol, haux, and_and_of_disjoint v (by decide), hfsr, hpid, hdbcon, hcpar⟩

theorem writeFsr_controlKept (v : Word) : Within ControlKept (writeFsr v) := by
  refine setCp15_controlKept ?_
  rintro s ⟨hcontrol, haux, httb, -, hpid, hdbcon, hcpar⟩
  exact ⟨hcontrol, haux, httb, and_and_of_disjoint v (by decide), hpid, hdbcon, hcpar⟩

theorem writePid_controlKept (v : Word) : Within ControlKept (writePid v) := by
  refine modify_within fun s => ⟨rfl, rfl, ?_⟩
  rintro ⟨hcontrol, haux, httb, hfsr, -, hdbcon, hcpar⟩
  exact ⟨hcontrol, haux, httb, hfsr, and_and_of_disjoint v (by decide), hdbcon, hcpar⟩

theorem writeDbcon_controlKept (v : Word) : Within ControlKept (writeDbcon v) := by
  refine writeLocked_controlKept (setCp15_controlKept ?_)
  rintro s ⟨hcontrol, haux, httb, hfsr, hpid, -, hcpar⟩
  exact ⟨hcontrol, haux, httb, hfsr, hpid, and_and_of_disjoint v (by decide), hcpar⟩

theorem writeCpar_controlKept (v : Word) : Within ControlKept (writeCpar v) := by
  refine setCp15_controlKept ?_
  rintro s ⟨hcontrol, haux, httb, hfsr, hpid, hdbcon, -⟩
  exact ⟨hcontrol, haux, httb, hfsr, hpid, hdbcon, and_and_of_disjoint v (by decide)⟩

/-! ### Functions on caches and TLBs -/

theorem cleanedBytes_controlKept (l : DLine) : Within ControlKept (cleanedBytes l) :=
  drawWord_controlKept.bind .trans fun _ => pure_within .refl _

theorem cleanLine_controlKept (mini : Bool) (slot : Nat) (l : DLine) : Within ControlKept (cleanLine mini slot l) := by
  have clean (l l' : DLine) : Within ControlKept (writeBack l >>= fun _ => modify fun s => s.setDLine mini slot l') :=
    (writeBack_controlKept l).bind .trans fun _ => modify_within fun s => controlKept_setDLine s _ _ _
  unfold cleanLine
  split
  · generalize l.parityError _ _ = spoilt
    cases spoilt
    · exact clean _ _
    · exact fun s => at_modify_bind (((cleanedBytes_controlKept l).bind .trans fun _ => clean _ _).at .trans
        (controlKept_latchAbort s _ _))
  · exact pure_within .refl _

theorem cleanIn_controlKept (mini : Bool) (a : Word) : Within ControlKept (cleanIn mini a) := by
  refine within_get_bind fun s => ?_
  split
  · exact at_pure _ (.refl s)
  · exact cleanLine_controlKept _ _ _ s

theorem cleanDLine_controlKept (a : Word) : Within ControlKept (cleanDLine a) := by
  have both (m m' : Bool) : Within ControlKept (cleanIn m a >>= fun _ => cleanIn m' a) :=
    (cleanIn_controlKept m a).bind .trans fun _ => cleanIn_controlKept m' a
  refine within_get_bind fun s => ?_
  split
  · exact drawWord_controlKept.bind .trans (fun _ => both _ _) s
  · exact both _ _ s

theorem drawBytes_controlKept (n : Nat) : Within ControlKept (drawBytes n) := by
  induction n with
  | zero => exact pure_within .refl _
  | succ n ih =>
    exact drawWord_controlKept.bind .trans fun _ => ih.bind .trans fun _ => pure_within .refl _

theorem translateOnly_controlKept (instr : Bool) (mva : Word) : Within ControlKept (translateOnly instr mva) := by
  refine within_get_bind fun s => ?_
  split
  · exact (findEntry_controlKept instr mva).bind .trans (fun _ => pure_within .refl _) s
  · exact at_pure _ (.refl s)

theorem onAbort_controlKept {x : Exec α} (hx : Within ControlKept x) (e : Trap) : Within ControlKept (onAbort x e) := by
  intro s
  unfold At onAbort
  cases h : x s with
  | ok a t => exact hx.ok h
  | error r t => cases r <;> exact hx.error h

theorem onTranslationFault_controlKept {x : Exec α} (hx : Within ControlKept x) (e : Trap) :
    Within ControlKept (onTranslationFault x e) := by
  intro s
  unfold At onTranslationFault
  cases h : x s with
  | ok a t => exact hx.ok h
  | error r t => cases r <;> exact hx.error h

theorem allocateDLine_controlKept (v : Word) : Within ControlKept (allocateDLine v) := by
  have fill (m : Word) : Within ControlKept (do
      let pa ← onTranslationFault (translateOnly false m) (.refuse .lockFunction)
      let bs ← drawBytes 8
      allocateLine false m pa bs) :=
    (onTranslationFault_controlKept (translateOnly_controlKept false m) _).bind .trans fun _ =>
      (drawBytes_controlKept 8).bind .trans fun _ => allocateLine_controlKept _ _ _ _
  intro s
  refine at_modify_bind (at_get_bind ?_)
  have h := controlKept_drain s
  dsimp only
  split
  · exact at_pure _ h
  · exact (ignoreAbortInSds_controlKept (fill _) (pure_within .refl _)).at .trans h

theorem locking_controlKept {x : Exec Unit} (hx : Within ControlKept x) : Within ControlKept (locking x) :=
  ignoreAbortInSds_controlKept (onAbort_controlKept hx _) (pure_within .refl _)

theorem lockPlace_controlKept (m : Word) : Within ControlKept (lockPlace m) := by
  refine within_get_bind fun s => at_bind (translate_controlKept _ _ _ _ s) fun p t h => ?_
  dsimp only
  split
  · exact at_pure _ h
  · exact at_refuse _ h

theorem lockILine_controlKept (v : Word) : Within ControlKept (lockILine v) := by
  refine within_get_bind fun s => ?_
  dsimp only
  split
  · exact at_refuse _ (.refl s)
  · refine locking_controlKept ((lockPlace_controlKept _).bind .trans fun pa => within_get_bind fun s => ?_) s
    split
    · exact ControlKept.refl s
    · next h => exact at_set ((controlKept_readILine h).trans ⟨rfl, rfl, id⟩)

/-- A function that is refused where its unit is off. -/
theorem whereOn_controlKept (on : State → Bool) {f : State → State} (hf : ∀ s, ControlKept s (f s)) (r : Refusal) :
    Within ControlKept (do let s ← get; if on s then set (f s) else refuseWith r) := by
  refine within_get_bind fun s => ?_
  split
  · exact at_set (hf s)
  · exact at_refuse _ (.refl s)

theorem unlockICache_controlKept : Within ControlKept unlockICache :=
  whereOn_controlKept State.icacheOn (f := fun s => { s with icache := { s.icache with locked := [] } })
    (fun _ => ⟨rfl, rfl, id⟩) _

theorem unlockDCache_controlKept : Within ControlKept unlockDCache :=
  whereOn_controlKept State.dcacheOn (f := fun s => { s with dcache := { s.dcache with locked := [] } })
    (fun _ => ⟨rfl, rfl, id⟩) _

theorem unlockTlb_controlKept (instr : Bool) : Within ControlKept (unlockTlb instr) :=
  whereOn_controlKept State.mmuOn (fun s => controlKept_setTlb s instr _) _

theorem writeDCacheLock_controlKept (v : Word) : Within ControlKept (writeDCacheLock v) := by
  refine within_get_bind fun s => ?_
  split
  · exact setCp15_controlKept (fun _ => id) s
  · exact at_refuse _ (.refl s)

theorem lockTlbEntry_controlKept (instr : Bool) (mva : Word) : Within ControlKept (lockTlbEntry instr mva) := by
  refine within_get_bind fun s => ?_
  split
  · exact at_refuse _ (.refl s)
  · exact locking_controlKept ((walk_controlKept mva).bind .trans fun _ =>
      modify_within fun s => controlKept_setTlb s instr _) s

theorem invalidateTlb_controlKept (instr : Bool) : Within ControlKept (invalidateTlb instr) :=
  modify_within fun s => controlKept_setTlb s instr _

theorem invalidateTlbEntry_controlKept (instr : Bool) (mva : Word) : Within ControlKept (invalidateTlbEntry instr mva) :=
  modify_within fun s => controlKept_setTlb s instr _

/-! ### Registers of CP14 -/

theorem writePwrmode_controlKept (v : Word) : Within ControlKept (writePwrmode v) := by
  unfold writePwrmode
  split
  · exact pure_within .refl _
  · exact modify_within fun _ => ⟨rfl, rfl, id⟩
  · exact refuse_within .refl _
  · exact modify_within fun _ => ⟨rfl, rfl, id⟩

theorem writeTx_controlKept (v : Word) : Within ControlKept (writeTx v) :=
  (setDebug_controlKept _).bind .trans fun _ => modify_within fun _ => ⟨rfl, rfl, id⟩

theorem readRx_controlKept : Within ControlKept readRx :=
  within_get_bind fun _ => at_set_bind (at_pure _ ⟨rfl, rfl, id⟩)

theorem readDcsrReg_controlKept : Within ControlKept readDcsrReg := by
  refine within_get_bind fun s => ?_
  split
  · exact drawWord_controlKept s
  · exact at_set_bind (at_pure _ ⟨rfl, rfl, id⟩)

theorem controlKept_startTrace (s : State) (was : Bool) : ControlKept s (s.startTrace was) := by
  unfold State.startTrace
  split
  · exact ⟨rfl, rfl, id⟩
  · exact .refl s

theorem writeDcsrReg_controlKept (v : Word) : Within ControlKept (writeDcsrReg v) :=
  writeLocked_controlKept (within_get_bind fun s => at_bind (setDebug_controlKept _ s) fun _ _ h =>
    at_modify _ (h.trans (controlKept_startTrace _ _)))

theorem spoilTrace_controlKept : Within ControlKept spoilTrace := modify_within fun _ => ⟨rfl, rfl, id⟩

theorem whileTracing_controlKept : Within ControlKept whileTracing := by
  refine within_get_bind fun s => ?_
  split
  · exact spoilTrace_controlKept s
  · exact at_pure _ (.refl s)

theorem readTbreg_controlKept : Within ControlKept readTbreg :=
  whileTracing_controlKept.bind .trans fun _ => within_get_bind fun _ => at_set_bind (at_pure _ ⟨rfl, rfl, id⟩)

/-- A checkpoint register is read behind the trace buffer's check. -/
theorem readCheckpoint_controlKept (f : State → Word) :
    Within ControlKept (do whileTracing; let s ← get; pure (f s)) :=
  whileTracing_controlKept.bind .trans fun _ => readPlain_controlKept f

theorem writeCheckpoint_controlKept (f : Debug → Debug) :
    Within ControlKept (do let s ← get; if s.tracing then spoilTrace else setDebug f) := by
  refine within_get_bind fun s => ?_
  split
  · exact spoilTrace_controlKept s
  · exact setDebug_controlKept _ s

theorem writeTxrxctrl_controlKept (v : Word) : Within ControlKept (writeTxrxctrl v) :=
  modify_within fun _ => ⟨rfl, rfl, id⟩

theorem readCp14_controlKept (crd : BitVec 4) : Within ControlKept (readCp14 crd) := by
  unfold readCp14
  split
  · exact readFree_controlKept _ _
  · exact readPlain_controlKept _
  · exact readPlain_controlKept _
  · exact readPlain_controlKept _
  · exact readFree_controlKept _ _
  · exact freeUnder_controlKept _ _
  · exact readPlain_controlKept _
  · exact readRx_controlKept
  · exact readDcsrReg_controlKept
  · exact readTbreg_controlKept
  · exact readCheckpoint_controlKept _
  · exact readCheckpoint_controlKept _
  · exact readPlain_controlKept _
  · exact refuse_within .refl _

theorem writeCp14_controlKept (crd : BitVec 4) (v : Word) : Within ControlKept (writeCp14 crd v) := by
  unfold writeCp14
  split
  · exact setPmu_controlKept _
  · exact setPmu_controlKept _
  · exact setPmu_controlKept _
  · exact setPmu_controlKept _
  · exact setPmu_controlKept _
  · exact writePwrmode_controlKept v
  · exact writeTx_controlKept v
  · exact pure_within .refl _
  · exact writeDcsrReg_controlKept v
  · exact spoilTrace_controlKept
  · exact writeCheckpoint_controlKept _
  · exact writeCheckpoint_controlKept _
  · exact writeTxrxctrl_controlKept v
  · exact refuse_within .refl _

end
end Sys2Proof.Machine

/-! ### What an exception leaves alone -/
namespace Sys2Proof.Machine
section

variable {s t u : State} {a b : Word}

/-! ### Alignment of the PC -/

/-- An instruction of the current state can stand at this address (10_state.md R23). -/
def State.aligns (s : State) (a : Word) : Prop := if s.thumb then a.getLsbD 0 = false else a.extractLsb' 0 2 = 0#2

theorem wordAligned_iff (a : Word) : a.extractLsb' 0 2 = 0#2 ↔ a.toNat % 4 = 0 := by
  rw [← BitVec.toNat_inj]
  simp

theorem halfAligned_iff (a : Word) : a.getLsbD 0 = false ↔ a.toNat % 2 = 0 := by
  rw [BitVec.getLsbD, Nat.testBit_zero]
  simp

theorem aligns_iff (s : State) (a : Word) : s.aligns a ↔ a.toNat % (if s.thumb then 2 else 4) = 0 := by
  unfold State.aligns
  cases s.thumb
  · exact wordAligned_iff a
  · exact halfAligned_iff a

theorem aligns_congr (h : t.thumb = s.thumb) : t.aligns = s.aligns := by
  unfold State.aligns
  rw [h]

theorem aligns_of_eq (h : t.thumb = s.thumb) (ha : s.aligns a) : t.aligns a := by
  rw [aligns_congr h]
  exact ha

theorem aligns_of_thumb (h : s.thumb = true) (ha : a.getLsbD 0 = false) : s.aligns a := by
  unfold State.aligns
  rw [h]
  exact ha

/-- A word-aligned address fits both states. -/
theorem aligns_of_wordAligned (s : State) (h : a.extractLsb' 0 2 = 0#2) : s.aligns a := by
  rw [wordAligned_iff] at h
  rw [aligns_iff]
  split <;> omega

theorem aligns_add (ha : s.aligns a) (hb : b.toNat % 4 = 0) : s.aligns (a + b) := by
  rw [aligns_iff] at *
  rw [BitVec.toNat_add]
  cases h : s.thumb <;> simp only [h, if_true, if_false, Bool.false_eq_true] at ha ⊢ <;> omega

theorem aligns_add_instrBytes (ha : s.aligns a) : s.aligns (a + s.instrBytes) := by
  rw [aligns_iff] at *
  unfold State.instrBytes
  rw [BitVec.toNat_add]
  cases h : s.thumb <;> simp only [h, if_true, if_false, Bool.false_eq_true] at ha ⊢ <;> simp only [BitVec.toNat_ofNat] <;>
    omega

/-! ### The system state that only software of a privileged mode changes -/

/-- The system registers, locks and instruction caches are unchanged but for what taking an exception writes: FSR, FAR,
and of the debug unit its notes, the method of entry and the trace enable (10_state.md R21; 60_exceptions.md R880;
48_debug_jtag.md R790). The accumulator is unchanged where its coprocessor is not accessible. -/
structure SystemKept (s t : State) : Prop where
  cp15 : t.cp15 = { s.cp15 with fsr := t.cp15.fsr, far := t.cp15.far }
  fixedBits : s.fixedBitsInv → t.fixedBitsInv
  pmu : t.pmu = s.pmu
  power : t.power = s.power
  tx : t.dbgUnit.tx = s.dbgUnit.tx
  rx : t.dbgUnit.rx = s.dbgUnit.rx
  txrxctrl : t.dbgUnit.txrxctrl = s.dbgUnit.txrxctrl
  dcsr : t.dbgUnit.dcsr &&& 0xC0DF0020#32 = s.dbgUnit.dcsr &&& 0xC0DF0020#32
  itlb : t.itlb.lock = s.itlb.lock
  dtlb : t.dtlb.lock = s.dtlb.lock
  icache : t.icache = s.icache
  miniIc : t.miniIc = s.miniIc
  acc0 : s.cp0Allowed = false → t.acc0 = s.acc0

theorem SystemKept.cp0Allowed (h : SystemKept s t) : t.cp0Allowed = s.cp0Allowed := by
  unfold State.cp0Allowed
  rw [h.cp15]

theorem SystemKept.vectorBase (h : SystemKept s t) : t.vectorBase = s.vectorBase := by
  unfold State.vectorBase State.highVectors
  rw [h.cp15]

theorem SystemKept.trans (h : SystemKept s t) (h' : SystemKept t u) : SystemKept s u where
  cp15 := by rw [h'.cp15, h.cp15]
  fixedBits := h'.fixedBits ∘ h.fixedBits
  pmu := h'.pmu.trans h.pmu
  power := h'.power.trans h.power
  tx := h'.tx.trans h.tx
  rx := h'.rx.trans h.rx
  txrxctrl := h'.txrxctrl.trans h.txrxctrl
  dcsr := h'.dcsr.trans h.dcsr
  itlb := h'.itlb.trans h.itlb
  dtlb := h'.dtlb.trans h.dtlb
  icache := h'.icache.trans h.icache
  miniIc := h'.miniIc.trans h.miniIc
  acc0 hc := (h'.acc0 (h.cp0Allowed.trans hc)).trans (h.acc0 hc)

theorem SystemKept.refl (s : State) : SystemKept s s :=
  ⟨rfl, id, rfl, rfl, rfl, rfl, rfl, rfl, rfl, rfl, rfl, rfl, fun _ => rfl⟩

/-! ### Trace messages -/

/-- What a message of the trace buffer leaves: control flow and system state (48_debug_jtag.md R807). -/
structure Untouched (s t : State) : Prop where
  control : ControlKept s t
  system : SystemKept s t

theorem Untouched.refl (s : State) : Untouched s s := ⟨.refl s, .refl s⟩

theorem Untouched.trans (h : Untouched s t) (h' : Untouched t u) : Untouched s u :=
  ⟨h.control.trans h'.control, h.system.trans h'.system⟩

theorem untouched_traceByte (s : State) (x : Byte) : Untouched s (s.traceByte x) :=
  ⟨⟨rfl, rfl, id⟩, ⟨rfl, id, rfl, rfl, rfl, rfl, rfl, rfl, rfl, rfl, rfl, rfl, fun _ => rfl⟩⟩

theorem untouched_traceCount (s : State) (n : BitVec 4) : Untouched s (s.traceCount n) :=
  ⟨⟨rfl, rfl, id⟩, ⟨rfl, id, rfl, rfl, rfl, rfl, rfl, rfl, rfl, rfl, rfl, rfl, fun _ => rfl⟩⟩

theorem untouched_checkpoint (s : State) (target : Word) : Untouched s (s.checkpoint target) := by
  unfold State.checkpoint
  split
  · exact ⟨⟨rfl, rfl, id⟩, ⟨rfl, id, rfl, rfl, rfl, rfl, rfl, rfl, rfl, rfl, rfl, rfl, fun _ => rfl⟩⟩
  · exact .refl s

theorem untouched_traceInstr (s : State) : Untouched s s.traceInstr := by
  unfold State.traceInstr
  split
  · split
    · exact (untouched_traceByte s _).trans (untouched_traceCount _ _)
    · exact untouched_traceCount s _
  · exact .refl s

theorem untouched_traceDirect (s : State) (target : Word) : Untouched s (s.traceDirect target) := by
  unfold State.traceDirect
  split
  · exact ((untouched_checkpoint s target).trans (untouched_traceByte _ _)).trans (untouched_traceCount _ _)
  · exact .refl s

theorem untouched_traceIndirect (s : State) (target : Word) : Untouched s (s.traceIndirect target) := by
  unfold State.traceIndirect
  split
  · exact (((((untouched_checkpoint s target).trans (untouched_traceByte _ _)).trans
      (untouched_traceByte _ _)).trans (untouched_traceByte _ _)).trans (untouched_traceByte _ _)).trans
      ((untouched_traceByte _ _).trans (untouched_traceCount _ _))
  · exact .refl s

theorem untouched_traceVector (s : State) (v : BitVec 3) : Untouched s (s.traceVector v) := by
  unfold State.traceVector
  split
  · exact (untouched_traceByte s _).trans (untouched_traceCount _ _)
  · exact .refl s

theorem untouched_exceptionTrace (e : Exception) (s : State) : Untouched s (e.trace s) := by
  cases e with
  | dataAbort code domain far =>
    refine Untouched.trans ?_ (untouched_traceVector _ _)
    split
    · exact .refl s
    · exact untouched_traceInstr s
  | _ => exact untouched_traceVector s _

/-! ### Exceptions and debug exceptions -/

theorem systemKept_report (e : Exception) (s : State) : SystemKept s (e.report s) := by
  have fault (code : BitVec 5) (domain : Option (BitVec 4)) (far : Option Word) :
      SystemKept s (s.reportFault code domain far) := by
    have hk := controlKept_reportFault s code domain far
    obtain ⟨fsr', far', n, h⟩ := reportFault_rest s code domain far
    rw [h] at hk ⊢
    exact ⟨rfl, hk.fixedBits, rfl, rfl, rfl, rfl, rfl, rfl, rfl, rfl, rfl, rfl, fun _ => rfl⟩
  cases e with
  | prefetchAbort code => exact fault code none none
  | dataAbort code domain far => exact fault code domain far
  | impreciseAbort code => exact fault code none none
  | _ => exact .refl s

theorem systemKept_enter (s : State) (m : Mode) (link : Word) (f : Bool) : SystemKept s (s.enter m link f a) := by
  unfold State.enter State.setSpsr
  split <;> exact ⟨rfl, id, rfl, rfl, rfl, rfl, rfl, rfl, rfl, rfl, rfl, rfl, fun _ => rfl⟩

/-- A debug entry changes of the DCSR only its five low bits (48_debug_jtag.md R768, R770). -/
theorem dcsrOnEntry_high (d : Word) (moe : BitVec 3) : dcsrOnEntry d moe &&& 0xC0DF0020#32 = d &&& 0xC0DF0020#32 := by
  have low (i : Nat) (h : (0xC0DF0020#32 : Word).getLsbD i = true) : 5 ≤ i := by
    by_contra hi
    interval_cases i <;> revert h <;> decide
  apply BitVec.eq_of_getLsbD_eq
  intro i hi
  rw [BitVec.getLsbD_and, BitVec.getLsbD_and]
  cases h : (0xC0DF0020#32 : Word).getLsbD i with
  | false => rw [Bool.and_false, Bool.and_false]
  | true =>
    have := low i h
    simp only [dcsrOnEntry, BitVec.getLsbD_append, BitVec.getLsbD_extractLsb', show ¬ i < 1 by omega,
      show ¬ i - 1 < 1 by omega, show ¬ i - 1 - 1 < 3 by omega, show i - 1 - 1 - 3 < 27 by omega,
      show 5 + (i - 1 - 1 - 3) = i by omega, if_false, decide_true, Bool.true_and]

theorem systemKept_debugCause (s : State) (moe : BitVec 3) : SystemKept s (s.debugCause moe) :=
  ⟨rfl, id, rfl, rfl, rfl, rfl, rfl, dcsrOnEntry_high _ _, rfl, rfl, rfl, rfl, fun _ => rfl⟩

theorem systemKept_haltEntry (s : State) (moe : BitVec 3) (link : Word) : SystemKept s (s.haltEntry moe link) := by
  refine (systemKept_debugCause s moe).trans (SystemKept.trans (t := { s.debugCause moe with
    dbgUnit := { (s.debugCause moe).dbgUnit with sds := true } }) ?_ (systemKept_enter _ _ _ _))
  exact ⟨rfl, id, rfl, rfl, rfl, rfl, rfl, rfl, rfl, rfl, rfl, rfl, fun _ => rfl⟩

/-- The FSR of a Monitor-mode entry has bit 8 and bits [31:11] zero (10_state.md R56; 48_debug_jtag.md R790). -/
theorem monitorFsr_fixedBits : ∀ (x : BitVec 1) (low : BitVec 8),
    (0#21 ++ x ++ 1#1 ++ 0#1 ++ low : Word) &&& 0xFFFFF900#32 = 0#32 := by decide

/-- The state of a Monitor-mode entry before the mode changes. -/
theorem systemKept_monitorFsr (s : State) (moe : BitVec 3) (x : BitVec 1) (low : BitVec 8) :
    SystemKept s { (s.debugCause moe).draw.2 with
      cp15 := { (s.debugCause moe).draw.2.cp15 with fsr := 0#21 ++ x ++ 1#1 ++ 0#1 ++ low } } :=
  (systemKept_debugCause s moe).trans ⟨rfl, fixedBitsInv_of_fsr rfl (monitorFsr_fixedBits x low), rfl, rfl, rfl, rfl,
    rfl, rfl, rfl, rfl, rfl, rfl, fun _ => rfl⟩

theorem systemKept_debugEntry (s : State) (moe : BitVec 3) (link : Word) : SystemKept s (s.debugEntry moe link) := by
  unfold State.debugEntry
  split
  · exact systemKept_haltEntry s moe link
  · exact (systemKept_monitorFsr s moe _ _).trans (systemKept_enter _ _ _ _)

/-! ### Where an exception leads -/

/-- The state of a handler (60_exceptions.md R880 to R882): ARM state with interrupts masked, one of these modes, and the
PC at one of these offsets from the base of the vectors. -/
structure AtVector (modes : List Mode) (offsets : List Word) (base : Word) (t : State) : Prop where
  maskI : t.maskI = true
  thumb : t.thumb = false
  legal : (modeOf (t.cpsr.extractLsb' 0 5)).isSome = true
  mode : t.mode ∈ modes
  pc : t.pc - base ∈ offsets

theorem AtVector.mono {ms ms' : List Mode} {os os' : List Word} (h : AtVector ms os a t) (hm : ms ⊆ ms') (ho : os ⊆ os') :
    AtVector ms' os' a t :=
  ⟨h.maskI, h.thumb, h.legal, hm h.mode, ho h.pc⟩

theorem atVector_enter (s : State) (m : Mode) (link : Word) (f : Bool) (base off : Word) :
    AtVector [m] [off] base (s.enter m link f (base + off)) :=
  ⟨enter_maskI .., enter_thumb .., by rw [enter_cpsr, entryCpsr_mode, modeOf_code]; rfl,
    List.mem_singleton.2 (enter_mode ..), List.mem_singleton.2 (by rw [enter_pc, BitVec.add_comm, BitVec.add_sub_cancel])⟩

theorem vectorBase_aligned (s : State) : s.vectorBase.toNat % 4 = 0 := by
  unfold State.vectorBase
  split <;> rfl

theorem modeInv_of_atVector {ms : List Mode} {os : List Word} (h : AtVector ms os s.vectorBase t)
    (ho : ∀ o ∈ os, o.toNat % 4 = 0) : t.modeInv := by
  have hb := vectorBase_aligned s
  have hpc := ho _ h.pc
  rw [BitVec.toNat_sub] at hpc
  exact ⟨h.legal, aligns_of_wordAligned t ((wordAligned_iff _).2 (by omega))⟩

theorem atVector_haltEntry (s : State) (moe : BitVec 3) (link : Word) :
    AtVector [.dbg] [0x00#32] s.vectorBase (s.haltEntry moe link) := by
  have h := atVector_enter { s.debugCause moe with dbgUnit := { (s.debugCause moe).dbgUnit with sds := true } } .dbg
    link true s.vectorBase 0#32
  rw [BitVec.add_zero] at h
  exact h

theorem atVector_debugEntry (s : State) (moe : BitVec 3) (link : Word) :
    AtVector [.dbg, .abt] [0x00#32, 0x0C#32, 0x10#32] s.vectorBase (s.debugEntry moe link) := by
  unfold State.debugEntry
  split
  · exact (atVector_haltEntry s moe link).mono (by decide) (by decide)
  · refine (atVector_enter _ .abt link false s.vectorBase _).mono (by decide) ?_
    split <;> decide

/-- The offset of an exception's vector (60_exceptions.md R881). -/
def Exception.offset (e : Exception) : Word := 0#27 ++ e.vector ++ 0#2

theorem offset_aligned (e : Exception) : e.offset.toNat % 4 = 0 := by
  unfold Exception.offset
  generalize e.vector = v
  revert v
  decide

/-- The report and the trace message, before the mode changes. -/
theorem systemKept_messages (e : Exception) (s : State) : SystemKept s (e.trace (e.report s)) :=
  (systemKept_report e s).trans (untouched_exceptionTrace e _).system

/-- The entry without a debugger's trap. -/
def Exception.enterFrom (e : Exception) (s : State) : State :=
  let s1 := s.enter e.mode (e.link s.pc s.thumb) (e == .fiq) (s.vectorBase + e.offset)
  { s1 with scratch := { s1.scratch with dataBreak := false } }

theorem takeException_eq (e : Exception) (s : State) :
    takeException e s =
      let s1 := e.enterFrom (e.trace (e.report s))
      if e.trapped s1 then s1.debugEntry 0b101#3 (s1.pc + 4#32) else s1 := rfl

theorem systemKept_enterFrom (e : Exception) (s : State) : SystemKept s (e.enterFrom s) :=
  SystemKept.trans (t := s.enter e.mode (e.link s.pc s.thumb) (e == .fiq) (s.vectorBase + e.offset))
    (systemKept_enter s _ _ _)
    ⟨rfl, id, rfl, rfl, rfl, rfl, rfl, rfl, rfl, rfl, rfl, rfl, fun _ => rfl⟩

theorem atVector_enterFrom (e : Exception) (s : State) : AtVector [e.mode] [e.offset] s.vectorBase (e.enterFrom s) := by
  obtain ⟨hI, ht, hl, hm, hp⟩ := atVector_enter s e.mode (e.link s.pc s.thumb) (e == .fiq) s.vectorBase e.offset
  exact ⟨hI, ht, hl, hm, hp⟩

theorem systemKept_takeException (e : Exception) (s : State) : SystemKept s (takeException e s) := by
  have h := (systemKept_messages e s).trans (systemKept_enterFrom e _)
  rw [takeException_eq]
  dsimp only
  split
  · exact h.trans (systemKept_debugEntry _ _ _)
  · exact h

/-- An exception leads to its vector, or, where a debugger trapped it, to a debug exception (60_exceptions.md R880;
48_debug_jtag.md R764). -/
theorem atVector_takeException (e : Exception) (s : State) :
    AtVector [e.mode, .dbg, .abt] [e.offset, 0x00#32, 0x0C#32, 0x10#32] s.vectorBase (takeException e s) := by
  have h := systemKept_messages e s
  have h' := h.trans (systemKept_enterFrom e _)
  rw [takeException_eq]
  dsimp only
  split
  · rw [← h'.vectorBase]
    exact (atVector_debugEntry _ _ _).mono (List.subset_cons_self _ _) (List.subset_cons_self _ _)
  · rw [← h.vectorBase]
    exact (atVector_enterFrom e _).mono (by simp) (by simp)

theorem modeInv_debugEntry (s : State) (moe : BitVec 3) (link : Word) : (s.debugEntry moe link).modeInv :=
  modeInv_of_atVector (atVector_debugEntry s moe link) (by simp)

theorem modeInv_takeException (e : Exception) (s : State) : (takeException e s).modeInv :=
  modeInv_of_atVector (atVector_takeException e s)
    (List.forall_mem_cons.2 ⟨offset_aligned e, by simp⟩)

end
end Sys2Proof.Machine

/-! ### What a meaning does before it moves the PC -/
namespace Sys2Proof.Machine
section

variable {α : Type} {isa : Isa} {s t u : State} {a : Word}

/-- What an instruction that stays in User mode leaves alone: the system state, the SPSRs and the registers of the other
modes (10_state.md R21). -/
structure UserSame (s t : State) : Prop where
  cp15 : t.cp15 = s.cp15
  pmu : t.pmu = s.pmu
  power : t.power = s.power
  dbgUnit : t.dbgUnit = s.dbgUnit
  itlb : t.itlb.lock = s.itlb.lock
  dtlb : t.dtlb.lock = s.dtlb.lock
  icache : t.icache = s.icache
  miniIc : t.miniIc = s.miniIc
  spsr : t.spsr = s.spsr
  acc0 : s.cp0Allowed = false → t.acc0 = s.acc0
  banked : ∀ j : Fin 32, 13 ≤ j.val → j.val ≠ 18 → j.val ≠ 19 → t.gpr[j.val] = s.gpr[j.val]

theorem UserSame.cp0Allowed (h : UserSame s t) : t.cp0Allowed = s.cp0Allowed := by
  unfold State.cp0Allowed
  rw [h.cp15]

theorem UserSame.trans (h : UserSame s t) (h' : UserSame t u) : UserSame s u where
  cp15 := h'.cp15.trans h.cp15
  pmu := h'.pmu.trans h.pmu
  power := h'.power.trans h.power
  dbgUnit := h'.dbgUnit.trans h.dbgUnit
  itlb := h'.itlb.trans h.itlb
  dtlb := h'.dtlb.trans h.dtlb
  icache := h'.icache.trans h.icache
  miniIc := h'.miniIc.trans h.miniIc
  spsr := h'.spsr.trans h.spsr
  acc0 hc := (h'.acc0 (h.cp0Allowed.trans hc)).trans (h.acc0 hc)
  banked j h13 h18 h19 := (h'.banked j h13 h18 h19).trans (h.banked j h13 h18 h19)

theorem UserSame.system (h : UserSame s t) : SystemKept s t where
  cp15 := by rw [h.cp15]
  fixedBits := fixedBitsInv_congr h.cp15
  pmu := h.pmu
  power := h.power
  tx := by rw [h.dbgUnit]
  rx := by rw [h.dbgUnit]
  txrxctrl := by rw [h.dbgUnit]
  dcsr := by rw [h.dbgUnit]
  itlb := h.itlb
  dtlb := h.dtlb
  icache := h.icache
  miniIc := h.miniIc
  acc0 := h.acc0

/-- What a meaning does before it moves the PC: of the CPSR only the flags change, the fixed bits stay, and in User mode
outside Special Debug State only what a user may write. -/
structure Works (s t : State) : Prop where
  cpsr : t.cpsr &&& 0x07FFFFFF#32 = s.cpsr &&& 0x07FFFFFF#32
  pc : t.pc = s.pc
  fixedBits : s.fixedBitsInv → t.fixedBitsInv
  user : s.mode = .usr → s.dbgUnit.sds = false → UserSame s t

/-- Words that agree under a mask agree in its bits. -/
theorem getLsbD_of_and_eq {x y m : Word} (h : x &&& m = y &&& m) {i : Nat} (hi : m.getLsbD i = true) :
    x.getLsbD i = y.getLsbD i := by
  have e := congrArg (BitVec.getLsbD · i) h
  simpa only [BitVec.getLsbD_and, hi, Bool.and_true] using e

theorem Works.thumb (h : Works s t) : t.thumb = s.thumb := getLsbD_of_and_eq h.cpsr (by decide)

/-- Agreement in the five low bits is agreement in the mode (10_state.md R21). -/
theorem modeField_of_and_eq {x y m : Word} (h : x &&& m = y &&& m) (hm : ∀ i : Fin 5, m.getLsbD i = true) :
    x.extractLsb' 0 5 = y.extractLsb' 0 5 := by
  apply BitVec.eq_of_getLsbD_eq
  intro i hi
  have e := getLsbD_of_and_eq h (hm ⟨i, hi⟩)
  simpa only [BitVec.getLsbD_extractLsb', Nat.zero_add, hi, decide_true, Bool.true_and] using e

theorem Works.modeField (h : Works s t) : t.cpsr.extractLsb' 0 5 = s.cpsr.extractLsb' 0 5 :=
  modeField_of_and_eq h.cpsr (by decide)

theorem Works.mode (h : Works s t) : t.mode = s.mode := congrArg (fun m => (modeOf m).getD .usr) h.modeField

theorem Works.refl (s : State) : Works s s :=
  ⟨rfl, rfl, id, fun _ _ => ⟨rfl, rfl, rfl, rfl, rfl, rfl, rfl, rfl, rfl, fun _ => rfl, fun _ _ _ _ => rfl⟩⟩

theorem Works.trans (h : Works s t) (h' : Works t u) : Works s u where
  cpsr := h'.cpsr.trans h.cpsr
  pc := h'.pc.trans h.pc
  fixedBits := h'.fixedBits ∘ h.fixedBits
  user hm hd :=
    have hst := h.user hm hd
    hst.trans (h'.user (h.mode.trans hm) ((congrArg Debug.sds hst.dbgUnit).trans hd))

theorem Works.instrBytes (h : Works s t) : t.instrBytes = s.instrBytes := by
  unfold State.instrBytes
  rw [h.thumb]

/-! ### Which updates are such work -/

/-- A data access is. -/
theorem works_of_dataOnly (hd : DataOnly s t) (hc : ControlKept s t) : Works s t where
  cpsr := by rw [hc.cpsr]
  pc := hc.pc
  fixedBits := hc.fixedBits
  user _ hs :=
    have hq := hd.quiet hs
    ⟨hq.1, hd.pmu, hd.power, hq.2, by rw [hd.itlb], hd.lock, hd.icache, hd.miniIc, hd.spsr, fun _ => hd.acc0,
      fun _ _ _ _ => by simp only [hd.gpr]⟩

/-- In a privileged mode any access of a system register is. -/
theorem works_of_privileged (hm : s.mode ≠ .usr) (hc : ControlKept s t) : Works s t :=
  ⟨by rw [hc.cpsr], hc.pc, hc.fixedBits, fun h => absurd h hm⟩

theorem works_within {x : Exec α} (hd : Within DataOnly x) (hc : Within ControlKept x) : Within Works x := by
  intro s
  have hd := hd s
  have hc := hc s
  unfold At at *
  cases h : x s with
  | ok v t => rw [h] at hd hc; exact works_of_dataOnly hd hc
  | error e t => rw [h] at hd hc; exact works_of_dataOnly hd hc

theorem at_works_of_privileged {x : Exec α} (hw : Works s t) (hm : s.mode ≠ .usr) (hc : Within ControlKept x) :
    At Works s t x := by
  have hc := hc t
  have hm : t.mode ≠ .usr := hw.mode ▸ hm
  unfold At at *
  cases h : x t with
  | ok v u => rw [h] at hc; exact hw.trans (works_of_privileged hm hc)
  | error e u => rw [h] at hc; exact hw.trans (works_of_privileged hm hc)

/-- Only the CPSR, the PC, the branch target buffer and the model's own notes differ. -/
def FlowOnly (s t : State) : Prop :=
  { t with cpsr := s.cpsr, pc := s.pc, scratch := s.scratch, freeCtr := s.freeCtr, btb := s.btb,
           bankHazard := s.bankHazard } = s

theorem FlowOnly.cp15 (h : FlowOnly s t) : t.cp15 = s.cp15 := by
  have e := congrArg State.cp15 h; exact e

theorem FlowOnly.userSame (h : FlowOnly s t) : UserSame s t := by
  have eq {β : Type} (f : State → β) := congrArg f h
  exact ⟨eq State.cp15, eq State.pmu, eq State.power, eq State.dbgUnit, eq (Tlb.lock ∘ State.itlb),
    eq (Tlb.lock ∘ State.dtlb), eq State.icache, eq State.miniIc, eq State.spsr, fun _ => eq State.acc0,
    fun j _ _ _ => eq (fun s => s.gpr[j.val])⟩

theorem works_of_notes (h : FlowOnly s t) (hcpsr : t.cpsr = s.cpsr) (hpc : t.pc = s.pc) : Works s t :=
  ⟨by rw [hcpsr], hpc, fixedBitsInv_congr h.cp15, fun _ _ => h.userSame⟩

theorem works_draw (h : Works s t) : Works s t.draw.2 := h.trans (works_of_notes rfl rfl rfl)
theorem works_keepR13Dbg (h : Works s t) : Works s t.keepR13Dbg := h.trans (works_of_notes rfl rfl rfl)
theorem works_noteBranch (h : Works s t) : Works s t.noteBranch := h.trans (works_of_notes rfl rfl rfl)
theorem works_noteLoadsPc (h : Works s t) : Works s t.noteLoadsPc := h.trans (works_of_notes rfl rfl rfl)
theorem works_bankHazard (h : Works s t) : Works s { t with bankHazard := true } := h.trans (works_of_notes rfl rfl rfl)

theorem works_dpBegin (h : Works s t) (op2 : Op2) : Works s (t.dpBegin op2) := by
  unfold State.dpBegin
  split
  · exact h
  · exact works_keepR13Dbg h

theorem works_btbUpdate (h : Works s t) (target : Word) (taken : Bool) (suffix : Option (BitVec 11)) :
    Works s (t.btbUpdate target taken suffix) := by
  refine h.trans ?_
  unfold State.btbUpdate
  dsimp only
  split
  · split
    · split
      · exact works_of_notes rfl rfl rfl
      · split
        · exact works_of_notes rfl rfl rfl
        · exact .refl t
    · split
      · exact works_of_notes rfl rfl rfl
      · exact .refl t
  · exact .refl t

/-- Only the CPSR changes, and only above its low 27 bits. -/
theorem works_of_flags {w : Word} (h : w &&& 0x07FFFFFF#32 = s.cpsr &&& 0x07FFFFFF#32) : Works s { s with cpsr := w } :=
  ⟨h, rfl, id, fun _ _ => FlowOnly.userSame rfl⟩

/-- A word agrees with another below bit 28, and so under a mask of those bits. -/
theorem and_eq_of_low {x y : Word} (h : ∀ i < 28, x.getLsbD i = y.getLsbD i) :
    x &&& 0x07FFFFFF#32 = y &&& 0x07FFFFFF#32 := by
  have high : ∀ i : Fin 32, 28 ≤ i.val → (0x07FFFFFF#32 : Word).getLsbD i = false := by decide
  apply BitVec.eq_of_getLsbD_eq
  intro i hi
  rw [BitVec.getLsbD_and, BitVec.getLsbD_and]
  by_cases hlow : i < 28
  · rw [h i hlow]
  · rw [high ⟨i, hi⟩ (Nat.le_of_not_lt hlow), Bool.and_false, Bool.and_false]

theorem works_setNzcv (h : Works s t) (n z c v : Bool) : Works s (t.setNzcv n z c v) :=
  h.trans (works_of_flags (and_eq_of_low (low_setNzcv t n z c v)))

theorem works_setSum (h : Works s t) (r : Sum) : Works s (t.setSum r) := works_setNzcv h _ _ _ _
theorem works_setLogical (h : Works s t) (r : Word) (c : Bool) : Works s (t.setLogical r c) := works_setNzcv h _ _ _ _
theorem works_setNz (h : Works s t) (r : Word) : Works s (t.setNz r) := works_setNzcv h _ _ _ _
theorem works_setNzLong (h : Works s t) (p : BitVec 64) : Works s (t.setNzLong p) := works_setNzcv h _ _ _ _

theorem works_orQ (h : Works s t) (q : Bool) : Works s (t.orQ q) := by
  refine h.trans (works_of_flags ?_)
  split
  · rw [BitVec.and_or_distrib_right, show (0x08000000#32 &&& 0x07FFFFFF#32 : Word) = 0#32 from by decide,
      BitVec.or_zero]
  · rfl

/-- A register of the User bank is no banked register of another mode (10_state.md R21). -/
theorem regIndex_usr : ∀ r : RegNum, r ≠ 15#4 →
    (regIndex .usr r).val < 13 ∨ (regIndex .usr r).val = 18 ∨ (regIndex .usr r).val = 19 := by decide

/-- Writing a register of a bank is, where a user writes his own. -/
theorem works_setBankReg (h : Works s t) {m : Mode} {r : RegNum} (v : Word) (hm : s.mode = .usr → m = .usr ∧ r ≠ 15#4) :
    Works s (t.setBankReg m r v) := by
  refine h.trans ⟨rfl, rfl, id, fun hu _ => ⟨rfl, rfl, rfl, rfl, rfl, rfl, rfl, rfl, rfl, fun _ => rfl, ?_⟩⟩
  obtain ⟨rfl, hr⟩ := hm (h.mode ▸ hu)
  intro j h13 h18 h19
  have hj := regIndex_usr r hr
  rw [gpr_setBankReg, if_neg]
  rintro rfl
  omega

theorem works_setReg (h : Works s t) (r : RegNum) (v : Word) : Works s (t.setReg r v) := by
  unfold State.setReg
  split
  · exact h
  · next hr => exact works_setBankReg h v fun hm => ⟨h.mode.trans hm, hr⟩

theorem works_setRegQ (h : Works s t) (rd : RegNum) (r : Word × Bool) : Works s (t.setRegQ rd r) :=
  works_orQ (works_setReg h _ _) _

theorem works_setRegs (h : Works s t) (vs : List (RegNum × Word)) : Works s (t.setRegs vs) := by
  unfold State.setRegs
  induction vs generalizing t with
  | nil => exact h
  | cons p vs ih => exact ih (works_setReg h p.1 p.2)

theorem works_updateBase (h : Works s t) (rn : RegNum) (ad : Address) : Works s (t.updateBase rn ad) := by
  unfold State.updateBase
  split
  · exact works_setReg h _ _
  · exact h

theorem works_setMoved (h : Works s t) (rd : RegNum) (v : Word) : Works s (t.setMoved rd v) := by
  unfold State.setMoved
  split
  · exact works_setNzcv h _ _ _ _
  · exact works_setReg h _ _

/-- The accumulator, where its coprocessor is accessible (44_coprocessor.md R542). -/
theorem works_acc0 (hc : s.cp0Allowed = true) (v : BitVec 40) : Works s { s with acc0 := v } :=
  ⟨rfl, rfl, id, fun _ _ => ⟨rfl, rfl, rfl, rfl, rfl, rfl, rfl, rfl, rfl, fun h => absurd (hc.symm.trans h) (by decide),
    fun _ _ _ _ => rfl⟩⟩

/-! ### Answers of a meaning -/

/-- A User-mode instruction stays in User mode. -/
structure UserStays (s t : State) : Prop where
  same : UserSame s t
  cpsr : t.cpsr &&& 0x07FFFFDF#32 = s.cpsr &&& 0x07FFFFDF#32

/-- A User-mode instruction ends in an exception (60_exceptions.md R880 to R882; 48_debug_jtag.md R790). -/
structure LeftUser (s t : State) : Prop where
  system : SystemKept s t
  vector : AtVector [.svc, .abt, .und, .dbg] [0x00#32, 0x04#32, 0x08#32, 0x0C#32, 0x10#32] s.vectorBase t

/-- What an instruction of a set keeps, from the state before it to the one it answers. A Thumb instruction is one in Thumb
state. -/
structure InstrKeeps (isa : Isa) (s t : State) : Prop where
  mode : (isa = .thumb → s.thumb = true) → s.modeInv → t.modeInv
  fixedBits : s.fixedBitsInv → t.fixedBitsInv
  user : s.mode = .usr → s.dbgUnit.sds = false → UserStays s t ∨ LeftUser s t

/-- Every state the meaning answers keeps that. -/
def Keeps (isa : Isa) (s : State) (r : Result) : Prop := ∀ t, r = .next t → InstrKeeps isa s t

theorem keeps_next (h : InstrKeeps isa s t) : Keeps isa s (.next t) := by rintro _ ⟨⟩; exact h

theorem keeps_refused (r : Refusal) : Keeps isa s (.refused r) := by rintro _ ⟨⟩

theorem keeps_fault (f : Fault) : Keeps isa s (.fault f) := by rintro _ ⟨⟩

/-- Agreement of the CPSR under the smaller mask, which leaves out T. -/
theorem and_mono_mask {x y : Word} (h : x &&& 0x07FFFFFF#32 = y &&& 0x07FFFFFF#32) :
    x &&& 0x07FFFFDF#32 = y &&& 0x07FFFFDF#32 := by
  have e : (0x07FFFFDF#32 : Word) = 0x07FFFFFF#32 &&& 0x07FFFFDF#32 := by decide
  rw [e, ← BitVec.and_assoc, h, BitVec.and_assoc]

/-- The work is done, and the PC moves, perhaps into the other state. -/
theorem keeps_flow (h : Works s u) (hf : FlowOnly u t) (hcpsr : t.cpsr &&& 0x07FFFFDF#32 = u.cpsr &&& 0x07FFFFDF#32)
    (ha : (isa = .thumb → s.thumb = true) → s.modeInv → t.aligns t.pc) : Keeps isa s (.next t) := by
  have hmask := hcpsr.trans (and_mono_mask h.cpsr)
  refine keeps_next ⟨fun hi hs => ⟨?_, ha hi hs⟩, fixedBitsInv_congr hf.cp15 ∘ h.fixedBits,
    fun hm hd => .inl ⟨(h.user hm hd).trans hf.userSame, hmask⟩⟩
  rw [modeField_of_and_eq hmask (by decide)]
  exact hs.1

/-- The PC goes to the next instruction, and only notes are made. -/
theorem keeps_nextInstr (h : Works s u) (hf : FlowOnly u t) (hcpsr : t.cpsr &&& 0x07FFFFFF#32 = u.cpsr &&& 0x07FFFFFF#32)
    (hpc : t.pc = u.pc + u.instrBytes) : Keeps isa s (.next t) :=
  keeps_flow h hf (and_mono_mask hcpsr) fun _ hs => by
    rw [aligns_congr ((getLsbD_of_and_eq hcpsr (by decide) : t.thumb = u.thumb).trans h.thumb), hpc, h.pc, h.instrBytes]
    exact aligns_add_instrBytes hs.2

theorem keeps_advance (h : Works s t) : Keeps isa s (.next t.advance) := keeps_nextInstr h rfl rfl rfl

theorem keeps_skip (h : Works s t) : Keeps isa s (.next t.skip) := keeps_nextInstr h rfl rfl rfl

theorem keeps_jump (h : Works s t) (i : Bool) (ha : (isa = .thumb → s.thumb = true) → s.modeInv → s.aligns a) :
    Keeps isa s (.next (t.jump a i)) :=
  keeps_flow h rfl rfl fun hi hs => by
    rw [aligns_congr (s := s) (t := t.jump a i) h.thumb]
    exact ha hi hs

/-- Bit 0 of an address cleared. -/
theorem clearBit0_even (v : Word) : (v &&& 0xFFFFFFFE#32).getLsbD 0 = false := by
  rw [BitVec.getLsbD_and]
  exact Bool.and_false _

theorem clearBits_aligned (v : Word) : (v &&& 0xFFFFFFFC#32).extractLsb' 0 2 = 0#2 := by
  rw [BitVec.extractLsb'_and]
  exact BitVec.and_zero

/-- Writing T changes no other bit of the CPSR. -/
theorem setThumb_mask (s : State) (b : Bool) : (s.setThumb b).cpsr &&& 0x07FFFFDF#32 = s.cpsr &&& 0x07FFFFDF#32 := by
  apply BitVec.eq_of_getLsbD_eq
  intro i hi
  rw [BitVec.getLsbD_and, BitVec.getLsbD_and, show (s.setThumb b).cpsr = setBit s.cpsr 5 b from rfl,
    getLsbD_setBit _ _ _ _ (by decide)]
  by_cases h5 : i = 5
  · subst h5
    exact (Bool.and_false _).trans (Bool.and_false _).symm
  · rw [if_neg h5]

/-- A branch that selects the state of its target (43_branch_status_system.md R520). -/
theorem keeps_setThumb_jump (h : Works s t) (b i : Bool)
    (ha : s.modeInv → if b then a.getLsbD 0 = false else a.extractLsb' 0 2 = 0#2) :
    Keeps isa s (.next ((t.setThumb b).jump a i)) :=
  keeps_flow h rfl (setThumb_mask t b) fun _ hs => by
    have hb : ((t.setThumb b).jump a i).thumb = b := thumb_setThumb b
    unfold State.aligns
    rw [hb]
    exact ha hs

theorem keeps_interwork (h : Works s t) (v : Word) : Keeps isa s (t.interwork v) := by
  unfold State.interwork
  split
  · exact keeps_refused _
  · next hv =>
    refine keeps_setThumb_jump h _ _ fun _ => ?_
    cases hb : v.getLsbD 0
    · have hv0 : v.extractLsb' 0 2 = 0#2 := by
        rw [halfAligned_iff] at hb
        rw [wordAligned_iff]
        have : ¬ v.toNat % 4 = 2 := fun e => hv (by rw [← BitVec.toNat_inj]; simpa using e)
        omega
      rw [BitVec.extractLsb'_and, hv0]
      exact BitVec.zero_and
    · exact clearBit0_even v

/-- A return from an exception is an instruction of the modes that have an SPSR (60_exceptions.md R885). -/
theorem keeps_exceptionReturn (h : Works s t) (a : Word) : Keeps isa s (t.exceptionReturn a) := by
  intro u hu
  obtain ⟨s1, hr, hu⟩ := exceptionReturn_next hu
  obtain ⟨w, hw, hlegal, rfl⟩ := restoreCpsr_ok hr
  have hne : s.mode ≠ .usr := fun hm => by
    rw [State.spsrOf, h.mode, hm] at hw
    cases hw
  have hfixed {target : Word} (hs : s.fixedBitsInv) : State.fixedBitsInv (State.jump
      { t with cpsr := w, dbgUnit := { t.dbgUnit with sds := false } } target true) :=
    fixedBitsInv_congr (s := t) rfl (h.fixedBits hs)
  obtain ⟨hT, rfl⟩ | ⟨hT, ha, rfl⟩ := hu
  · exact ⟨fun _ _ => ⟨hlegal, aligns_of_thumb hT (clearBit0_even a)⟩, hfixed, fun hm => absurd hm hne⟩
  · exact ⟨fun _ _ => ⟨hlegal, aligns_of_wordAligned _ ha⟩, hfixed, fun hm => absurd hm hne⟩

/-! ### Exceptions of an instruction -/

/-- An exception, or a debug exception, of the instruction. -/
theorem keeps_vector (h : Works s u) (hk : SystemKept u t)
    (hv : AtVector [.svc, .abt, .und, .dbg] [0x00#32, 0x04#32, 0x08#32, 0x0C#32, 0x10#32] u.vectorBase t) :
    Keeps isa s (.next t) := by
  refine keeps_next ⟨fun _ _ => modeInv_of_atVector hv (by simp), hk.fixedBits ∘ h.fixedBits, fun hm hd => .inr ?_⟩
  have hu := (h.user hm hd).system
  exact ⟨hu.trans hk, hu.vectorBase ▸ hv⟩

/-- The exceptions that an instruction itself raises (60_exceptions.md R860). -/
def Exception.synchronous : Exception → Bool
  | .undefined => true
  | .swi => true
  | .prefetchAbort _ => true
  | .dataAbort _ _ _ => true
  | .impreciseAbort _ => false
  | .irq => false
  | .fiq => false

theorem synchronous_mode {e : Exception} (h : e.synchronous = true) : e.mode ∈ [Mode.svc, .abt, .und, .dbg] := by
  cases e <;> simp_all [Exception.mode, Exception.synchronous]

theorem synchronous_offset {e : Exception} (h : e.synchronous = true) :
    e.offset ∈ [0x00#32, 0x04#32, 0x08#32, 0x0C#32, 0x10#32] := by
  cases e <;> simp_all [Exception.offset, Exception.vector, Exception.synchronous]

theorem atVector_synchronous {e : Exception} (h : e.synchronous = true) (s : State) :
    AtVector [.svc, .abt, .und, .dbg] [0x00#32, 0x04#32, 0x08#32, 0x0C#32, 0x10#32] s.vectorBase (takeException e s) :=
  (atVector_takeException e s).mono (List.cons_subset.2 ⟨synchronous_mode h, by decide⟩)
    (List.cons_subset.2 ⟨synchronous_offset h, by decide⟩)

theorem keeps_takeException {e : Exception} (h : Works s t) (he : e.synchronous = true) :
    Keeps isa s (.next (takeException e t)) :=
  keeps_vector h (systemKept_takeException e t) (atVector_synchronous he t)

theorem keeps_undefined (h : Works s t) : Keeps isa s (undefinedInstr t) := by
  unfold undefinedInstr
  split
  · exact keeps_refused _
  · exact keeps_takeException h rfl

theorem keeps_endTrap (h : Works s t) (e : Trap) : Keeps isa s (endTrap e t) := by
  cases e with
  | dataAbort code domain far => exact keeps_takeException h rfl
  | prefetchAbort code => exact keeps_takeException h rfl
  | undefined => exact keeps_undefined h
  | refuse r => exact keeps_refused r
  | fault f => exact keeps_fault f

/-- A body, then what is done with its answer. -/
theorem keeps_runThen {x : Exec α} {k : α → State → Result} (hx : At Works s u x)
    (hk : ∀ v t, Works s t → Keeps isa s (k v t)) : Keeps isa s (runThen x k u) := by
  unfold runThen
  unfold At at hx
  cases h : x u with
  | ok v t => rw [h] at hx; exact hk v t hx
  | error e t => rw [h] at hx; exact keeps_endTrap hx e

/-! ### Conditions and refusals -/

theorem keeps_ite {p : Prop} [Decidable p] {x y : Result} (hx : p → Keeps isa s x) (hy : ¬ p → Keeps isa s y) :
    Keeps isa s (if p then x else y) := by
  split
  · next h => exact hx h
  · next h => exact hy h

/-- A check that refuses, then the rest. -/
theorem keeps_unless {p : Prop} [Decidable p] {r : Refusal} {y : Result} (hy : Keeps isa s y) :
    Keeps isa s (if p then .refused r else y) := keeps_ite (fun _ => keeps_refused r) fun _ => hy

theorem keeps_orRefuse {r : Option Refusal} {body : Result} (h : Keeps isa s body) : Keeps isa s (orRefuse r body) := by
  cases r with
  | none => exact h
  | some r => exact keeps_refused r

theorem keeps_when (h : Works s t) {cond : BitVec 4} {body : Result} (hb : Keeps isa s body) :
    Keeps isa s (t.when cond body) := keeps_ite (fun _ => hb) fun _ => keeps_skip h

/-! ### Software interrupt and breakpoint -/

theorem AtVector.flowTo {ms : List Mode} {os : List Word} (h : AtVector ms os a t) (f : Flow) :
    AtVector ms os a (t.flowTo f) := ⟨h.maskI, h.thumb, h.legal, h.mode, h.pc⟩

theorem SystemKept.flowTo (h : SystemKept s t) (f : Flow) : SystemKept s (t.flowTo f) :=
  ⟨h.cp15, h.fixedBits, h.pmu, h.power, h.tx, h.rx, h.txrxctrl, h.dcsr, h.itlb, h.dtlb, h.icache, h.miniIc, h.acc0⟩

theorem keeps_softwareInterrupt (s : State) : Keeps isa s (softwareInterrupt s) :=
  keeps_unless (keeps_vector (.refl s) ((systemKept_takeException .swi s).flowTo _)
    ((atVector_synchronous rfl s).flowTo _))

theorem keeps_softwareBreakpoint (s : State) : Keeps isa s (softwareBreakpoint s) :=
  keeps_ite (fun _ => keeps_advance (.refl s)) fun _ =>
    keeps_unless (keeps_vector (.refl s) ((systemKept_debugEntry s _ _).flowTo _)
      (((atVector_debugEntry s _ _).mono (by decide) (by decide)).flowTo _))

end
end Sys2Proof.Machine

/-! ### The meanings, shape by shape -/
namespace Sys2Proof.Machine
section

variable {α : Type} {isa : Isa} {s t u : State} {a : Word} {cond : BitVec 4}

/-! ### Data processing and multiplies -/

theorem keeps_dpWrite (h : Works s t) (sf : Bool) (rd : RegNum) (v : Word) {flags : State → State}
    (hf : ∀ u, Works s u → Works s (flags u)) : Keeps isa s (dpWrite sf rd v flags t) := by
  have hreg := works_setReg h rd v
  refine keeps_ite (fun _ => keeps_ite (fun _ => keeps_exceptionReturn h v) fun _ => ?_) fun _ => keeps_advance ?_
  · exact keeps_ite (fun _ => keeps_refused _) fun hv =>
      keeps_jump h true fun _ _ => aligns_of_wordAligned s (not_not.1 hv)
  · split
    · exact hf _ hreg
    · exact hreg

theorem keeps_arithOp (sf : Bool) (rn rd : RegNum) (op2 : Op2) (f : Word → Word → Bool → Sum) :
    Keeps isa s (arithOp cond sf rn rd op2 f s) :=
  have h := works_dpBegin (.refl s) op2
  keeps_when h (keeps_ite (fun _ => keeps_dpWrite h sf rd _ fun _ hu => works_setSum hu _) fun _ => keeps_refused _)

theorem keeps_logicalOp (sf : Bool) (rn rd : RegNum) (op2 : Op2) (f : Word → Word → Word) :
    Keeps isa s (logicalOp cond sf rn rd op2 f s) :=
  have h := works_dpBegin (.refl s) op2
  keeps_when h (keeps_ite (fun _ => keeps_dpWrite h sf rd _ fun _ hu => works_setLogical hu _ _) fun _ => keeps_refused _)

theorem keeps_arithTest (rn : RegNum) (op2 : Op2) (f : Word → Word → Sum) :
    Keeps isa s (arithTest cond rn op2 f s) :=
  have h := works_dpBegin (.refl s) op2
  keeps_when h (keeps_ite (fun _ => keeps_advance (works_setSum h _)) fun _ => keeps_refused _)

theorem keeps_logicalTest (rn : RegNum) (op2 : Op2) (f : Word → Word → Word) :
    Keeps isa s (logicalTest cond rn op2 f s) :=
  have h := works_dpBegin (.refl s) op2
  keeps_when h (keeps_ite (fun _ => keeps_advance (works_setLogical h _ _)) fun _ => keeps_refused _)

theorem keeps_clz (rd rm : RegNum) : Keeps isa s (execClz cond rd rm s) :=
  keeps_when (.refl s) (keeps_unless (keeps_advance (works_setReg (.refl s) _ _)))

theorem keeps_regOp (used : List RegNum) {body : State → State} (hb : Works s (body s)) :
    Keeps isa s (regOp cond used body s) :=
  keeps_when (.refl s) (keeps_unless (keeps_advance hb))

theorem keeps_mulOp (sf : Bool) (rd : RegNum) (used : List RegNum) (v : Word) :
    Keeps isa s (mulOp cond sf rd used v s) := by
  have h := works_setReg (.refl s) rd v
  refine keeps_regOp _ ?_
  split
  · exact works_setNz h v
  · exact h

theorem keeps_mulLongOp (sf : Bool) (rdHi rdLo rs rm : RegNum) (p : BitVec 64) :
    Keeps isa s (mulLongOp cond sf rdHi rdLo rs rm p s) := by
  have h : Works s (s.setPair rdHi rdLo p) := works_setReg (works_setReg (.refl s) _ _) _ _
  refine keeps_when (.refl s) (keeps_unless (keeps_unless (keeps_advance ?_)))
  split
  · exact works_setNzLong h p
  · exact h

/-! ### Branches -/

theorem shiftLeft_aligned (x : Word) : (x <<< 2).toNat % 4 = 0 := by
  rw [BitVec.toNat_shiftLeft, Nat.shiftLeft_eq]
  omega

theorem aligns_branchTarget (hs : s.modeInv) (imm : BitVec 24) : s.aligns (s.branchTarget imm) :=
  aligns_add (aligns_add hs.2 rfl) (shiftLeft_aligned _)

theorem keeps_directBranch (taken : Bool) (suffix : Option (BitVec 11)) {link : State → State}
    (hlink : ∀ u, Works s u → Works s (link u))
    (ha : (isa = .thumb → s.thumb = true) → s.modeInv → s.aligns a) :
    Keeps isa s (directBranch taken a suffix link s) :=
  have h := works_btbUpdate (works_noteBranch (.refl s)) a taken suffix
  keeps_ite (fun _ => keeps_jump (hlink _ h) false ha) fun _ => keeps_skip h

theorem works_linkNext (h : Works s t) : Works s t.linkNext := works_setReg h _ _
theorem works_linkThumb (h : Works s t) : Works s t.linkThumb := works_setReg h _ _

theorem keeps_b (imm : BitVec 24) : Keeps isa s (execB cond imm s) :=
  keeps_directBranch _ _ (fun _ => id) fun _ hs => aligns_branchTarget hs imm

theorem keeps_bl (imm : BitVec 24) : Keeps isa s (execBl cond imm s) :=
  keeps_directBranch _ _ (fun _ => works_linkNext) fun _ hs => aligns_branchTarget hs imm

theorem even_of_aligns (h : s.aligns a) : a.toNat % 2 = 0 := by
  rw [aligns_iff] at h
  split at h <;> omega

/-- BLX (1) goes to a halfword in Thumb state (43_branch_status_system.md R502). -/
theorem keeps_blx1 (hbit : Bool) (imm : BitVec 24) : Keeps isa s (execBlx1 hbit imm s) := by
  refine keeps_setThumb_jump (works_linkNext (works_noteBranch (.refl s))) true true fun hs => ?_
  have h := even_of_aligns (aligns_branchTarget hs imm)
  simp only [if_true]
  rw [halfAligned_iff, BitVec.toNat_add]
  cases hbit <;> simp <;> omega

theorem keeps_blx2 (rm : RegNum) : Keeps isa s (execBlx2 cond rm s) :=
  have h := works_noteBranch (.refl s)
  keeps_when h (keeps_unless (keeps_interwork (works_linkNext h) _))

theorem keeps_bx (rm : RegNum) : Keeps isa s (execBx cond rm s) :=
  have h := works_noteBranch (.refl s)
  keeps_when h (keeps_interwork h _)

/-! ### Status registers -/

theorem keeps_mrs (r : Bool) (rd : RegNum) : Keeps isa s (execMrs cond r rd s) := by
  have h (v : Word) : Keeps isa s (.next (s.setReg rd v).advance) := keeps_advance (works_setReg (.refl s) rd v)
  refine keeps_when (.refl s) (keeps_unless (keeps_ite (fun _ => ?_) fun _ => h _))
  split
  · exact h _
  · exact keeps_refused _

theorem privileged_iff (s : State) : s.privileged = true ↔ s.mode ≠ .usr := by
  unfold State.privileged
  exact bne_iff_ne

/-- Merging under a mask changes nothing outside it. -/
theorem mergeBits_outside {old new m k : Word} (h : m &&& k = 0#32) : mergeBits old new m &&& k = old &&& k := by
  have hk : ~~~m &&& k = k := by
    rw [← BitVec.or_zero (x := ~~~m &&& k), ← h, BitVec.or_comm, ← BitVec.and_or_distrib_right, BitVec.or_not_self,
      BitVec.allOnes_and]
  unfold mergeBits
  rw [BitVec.and_or_distrib_right, BitVec.and_assoc, BitVec.and_assoc, h, hk, BitVec.and_zero, BitVec.or_zero]

theorem keeps_writeCpsr (mask : BitVec 4) (operand : Word) : Keeps isa s (writeCpsr mask operand s) := by
  refine keeps_ite (fun hp => keeps_ite (fun _ => keeps_refused _) fun hT => keeps_ite (fun _ => keeps_refused _)
    fun hl => keeps_unless (keeps_next ?_)) fun _ => ?_
  · have hm := (privileged_iff s).1 hp
    refine ⟨fun _ hs => ⟨by simpa [Option.isSome_iff_ne_none] using hl, ?_⟩, fixedBitsInv_congr rfl, fun h => absurd h hm⟩
    exact aligns_of_eq (s := s) (not_not.1 hT) (aligns_add_instrBytes hs.2)
  · refine keeps_nextInstr (.refl s) rfl (mergeBits_outside ?_) rfl
    rw [BitVec.and_assoc]
    exact BitVec.and_zero

theorem mode_ne_usr_of_spsrOf {w : Word} (h : s.spsrOf = some w) : s.mode ≠ .usr := fun hm => by
  rw [State.spsrOf, hm] at h
  cases h

theorem keeps_writeSpsr (mask : BitVec 4) (operand : Word) : Keeps isa s (writeSpsr mask operand s) := by
  unfold writeSpsr
  split
  · next w hw =>
    have hc : ControlKept s (s.setSpsr s.mode (mergeBits w operand (byteMask mask))) :=
      .of_eq (by simp) (by simp) (by simp)
    exact keeps_advance (works_of_privileged (mode_ne_usr_of_spsrOf hw) hc)
  · exact keeps_refused _

theorem keeps_msrReg (r : Bool) (mask : BitVec 4) (rm : RegNum) : Keeps isa s (execMsrReg cond r mask rm s) :=
  keeps_when (.refl s) (keeps_unless (keeps_ite (fun _ => keeps_writeSpsr _ _) fun _ => keeps_writeCpsr _ _))

theorem keeps_msrImm (r : Bool) (mask rot : BitVec 4) (imm8 : BitVec 8) :
    Keeps isa s (execMsrImm cond r mask rot imm8 s) :=
  keeps_when (.refl s) (keeps_ite (fun _ => keeps_writeSpsr _ _) fun _ => keeps_writeCpsr _ _)

/-! ### Single transfers -/

theorem memReadAs_works (f : List Byte → Word) (va : Word) (n : Nat) (priv : Bool) :
    Within Works (memReadAs f va n priv) :=
  works_within (memReadAs_dataOnly f va n priv) (memReadAs_controlKept f va n priv)

theorem memWrite_works (va : Word) (n : Nat) (priv : Bool) (v : Word) : Within Works (memWrite va n priv v) :=
  works_within (memWrite_dataOnly va n priv v) (memWrite_controlKept va n priv v)

theorem keeps_loadReg (rn rd : RegNum) (ad : Address) {read : Word → Exec Word} (hr : ∀ a, Within Works (read a)) :
    Keeps isa s (loadReg rn rd ad read s) :=
  keeps_runThen (hr _ s) fun _ _ h => keeps_advance (works_setReg (works_updateBase h rn ad) _ _)

theorem keeps_loadPc (rn : RegNum) (ad : Address) {read : Word → Exec Word} (hr : ∀ a, Within Works (read a)) :
    Keeps isa s (loadPc rn ad read s) :=
  keeps_runThen ((hr _).at .trans (works_noteLoadsPc (.refl s))) fun _ _ h => keeps_interwork (works_updateBase h rn ad) _

theorem keeps_storeReg (rn : RegNum) (ad : Address) {write : Word → Exec Unit} (hw : ∀ a, Within Works (write a)) :
    Keeps isa s (storeReg rn ad write s) :=
  keeps_runThen (hw _ s) fun _ _ h => keeps_advance (works_updateBase h rn ad)

/-- A load of one register behind its condition and its checks. -/
theorem keeps_loadIf (r : Option Refusal) (rn rd : RegNum) (ad : Address) {read : Word → Exec Word}
    (hr : ∀ a, Within Works (read a)) : Keeps isa s (s.when cond (orRefuse r (loadReg rn rd ad read s))) :=
  keeps_when (.refl s) (keeps_orRefuse (keeps_loadReg rn rd ad hr))

theorem keeps_storeIf (r : Option Refusal) (rn : RegNum) (ad : Address) {write : Word → Exec Unit}
    (hw : ∀ a, Within Works (write a)) : Keeps isa s (s.when cond (orRefuse r (storeReg rn ad write s))) :=
  keeps_when (.refl s) (keeps_orRefuse (keeps_storeReg rn ad hw))

theorem keeps_ldr (rn rd : RegNum) (am : Mode2) : Keeps isa s (execLdr cond rn rd am s) :=
  keeps_when (.refl s) (keeps_orRefuse (keeps_unless (keeps_ite
    (fun _ => keeps_unless (keeps_loadPc _ _ fun _ => memReadAs_works _ _ _ _))
    fun _ => keeps_loadReg _ _ _ fun _ => memReadAs_works _ _ _ _)))

/-! ### Transfers of several words -/

/-- A preload is a data access. -/
theorem preload_dataOnly (va : Word) : Within DataOnly (preload va) := by
  refine within_get_bind fun s => ?_
  dsimp only
  split
  · exact at_pure _ (.refl s)
  · split
    · exact at_pure _ (.refl s)
    · split
      · exact at_set (dataOnly_noteAccess s _)
      · split
        · exact at_fault _ (.refl s)
        · exact at_set_bind (at_bind ((fillLine_dataOnly _ _ _ _).at dataOnly_trans (dataOnly_noteAccess s _))
            fun _ _ h => at_pure _ h)

/-- The work of a computation that may write registers of a bank, which in User mode is the user's. -/
def WorksBank (m : Mode) (s t : State) : Prop := (s.mode = .usr → m = .usr) → Works s t

theorem WorksBank.trans {m : Mode} (h : WorksBank m s t) (h' : WorksBank m t u) : WorksBank m s u := fun hm =>
  have hst := h hm
  hst.trans (h' (hst.mode.symm ▸ hm))

theorem worksBank_within (m : Mode) {x : Exec α} (hx : Within Works x) : Within (WorksBank m) x := by
  intro s
  have hx := hx s
  unfold At at *
  cases h : x s with
  | ok v t => rw [h] at hx; exact fun _ => hx
  | error e t => rw [h] at hx; exact fun _ => hx

theorem worksBank_refl (m : Mode) (s : State) : WorksBank m s s := fun _ => .refl s

theorem works_setBankRegs (h : Works s t) {m : Mode} (vs : List (RegNum × Word))
    (hm : ∀ p ∈ vs, s.mode = .usr → m = .usr ∧ p.1 ≠ 15#4) :
    Works s (vs.foldl (fun t p => t.setBankReg m p.1 p.2) t) := by
  induction vs generalizing t with
  | nil => exact h
  | cons p vs ih =>
    rw [List.forall_mem_cons] at hm
    exact ih (works_setBankReg h p.2 hm.1) hm.2

theorem abortLoad_worksBank (m : Mode) (rn : RegNum) (vs : List (RegNum × Word)) (e : Trap) :
    Within (WorksBank m) (abortLoad m rn vs e : Exec α) := fun s hm =>
  works_setBankRegs (works_draw (.refl s)) _ fun p hp hu => by
    have hp := (List.mem_filter.1 hp).2
    simp only [Bool.and_eq_true, bne_iff_ne] at hp
    exact ⟨hm hu, hp.1.2⟩

/-- The words of a list, or the abort that ends them (20_memory.md R155). -/
theorem loadOrAbort_worksBank (priv : Bool) (m : Mode) (rn : RegNum) (rs : List RegNum) (a : Word) :
    Within (WorksBank m) (loadWords priv rs a >>= fun p =>
      match p.2 with
      | some t => abortLoad m rn p.1 t
      | none => pure p.1) := by
  refine Within.bind .trans (worksBank_within m (works_within (loadWords_dataOnly _ _ _) (loadWords_controlKept _ _ _)))
    fun p => ?_
  split
  · exact abortLoad_worksBank _ _ _ _
  · exact pure_within (worksBank_refl m) _

theorem works_stickyAbort (code : BitVec 5) (domain : Option (BitVec 4)) (far : Option Word) (hs : s.dbgUnit.sds = true) :
    Works s (s.stickyAbort code domain far) :=
  have h := controlKept_stickyAbort s code domain far
  ⟨by rw [h.cpsr], h.pc, h.fixedBits, fun _ hd => absurd (hs.symm.trans hd) (by decide)⟩

theorem checkDouble_works (va : Word) : Within Works (checkDouble va) := by
  refine within_get_bind fun s => ?_
  split
  · exact works_draw (.refl s)
  · exact at_pure _ (.refl s)

theorem drawWord_works : Within Works drawWord := fun s => works_draw (.refl s)

theorem freePair_works (rd : RegNum) : Within Works (freePair rd) :=
  drawWord_works.bind .trans fun _ => drawWord_works.bind .trans fun _ => pure_within .refl _

theorem loadDouble_worksBank (priv : Bool) (m : Mode) (rn rd : RegNum) (va : Word) :
    Within (WorksBank m) (loadDouble priv m rn rd va) :=
  ignoreAbortInSds_within .trans (fun _ code domain far hs _ => works_stickyAbort code domain far hs)
    ((worksBank_within m (checkDouble_works va)).bind .trans fun _ => loadOrAbort_worksBank priv m rn _ va)
    (worksBank_within m (freePair_works rd))

/-- A load into the registers of a bank runs in the state before it, or with a note made. -/
theorem at_works_of_bank {m : Mode} {x : Exec α} (hx : Within (WorksBank m) x) (h : Works s t)
    (hm : s.mode = .usr → m = .usr) : At Works s t x := by
  have hx := hx t
  have hm' : t.mode = .usr → m = .usr := h.mode.symm ▸ hm
  unfold At at *
  cases e : x t with
  | ok v u => rw [e] at hx; exact h.trans (hx hm')
  | error r u => rw [e] at hx; exact h.trans (hx hm')

theorem keeps_ldrd (p u w : Bool) (rn rd : RegNum) (off : Offset3) : Keeps isa s (execLdrd cond p u w rn rd off s) :=
  keeps_when (.refl s) (keeps_ite (fun _ => keeps_undefined (.refl s)) fun _ => keeps_orRefuse
    (keeps_runThen (at_works_of_bank (loadDouble_worksBank _ _ _ _ _) (.refl s) id) fun _ _ h =>
      keeps_advance (works_setRegs (works_updateBase h _ _) _)))

theorem storeWords_works (priv : Bool) (vs : List Word) (a : Word) : Within Works (storeWords priv vs a) :=
  works_within (storeWords_dataOnly priv vs a) (storeWords_controlKept priv vs a)

theorem keeps_strd (p u w : Bool) (rn rd : RegNum) (off : Offset3) : Keeps isa s (execStrd cond p u w rn rd off s) :=
  keeps_when (.refl s) (keeps_ite (fun _ => keeps_undefined (.refl s)) fun _ => keeps_orRefuse
    (keeps_storeReg _ _ fun a => (refuseAbortInSds_within (checkDouble_works a)).bind .trans fun _ =>
      storeWords_works _ _ _))

theorem checkSpan_works (a : Word) (n : Nat) : Within Works (checkSpan a n) :=
  works_within (checkSpan_dataOnly a n) (checkSpan_controlKept a n)

theorem keeps_loadMultiple {bank : Mode} (hm : s.mode = .usr → bank = .usr) (p u w : Bool) (rn : RegNum)
    (regs : List RegNum) {k : List (RegNum × Word) → State → Result}
    (hk : ∀ vs t, Works s t → Keeps isa s (k vs t)) : Keeps isa s (loadMultiple bank p u w rn regs k s) := by
  have h : Works s (if regs.contains 15#4 then s.noteLoadsPc else s) := by
    split
    · exact works_noteLoadsPc (.refl s)
    · exact .refl s
  refine keeps_runThen (at_works_of_bank ((worksBank_within bank (checkSpan_works _ _)).bind .trans fun _ =>
    loadOrAbort_worksBank _ bank rn regs _) h hm) fun vs t ht => hk vs _ ?_
  split
  · exact works_setReg ht _ _
  · exact ht

/-- A load multiple ends at the value loaded for the PC, or at the next instruction (42_load_store.md R470). -/
theorem keeps_loadedPc (vs : List (RegNum × Word)) (h : Works s t) :
    Keeps isa s (match pcValue vs with
      | some v => (t.setRegs vs).interwork v
      | none => .next (t.setRegs vs).advance) := by
  split
  · exact keeps_interwork (works_setRegs h vs) _
  · exact keeps_advance (works_setRegs h vs)

theorem keeps_ldm1 (p u w : Bool) (rn : RegNum) (list : BitVec 16) : Keeps isa s (execLdm1 cond p u w rn list s) :=
  keeps_when (.refl s) (keeps_orRefuse (keeps_unless (keeps_unless
    (keeps_loadMultiple id _ _ _ _ _ fun vs _ h => keeps_loadedPc vs h))))

theorem mode_ne_usr_of_spsr {w : Bool} (h : ¬ (w || s.lacksSpsr) = true) : s.mode ≠ .usr := fun hm =>
  h (by rw [State.lacksSpsr, hm]; exact Bool.or_true w)

theorem keeps_ldm2 (p u w : Bool) (rn : RegNum) (list : BitVec 15) : Keeps isa s (execLdm2 cond p u w rn list s) :=
  keeps_when (.refl s) (keeps_orRefuse (keeps_ite (fun _ => keeps_refused _) fun hs => keeps_unless
    (keeps_loadMultiple (fun _ => rfl) _ _ _ _ _ fun vs _ h => keeps_advance (works_bankHazard
      (works_setBankRegs h vs fun _ _ hu => absurd hu (mode_ne_usr_of_spsr hs))))))

theorem keeps_ldm3 (p u w : Bool) (rn : RegNum) (list : BitVec 15) : Keeps isa s (execLdm3 cond p u w rn list s) :=
  keeps_when (.refl s) (keeps_orRefuse (keeps_unless (keeps_unless (keeps_unless
    (keeps_loadMultiple id _ _ _ _ _ fun vs _ h => keeps_exceptionReturn (works_setRegs h vs) _)))))

theorem keeps_storeMultiple (p u w : Bool) (rn : RegNum) (regs : List RegNum) (value : RegNum → Word) :
    Keeps isa s (storeMultiple p u w rn regs value s) := by
  unfold storeMultiple
  dsimp only
  generalize (w && regs.contains rn && regs.head? != some rn) = spoilt
  have h : Works s (if spoilt then s.draw.2 else s) := by
    cases spoilt
    · exact .refl s
    · exact works_draw (.refl s)
  refine keeps_runThen (((checkSpan_works _ _).bind .trans fun _ => storeWords_works _ _ _).at .trans h) fun _ t ht =>
    keeps_advance ?_
  split
  · exact works_setReg ht _ _
  · exact ht

theorem keeps_stm1 (p u w : Bool) (rn : RegNum) (list : BitVec 16) : Keeps isa s (execStm1 cond p u w rn list s) :=
  keeps_when (.refl s) (keeps_orRefuse (keeps_storeMultiple _ _ _ _ _ _))

theorem keeps_stm2 (p u w : Bool) (rn : RegNum) (list : BitVec 16) : Keeps isa s (execStm2 cond p u w rn list s) :=
  keeps_when (.refl s) (keeps_orRefuse (keeps_unless (keeps_storeMultiple _ _ _ _ _ _)))

theorem keeps_swapOp (rn rd rm : RegNum) (n : Nat) (value : Word → Word) :
    Keeps isa s (swapOp cond rn rd rm n value s) :=
  keeps_when (.refl s) (keeps_unless (keeps_unless (keeps_unless
    (keeps_runThen (works_within (swapAccess_dataOnly _ _ _ _) (swapAccess_controlKept _ _ _ _) s) fun _ _ h =>
      keeps_advance (works_setReg h _ _)))))

theorem keeps_preload (va : Word) : Keeps isa s (runThen (preload va) (fun _ t => .next t.advance) s) :=
  keeps_runThen (works_within (preload_dataOnly va) (preload_controlKept va) s) fun _ _ h => keeps_advance h

/-! ### Coprocessors -/

theorem keeps_moveFrom (rd : RegNum) {read : Exec Word} (hr : Within ControlKept read) :
    Keeps isa s (moveFrom cond rd read s) :=
  keeps_when (works_keepR13Dbg (.refl s)) (keeps_ite
    (fun hp => keeps_runThen (at_works_of_privileged (.refl s) ((privileged_iff s).1 hp) hr) fun _ _ h =>
      keeps_advance (works_keepR13Dbg (works_setMoved h _ _)))
    fun _ => keeps_undefined (.refl s))

theorem keeps_moveTo (rd : RegNum) {write : Word → Exec Unit} (hw : ∀ v, Within ControlKept (write v)) :
    Keeps isa s (moveTo cond rd write s) :=
  keeps_when (works_keepR13Dbg (.refl s)) (keeps_ite
    (fun hp => keeps_unless (keeps_runThen (at_works_of_privileged (.refl s) ((privileged_iff s).1 hp) (hw _))
      fun _ _ h => keeps_advance (works_keepR13Dbg h)))
    fun _ => keeps_undefined (.refl s))

theorem keeps_noSuchTransfer (cp : BitVec 4) : Keeps isa s (noSuchTransfer cp s) :=
  keeps_unless (keeps_undefined (.refl s))

theorem keeps_unlistedMove (cp : BitVec 4) (why : Refusal) : Keeps isa s (unlistedMove cp why s) :=
  keeps_ite (fun _ => keeps_unless (keeps_undefined (.refl s))) fun _ => keeps_unless (keeps_undefined (.refl s))

theorem keeps_unlistedMoveIf (cp : BitVec 4) (why : Refusal) :
    Keeps isa s (s.keepR13Dbg.when cond (unlistedMove cp why s)) :=
  keeps_when (works_keepR13Dbg (.refl s)) (keeps_unlistedMove cp why)

theorem keeps_noSuchTransferIf (cp : BitVec 4) : Keeps isa s (s.when cond (noSuchTransfer cp s)) :=
  keeps_when (.refl s) (keeps_noSuchTransfer cp)

theorem keeps_transferCp14 (n : Bool) (rn crd cp : BitVec 4) (ad : Address) {body : Result}
    (hb : s.mode ≠ .usr → Keeps isa s body) : Keeps isa s (transferCp14 cond n rn crd cp ad body s) := by
  refine keeps_when (.refl s) (keeps_ite (fun _ => keeps_undefined (.refl s)) fun hp =>
    keeps_unless (keeps_unless (keeps_unless (keeps_unless (hb ?_)))))
  exact (privileged_iff s).1 (by simpa using (not_or.1 hp).2)

theorem keeps_transferUnindexed (cp : BitVec 4) : Keeps isa s (transferUnindexed cond cp s) :=
  keeps_when (.refl s) (keeps_ite (fun _ => keeps_undefined (.refl s)) fun _ => keeps_refused _)

theorem keeps_loadCp14 (rn crd : BitVec 4) (ad : Address) (hm : s.mode ≠ .usr) : Keeps isa s (loadCp14 rn crd ad s) :=
  keeps_runThen (at_works_of_privileged (.refl s) hm ((memReadAs_controlKept _ _ _ _).bind .trans fun _ =>
    writeCp14_controlKept _ _)) fun _ _ h => keeps_advance (works_updateBase h _ _)

/-- A store that aborts puts the debug unit and the trace buffer back (44_coprocessor.md R548). -/
theorem keeps_storeCp14 (rn crd : BitVec 4) (ad : Address) (hm : s.mode ≠ .usr) : Keeps isa s (storeCp14 rn crd ad s) := by
  refine keeps_runThen (at_works_of_privileged (.refl s) hm ((readCp14_controlKept crd).bind .trans fun v s1 => ?_))
    fun _ _ h => keeps_advance (works_updateBase h _ _)
  have hw := memWrite_controlKept ad.at_ 4 s.privileged v s1
  unfold At at *
  dsimp only
  cases h : memWrite ad.at_ 4 s.privileged v s1 with
  | ok _ s2 => rw [h] at hw; exact hw
  | error e s2 => rw [h] at hw; exact hw.trans ⟨rfl, rfl, id⟩

/-- The first check of an instruction of CP0 (44_coprocessor.md R542). -/
theorem keeps_ifCp0 {body : Result} (hb : s.cp0Allowed = true → Keeps isa s body) :
    Keeps isa s (if !s.cp0Allowed then undefinedInstr s else body) :=
  keeps_ite (fun _ => keeps_undefined (.refl s)) fun h => hb (by simpa using h)

theorem keeps_miaOp (rs : RegNum) (acc : BitVec 3) (rm : RegNum) (product : Word → Word → Int) :
    Keeps isa s (miaOp cond rs acc rm product s) :=
  keeps_when (.refl s) (keeps_ifCp0 fun hc => keeps_unless (keeps_unless (keeps_advance (works_acc0 hc _))))

theorem keeps_mar (rdHi rdLo : RegNum) (acc : BitVec 3) : Keeps isa s (execMar cond rdHi rdLo acc s) :=
  keeps_when (.refl s) (keeps_ifCp0 fun hc => keeps_unless (keeps_unless (keeps_advance (works_acc0 hc _))))

theorem keeps_mra (rdHi rdLo : RegNum) (acc : BitVec 3) : Keeps isa s (execMra cond rdHi rdLo acc s) :=
  keeps_when (.refl s) (keeps_ifCp0 fun _ => keeps_unless (keeps_unless (keeps_unless
    (keeps_advance (works_setReg (works_setReg (.refl s) _ _) _ _)))))

/-! ### Thumb -/

theorem keeps_thumbLogical (rd : BitVec 3) (r : Word) (c : Bool) : Keeps isa s (thumbLogical rd r c s) :=
  keeps_advance (works_keepR13Dbg (works_setLogical (works_setReg (.refl s) _ _) _ _))

theorem keeps_thumbSum (rd : BitVec 3) (r : Sum) : Keeps isa s (thumbSum rd r s) :=
  keeps_advance (works_keepR13Dbg (works_setSum (works_setReg (.refl s) _ _) _))

theorem keeps_thumbCompare (r : Sum) : Keeps isa s (thumbCompare r s) :=
  keeps_advance (works_keepR13Dbg (works_setSum (.refl s) _))

theorem aligns_clearBit0 (h : Isa.thumb = .thumb → s.thumb = true) (v : Word) : s.aligns (v &&& 0xFFFFFFFE#32) :=
  aligns_of_thumb (h rfl) (clearBit0_even v)

theorem keeps_thumbHigh (rd : RegNum) (r : Word) : Keeps .thumb s (thumbHigh rd r s) :=
  keeps_ite (fun _ => keeps_jump (works_keepR13Dbg (.refl s)) true fun h _ => aligns_clearBit0 h r)
    fun _ => keeps_advance (works_keepR13Dbg (works_setReg (.refl s) _ _))

theorem keeps_tTst (rm rn : BitVec 3) : Keeps isa s (execTTst rm rn s) :=
  keeps_advance (works_keepR13Dbg (works_setLogical (.refl s) _ _))

theorem keeps_tMul (rm rd : BitVec 3) : Keeps isa s (execTMul rm rd s) :=
  keeps_advance (works_setNz (works_setReg (.refl s) _ _) _)

/-- A Thumb branch target lies a number of halfwords from the PC (46_thumb.md R730). -/
theorem aligns_thumbTarget {n : Nat} (hT : s.thumb = true) (hs : s.modeInv) (imm : BitVec n) :
    s.aligns (s.thumbTarget imm) := by
  have hpc := even_of_aligns hs.2
  refine aligns_of_thumb hT ?_
  rw [halfAligned_iff]
  simp only [State.thumbTarget, State.pcRead, hT, if_true, BitVec.toNat_add, BitVec.toNat_shiftLeft, Nat.shiftLeft_eq,
    BitVec.toNat_ofNat]
  omega

theorem keeps_thumbBranch {n : Nat} (taken : Bool) (imm : BitVec n) :
    Keeps .thumb s (directBranch taken (s.thumbTarget imm) none (fun t => t) s) :=
  keeps_directBranch _ _ (fun _ => id) fun h hs => aligns_thumbTarget (h rfl) hs imm

theorem keeps_tBlSuffix (off : BitVec 11) : Keeps .thumb s (execTBlSuffix off s) :=
  keeps_directBranch _ _ (fun _ => works_linkThumb) fun h _ => aligns_clearBit0 h _

theorem keeps_tBlxSuffix (off : BitVec 10) : Keeps isa s (execTBlxSuffix off s) :=
  keeps_setThumb_jump (works_linkThumb (works_noteBranch (.refl s))) false true fun _ => clearBits_aligned _

theorem keeps_tBlPrefix (off : BitVec 11) : Keeps isa s (execTBlPrefix off s) :=
  keeps_advance (works_setReg (.refl s) _ _)

theorem keeps_tBx (h2 : Bool) (rm : BitVec 3) : Keeps isa s (execTBx h2 rm s) :=
  keeps_interwork (works_noteBranch (.refl s)) _

theorem keeps_tBlx2 (h2 : Bool) (rm : BitVec 3) : Keeps isa s (execTBlx2 h2 rm s) :=
  keeps_unless (keeps_interwork (works_linkThumb (works_noteBranch (.refl s))) _)

theorem keeps_thumbLoad (rd : BitVec 3) (a : Word) {read : Word → Exec Word} (hr : ∀ a, Within Works (read a)) :
    Keeps isa s (thumbLoad rd a read s) := keeps_loadReg _ _ _ hr

theorem keeps_thumbStore (rd : BitVec 3) (a : Word) (n : Nat) : Keeps isa s (thumbStore rd a n s) :=
  keeps_storeReg _ _ fun _ => memWrite_works _ _ _ _

theorem keeps_tPush (r : Bool) (list : BitVec 8) : Keeps isa s (execTPush r list s) :=
  keeps_orRefuse (keeps_storeMultiple _ _ _ _ _ _)

theorem keeps_tPop (r : Bool) (list : BitVec 8) : Keeps isa s (execTPop r list s) :=
  keeps_orRefuse (keeps_unless (keeps_loadMultiple id _ _ _ _ _ fun vs _ h => keeps_loadedPc vs h))

theorem keeps_tStmia (rn : BitVec 3) (list : BitVec 8) : Keeps isa s (execTStmia rn list s) :=
  keeps_orRefuse (keeps_storeMultiple _ _ _ _ _ _)

theorem keeps_tLdmia (rn : BitVec 3) (list : BitVec 8) : Keeps isa s (execTLdmia rn list s) :=
  keeps_orRefuse (keeps_unless (keeps_loadMultiple id _ _ _ _ _ fun vs _ h => keeps_advance (works_setRegs h vs)))

end
end Sys2Proof.Machine

/-! ### Every instruction -/
namespace Sys2Proof.Machine
section

theorem keeps_undefinedIf {isa : Isa} {s : State} (cond : BitVec 4) : Keeps isa s (s.when cond (undefinedInstr s)) :=
  keeps_when (.refl s) (keeps_undefined (.refl s))

theorem modify_controlKept {f : State → State} (h : ∀ s, ControlKept s (f s)) :
    Within ControlKept (modify f : Exec PUnit) := h

/-- What every instruction keeps: the invariants of mode and fixed bits, and what User mode may not change. -/
theorem exec_keeps (i : Instr) (s : State) : Keeps i.isa s (exec i s) := by
  unfold exec
  cases i with
  | and | eor | orr | mov | bic | mvn => exact keeps_logicalOp _ _ _ _ _
  | sub | rsb | add | adc | sbc | rsc => exact keeps_arithOp _ _ _ _ _
  | tst | teq => exact keeps_logicalTest _ _ _
  | cmp | cmn => exact keeps_arithTest _ _ _
  | clz => exact keeps_clz _ _
  | mul | mla => exact keeps_mulOp _ _ _ _
  | umull | umlal | smull | smlal | smlalXY => exact keeps_mulLongOp _ _ _ _ _ _
  | smulXY | smulWY => exact keeps_regOp _ (works_setReg (.refl s) _ _)
  | smlaXY | smlaWY | qadd | qsub | qdadd | qdsub => exact keeps_regOp _ (works_setRegQ (.refl s) _ _)
  | ldr => exact keeps_ldr _ _ _
  | ldrb | ldrt | ldrbt | ldrh | ldrsb | ldrsh => exact keeps_loadIf _ _ _ _ fun _ => memReadAs_works _ _ _ _
  | str | strb | strt | strbt | strh => exact keeps_storeIf _ _ _ fun _ => memWrite_works _ _ _ _
  | ldrd => exact keeps_ldrd _ _ _ _ _ _
  | strd => exact keeps_strd _ _ _ _ _ _
  | ldm1 => exact keeps_ldm1 _ _ _ _ _
  | ldm2 => exact keeps_ldm2 _ _ _ _ _
  | ldm3 => exact keeps_ldm3 _ _ _ _ _
  | stm1 => exact keeps_stm1 _ _ _ _ _
  | stm2 => exact keeps_stm2 _ _ _ _ _
  | swp | swpb => exact keeps_swapOp _ _ _ _ _
  | pldImm => exact keeps_preload _
  | pldReg => exact keeps_unless (keeps_preload _)
  | b => exact keeps_b _
  | bl => exact keeps_bl _
  | blx1 => exact keeps_blx1 _ _
  | blx2 => exact keeps_blx2 _
  | bx => exact keeps_bx _
  | mrs => exact keeps_mrs _ _
  | msrReg => exact keeps_msrReg _ _ _
  | msrImm => exact keeps_msrImm _ _ _ _
  | swi => exact keeps_when (.refl s) (keeps_softwareInterrupt s)
  | bkpt => exact keeps_softwareBreakpoint s
  | cdp | mcrr | mrrc => exact keeps_noSuchTransferIf _
  | mcr | mrc => exact keeps_unlistedMoveIf _ _
  | ldcOffset | ldcPost => exact keeps_transferCp14 _ _ _ _ _ fun h => keeps_loadCp14 _ _ _ h
  | stcOffset | stcPost => exact keeps_transferCp14 _ _ _ _ _ fun h => keeps_storeCp14 _ _ _ h
  | ldcUnindexed | stcUnindexed => exact keeps_transferUnindexed _
  | mia | miaph | miabb | miabt | miatb | miatt => exact keeps_miaOp _ _ _ _
  | mar => exact keeps_mar _ _ _
  | mra => exact keeps_mra _ _ _
  | undefMedia | undefMsrImm => exact keeps_undefinedIf _
  | mrcCacheType => exact keeps_moveFrom _ (pure_within .refl _)
  | mrcId | mrcDacr | mrcFar | mrcPid | mrcCcnt | mrcPmn0 | mrcPmn1 | mrcTx | mrcTxrxctrl => exact keeps_moveFrom _ (readPlain_controlKept _)
  | mrcControl | mrcAuxControl | mrcTtb | mrcFsr | mrcDCacheLock | mrcCpar | mrcPmnc | mrcCclkcfg =>
    exact keeps_moveFrom _ (readFree_controlKept _ _)
  | mrcPwrmode => exact keeps_moveFrom _ (freeUnder_controlKept _ _)
  | mrcIbcr0 | mrcIbcr1 | mrcDbr0 | mrcDbr1 | mrcDbcon => exact keeps_moveFrom _ (readLocked_controlKept _)
  | mrcRx => exact keeps_moveFrom _ readRx_controlKept
  | mrcDcsr => exact keeps_moveFrom _ readDcsrReg_controlKept
  | mrcTbreg => exact keeps_moveFrom _ readTbreg_controlKept
  | mrcChkpt0 | mrcChkpt1 => exact keeps_moveFrom _ (readCheckpoint_controlKept _)
  | mcrId | mcrCacheType | mcrRx => exact keeps_moveTo _ fun _ => pure_within .refl _
  | mcrControl => exact keeps_moveTo _ writeControl_controlKept
  | mcrAuxControl => exact keeps_moveTo _ writeAuxControl_controlKept
  | mcrTtb => exact keeps_moveTo _ writeTtb_controlKept
  | mcrFsr => exact keeps_moveTo _ writeFsr_controlKept
  | mcrPid => exact keeps_moveTo _ writePid_controlKept
  | mcrDbcon => exact keeps_moveTo _ writeDbcon_controlKept
  | mcrCpar => exact keeps_moveTo _ writeCpar_controlKept
  | mcrDacr | mcrFar => exact keeps_moveTo _ fun _ => setCp15_controlKept fun _ h => h
  | mcrIbcr0 | mcrIbcr1 | mcrDbr0 | mcrDbr1 =>
    exact keeps_moveTo _ fun _ => writeLocked_controlKept (setCp15_controlKept fun _ h => h)
  | mcrInvIDCacheBtb | mcrInvICacheBtb | mcrInvICacheLine | mcrInvDCache | mcrInvDCacheLine | mcrInvBtb =>
    exact keeps_moveTo _ fun _ => modify_controlKept fun _ => ⟨rfl, rfl, id⟩
  | mcrCleanDCacheLine => exact keeps_moveTo _ cleanDLine_controlKept
  | mcrDrainWriteBuffer => exact keeps_moveTo _ fun _ => modify_controlKept controlKept_drain
  | mcrAllocateDLine => exact keeps_moveTo _ allocateDLine_controlKept
  | mcrInvIDTlb =>
    exact keeps_moveTo _ fun _ => (invalidateTlb_controlKept true).bind .trans fun _ => invalidateTlb_controlKept false
  | mcrInvITlb | mcrInvDTlb => exact keeps_moveTo _ fun _ => invalidateTlb_controlKept _
  | mcrInvITlbEntry | mcrInvDTlbEntry => exact keeps_moveTo _ (invalidateTlbEntry_controlKept _)
  | mcrLockILine => exact keeps_moveTo _ lockILine_controlKept
  | mcrUnlockICache => exact keeps_moveTo _ fun _ => unlockICache_controlKept
  | mcrDCacheLock => exact keeps_moveTo _ writeDCacheLock_controlKept
  | mcrUnlockDCache => exact keeps_moveTo _ fun _ => unlockDCache_controlKept
  | mcrLockITlbEntry | mcrLockDTlbEntry => exact keeps_moveTo _ (lockTlbEntry_controlKept _)
  | mcrUnlockITlb | mcrUnlockDTlb => exact keeps_moveTo _ fun _ => unlockTlb_controlKept _
  | mcrPmnc | mcrCcnt | mcrPmn0 | mcrPmn1 | mcrCclkcfg => exact keeps_moveTo _ fun _ => setPmu_controlKept _
  | mcrPwrmode => exact keeps_moveTo _ writePwrmode_controlKept
  | mcrTx => exact keeps_moveTo _ writeTx_controlKept
  | mcrDcsr => exact keeps_moveTo _ writeDcsrReg_controlKept
  | mcrTbreg => exact keeps_moveTo _ fun _ => spoilTrace_controlKept
  | mcrChkpt0 | mcrChkpt1 => exact keeps_moveTo _ fun _ => writeCheckpoint_controlKept _
  | mcrTxrxctrl => exact keeps_moveTo _ writeTxrxctrl_controlKept
  | tLsl1 | tLsr1 | tAsr1 | tMov1 | tAnd | tEor | tLsl2 | tLsr2 | tAsr2 | tRor | tOrr | tBic | tMvn =>
    exact keeps_thumbLogical _ _ _
  | tAdd3 | tSub3 | tAdd1 | tSub1 | tAdd2 | tSub2 | tAdc | tSbc | tNeg => exact keeps_thumbSum _ _
  | tCmp1 | tCmp2 | tCmn => exact keeps_thumbCompare _
  | tTst => exact keeps_tTst _ _
  | tMul => exact keeps_tMul _ _
  | tAdd4 | tMov3 => exact keeps_unless (keeps_thumbHigh _ _)
  | tCmp3 => exact keeps_unless (keeps_unless (keeps_thumbCompare _))
  | tAdd5 | tAdd6 | tAdd7 | tSub4 => exact keeps_thumbHigh _ _
  | tBx => exact keeps_tBx _ _
  | tBlx2 => exact keeps_tBlx2 _ _
  | tLdr3 | tLdrsb | tLdr2 | tLdrh2 | tLdrb2 | tLdrsh | tLdr1 | tLdrb1 | tLdrh1 | tLdr4 =>
    exact keeps_thumbLoad _ _ fun _ => memReadAs_works _ _ _ _
  | tStr2 | tStrh2 | tStrb2 | tStr1 | tStrb1 | tStrh1 | tStr3 => exact keeps_thumbStore _ _ _
  | tPush => exact keeps_tPush _ _
  | tPop => exact keeps_tPop _ _
  | tStmia => exact keeps_tStmia _ _
  | tLdmia => exact keeps_tLdmia _ _
  | tBkpt => exact keeps_softwareBreakpoint s
  | tSwi => exact keeps_softwareInterrupt s
  | tUndefB1 | tUndefB2 | tUndefB3 | tUndefB6 | tUndefB7 | tUndefB8 | tUndefBF | tUndefDE | tUndefE801 =>
    exact keeps_undefined (.refl s)
  | tB1Low | tB1Mid | tB1High | tB2 => exact keeps_thumbBranch _ _
  | tBlPrefix => exact keeps_tBlPrefix _
  | tBlSuffix => exact keeps_tBlSuffix _
  | tBlxSuffix => exact keeps_tBlxSuffix _

end
end Sys2Proof.Machine

namespace Sys2Proof.Machine
section

variable {s t : State}

theorem UserStays.mode (h : UserStays s t) : t.mode = s.mode :=
  congrArg (fun m => (modeOf m).getD .usr) (modeField_of_and_eq h.cpsr (by decide))

/-- A handler's mode is not User. -/
theorem LeftUser.mode_ne (h : LeftUser s t) : t.mode ≠ .usr := fun hm =>
  absurd h.vector.mode (by rw [hm]; decide)

theorem LeftUser.pc (h : LeftUser s t) :
    t.pc = s.vectorBase ∨ t.pc - s.vectorBase ∈ [0x04#32, 0x08#32, 0x0C#32, 0x10#32] :=
  (List.mem_cons.1 h.vector.pc).imp_left sub_eq_zero.1

end

/-- Settles O58: an instruction that stays in User mode changes only what a user may write, and every other one ends in
an exception, which changes of the system state only FSR and FAR. -/
theorem userIsolation : Obligations.UserIsolation := by
  intro i s t hm hd h
  have hk := (exec_keeps i s t h).user hm hd
  have hsys : SystemKept s t := hk.elim (·.same.system) (·.system)
  refine ⟨hsys.cp15, hsys.pmu, hsys.power, hsys.tx, hsys.rx, hsys.txrxctrl, hsys.dcsr, hsys.itlb, hsys.dtlb, hsys.icache,
    hsys.miniIc, hsys.acc0, fun hu => ?_, fun hne => ?_⟩
  · obtain hs | hl := hk
    · exact ⟨hs.same.cp15, hs.same.spsr, hs.cpsr, hs.same.banked⟩
    · exact absurd hu hl.mode_ne
  · obtain hs | hl := hk
    · exact absurd (hs.mode.trans hm) hne
    · exact ⟨hl.vector.maskI, hl.vector.thumb, hl.vector.mode, hl.pc⟩

end Sys2Proof.Machine

/-!
SUPPORT. The ARM decoder reads instructions of the ARM set only (30_encoding.md R284): one lemma per function of the
decoder, along its branches.
-/

namespace Sys2Proof
section

variable (c : BitVec 4) (w : Nat)

/-- Whatever the decoder read is no Thumb instruction. -/
def ArmOnly (d : Decoded) : Prop := ∀ i, d = .instr i → i.isa = .arm

theorem armOnly_instr {i : Instr} (h : i.isa = .arm) : ArmOnly (.instr i) := by
  rintro _ ⟨⟩
  exact h

theorem armOnly_reject (r : Reject) : ArmOnly (.reject r) := by rintro _ ⟨⟩

theorem armOnly_shouldBe {i : Instr} (ok : Bool) (h : i.isa = .arm) : ArmOnly (shouldBe ok i) := by
  cases ok
  · exact armOnly_reject _
  · exact armOnly_instr h

theorem armOnly_decodeDpImm : ArmOnly (decodeDpImm c w) := by
  unfold decodeDpImm
  repeat' split
  all_goals first | exact armOnly_instr rfl | exact armOnly_shouldBe _ rfl

theorem armOnly_decodeDpShift : ArmOnly (decodeDpShift c w) := by
  unfold decodeDpShift
  repeat' split
  all_goals first | exact armOnly_instr rfl | exact armOnly_shouldBe _ rfl

theorem armOnly_decodeDpReg : ArmOnly (decodeDpReg c w) := by
  unfold decodeDpReg
  repeat' split
  all_goals first | exact armOnly_instr rfl | exact armOnly_shouldBe _ rfl

theorem armOnly_decodeMisc : ArmOnly (decodeMisc c w) := by
  unfold decodeMisc
  repeat' split
  all_goals first | exact armOnly_instr rfl | exact armOnly_shouldBe _ rfl | exact armOnly_reject _

theorem armOnly_decodeDsp : ArmOnly (decodeDsp c w) := by
  unfold decodeDsp
  dsimp only
  repeat' split
  all_goals first | exact armOnly_instr rfl | exact armOnly_shouldBe _ rfl

theorem armOnly_decodeMul : ArmOnly (decodeMul c w) := by
  unfold decodeMul
  dsimp only
  repeat' split
  all_goals first | exact armOnly_instr rfl | exact armOnly_shouldBe _ rfl | exact armOnly_reject _

theorem armOnly_decodeExtra : ArmOnly (decodeExtra c w) := by
  unfold decodeExtra
  dsimp only
  repeat' split
  all_goals first | exact armOnly_instr rfl | exact armOnly_shouldBe _ rfl

theorem armOnly_decode000 : ArmOnly (decode000 c w) := by
  unfold decode000
  split
  · split
    · exact armOnly_decodeExtra c w
    · exact armOnly_decodeMul c w
  · split
    · split
      · exact armOnly_decodeDsp c w
      · exact armOnly_decodeMisc c w
    · split
      · exact armOnly_decodeDpReg c w
      · exact armOnly_decodeDpShift c w

theorem armOnly_decode001 : ArmOnly (decode001 c w) := by
  unfold decode001
  split
  · split
    · exact armOnly_shouldBe _ rfl
    · exact armOnly_instr rfl
  · exact armOnly_decodeDpImm c w

theorem armOnly_decodeLdStImm : ArmOnly (decodeLdStImm c w) := by
  unfold decodeLdStImm
  dsimp only
  repeat' split
  all_goals exact armOnly_instr rfl

theorem armOnly_decodeLdStReg : ArmOnly (decodeLdStReg c w) := by
  unfold decodeLdStReg
  dsimp only
  repeat' split
  all_goals exact armOnly_instr rfl

theorem armOnly_decodeMultiple : ArmOnly (decodeMultiple c w) := by
  unfold decodeMultiple
  dsimp only
  repeat' split
  all_goals exact armOnly_instr rfl

theorem armOnly_decode110 : ArmOnly (decode110 c w) := by
  unfold decode110
  dsimp only
  repeat' split
  all_goals first | exact armOnly_instr rfl | exact armOnly_reject _

/-! ### Register transfers -/

theorem decodeMrcCp15_isa {rd crn crm : BitVec 4} {op2 : BitVec 3} {i : Instr}
    (h : decodeMrcCp15 c rd crn crm op2 = some i) : i.isa = .arm := by
  unfold decodeMrcCp15 at h
  split at h <;> cases h <;> rfl

theorem decodeMcrCp15_isa {rd crn crm : BitVec 4} {op2 : BitVec 3} {i : Instr}
    (h : decodeMcrCp15 c rd crn crm op2 = some i) : i.isa = .arm := by
  unfold decodeMcrCp15 at h
  split at h <;> cases h <;> rfl

theorem decodeMrcCp14_isa {rd crn crm : BitVec 4} {op2 : BitVec 3} {i : Instr}
    (h : decodeMrcCp14 c rd crn crm op2 = some i) : i.isa = .arm := by
  unfold decodeMrcCp14 at h
  split at h <;> cases h <;> rfl

theorem decodeMcrCp14_isa {rd crn crm : BitVec 4} {op2 : BitVec 3} {i : Instr}
    (h : decodeMcrCp14 c rd crn crm op2 = some i) : i.isa = .arm := by
  unfold decodeMcrCp14 at h
  split at h <;> cases h <;> rfl

theorem decodeMia_isa {op3 rs rm : BitVec 4} {acc : BitVec 3} {i : Instr} (h : decodeMia c op3 rs acc rm = some i) :
    i.isa = .arm := by
  unfold decodeMia at h
  split at h <;> cases h <;> rfl

theorem specialTransfer_isa {load : Bool} {op1 op2 : BitVec 3} {crn rd cp crm : BitVec 4} {i : Instr}
    (h : specialTransfer load c op1 crn rd cp op2 crm = some i) : i.isa = .arm := by
  unfold specialTransfer at h
  split at h
  · split at h
    · split at h
      · exact decodeMrcCp15_isa c h
      · exact decodeMcrCp15_isa c h
    · cases h
  · split at h
    · split at h
      · exact decodeMrcCp14_isa c h
      · exact decodeMcrCp14_isa c h
    · cases h
  · split at h
    · exact decodeMia_isa c h
    · cases h
  · cases h

theorem armOnly_decode111 : ArmOnly (decode111 c w) := by
  unfold decode111
  dsimp only
  split
  · exact armOnly_instr rfl
  · split
    · split
      · next h => exact armOnly_instr (specialTransfer_isa c h)
      · split <;> exact armOnly_instr rfl
    · exact armOnly_instr rfl

/-! ### The whole decoder -/

theorem armOnly_decodeUncond : ArmOnly (decodeUncond w) := by
  unfold decodeUncond
  repeat' split
  all_goals first | exact armOnly_instr rfl | exact armOnly_reject _

theorem armOnly_decodeArm (v : Word) : ArmOnly (decodeArm v) := by
  unfold decodeArm decodeArmNat
  generalize v.toNat = w
  dsimp only
  split
  · exact armOnly_decodeUncond w
  · split
    · exact armOnly_decode000 _ w
    · exact armOnly_decode001 _ w
    · exact armOnly_decodeLdStImm _ w
    · split
      · exact armOnly_instr rfl
      · exact armOnly_decodeLdStReg _ w
    · exact armOnly_decodeMultiple _ w
    · split <;> exact armOnly_instr rfl
    · exact armOnly_decode110 _ w
    · exact armOnly_decode111 _ w

end
end Sys2Proof

/-! ### What a step keeps -/
namespace Sys2Proof.Machine
section

variable {isa : Isa} {s t u : State} {r : Result}

/-- The two invariants of a step: a legal mode with an aligned PC, and the fixed bits of CP15. -/
structure InvariantsKept (s t : State) : Prop where
  mode : s.modeInv → t.modeInv
  fixedBits : s.fixedBitsInv → t.fixedBitsInv

theorem InvariantsKept.trans (h : InvariantsKept s t) (h' : InvariantsKept t u) : InvariantsKept s u :=
  ⟨h'.mode ∘ h.mode, h'.fixedBits ∘ h.fixedBits⟩

theorem modeInv_congr (hcpsr : t.cpsr = s.cpsr) (hpc : t.pc = s.pc) : s.modeInv → t.modeInv := by
  unfold State.modeInv State.thumb
  rw [hcpsr, hpc]
  exact id

theorem ControlKept.invariants (h : ControlKept s t) : InvariantsKept s t := ⟨modeInv_congr h.cpsr h.pc, h.fixedBits⟩

theorem invariantsKept_takeException (e : Exception) (s : State) : InvariantsKept s (takeException e s) :=
  ⟨fun _ => modeInv_takeException e s, (systemKept_takeException e s).fixedBits⟩

theorem invariantsKept_debugEntry (s : State) (moe : BitVec 3) (link : Word) : InvariantsKept s (s.debugEntry moe link) :=
  ⟨fun _ => modeInv_debugEntry s moe link, (systemKept_debugEntry s moe link).fixedBits⟩

/-- What a part of a step answers keeps them. -/
def Preserves (s : State) (r : Result) : Prop := ∀ t, r = .next t → InvariantsKept s t

theorem preserves_next (h : InvariantsKept s t) : Preserves s (.next t) := by rintro _ ⟨⟩; exact h

theorem preserves_refused (r : Refusal) : Preserves s (.refused r) := by rintro _ ⟨⟩

theorem preserves_fault (f : Fault) : Preserves s (.fault f) := by rintro _ ⟨⟩

/-- A part of a step that only touches what the invariants do not speak of. -/
theorem preserves_of_controlKept (h : ControlKept s t) : Preserves s (.next t) := preserves_next h.invariants

theorem Preserves.after (h : InvariantsKept s t) (hr : Preserves t r) : Preserves s r := fun u hu => h.trans (hr u hu)

theorem preserves_of_keeps (h : Keeps isa s r) (hi : isa = .thumb → s.thumb = true) : Preserves s r := fun t ht =>
  ⟨(h t ht).mode hi, (h t ht).fixedBits⟩

/-! ### Before the instruction -/

theorem controlKept_beginStep (s : State) : ControlKept s s.beginStep := by
  unfold State.beginStep
  dsimp only
  split <;> exact ⟨rfl, rfl, id⟩

theorem controlKept_abortDue (s : State) : ControlKept s s.abortDue.2 := by
  unfold State.abortDue
  split
  · exact .refl s
  · split <;> exact ⟨rfl, rfl, id⟩

theorem controlKept_asyncDelay (s : State) : ControlKept s s.asyncDelay.2 := by
  unfold State.asyncDelay
  split
  · split
    · exact .refl s
    · exact controlKept_draw s
  · exact .refl s

theorem invariantsKept_takeAsync (s : State) : InvariantsKept s s.takeAsync := by
  unfold State.takeAsync
  split
  · exact invariantsKept_debugEntry s _ _
  · split
    · exact invariantsKept_takeException _ s
    · exact invariantsKept_takeException _ s

theorem invariantsKept_asyncEvents (s : State) : InvariantsKept s (asyncEvents s).1 := by
  have h := controlKept_asyncDelay s
  have wait (t : State) (w : Option Nat) : ControlKept t { t with asyncWait := w } := ⟨rfl, rfl, id⟩
  unfold asyncEvents
  split
  · next t e => rw [e] at h; exact (h.trans (wait t none)).invariants
  · next t e => rw [e] at h; exact (h.trans (wait t none)).invariants.trans (invariantsKept_takeAsync _)
  · next n t e => rw [e] at h; exact (h.trans (wait t (some n))).invariants

theorem controlKept_holdBreak (s : State) : ControlKept s s.holdBreak := ⟨rfl, rfl, id⟩

theorem controlKept_flowTo (s : State) (f : Flow) : ControlKept s (s.flowTo f) := ⟨rfl, rfl, id⟩

theorem invariantsKept_haltEntry (s : State) (moe : BitVec 3) (link : Word) : InvariantsKept s (s.haltEntry moe link) :=
  ⟨fun _ => modeInv_of_atVector (atVector_haltEntry s moe link) (by simp), (systemKept_haltEntry s moe link).fixedBits⟩

theorem invariantsKept_boundary (s : State) : InvariantsKept s (boundary s).1 := by
  have hb := controlKept_holdBreak s
  have ha := hb.trans (controlKept_abortDue s.holdBreak)
  unfold boundary
  dsimp only
  split
  · have hr : ControlKept s { s.holdBreak with dbgUnit := { s.holdBreak.dbgUnit with resetTrap := false } } :=
      hb.trans ⟨rfl, rfl, id⟩
    exact hr.invariants.trans (invariantsKept_haltEntry _ _ _)
  · split
    · next code t e =>
      rw [e] at ha
      split
      · exact ((ha.trans (controlKept_stickyAbort t code none none)).trans (controlKept_flowTo _ _)).invariants
      · exact ha.invariants.trans (invariantsKept_takeException _ t)
    · next t e =>
      rw [e] at ha
      split
      · exact ha.invariants.trans (invariantsKept_debugEntry t _ _)
      · exact ha.invariants.trans (invariantsKept_asyncEvents t)

/-! ### After the instruction -/

theorem controlKept_traceFlow (s : State) : ControlKept s s.traceFlow := by
  unfold State.traceFlow
  split
  · exact (untouched_traceInstr s).control
  · exact (untouched_traceDirect s _).control
  · exact (untouched_traceIndirect s _).control
  · exact .refl s
  · exact .refl s

theorem controlKept_countEvent (n : Tally) (c : Word) (s : State) : ControlKept s (countEvent n c s).2.2 := by
  cases n with
  | exactly n => exact .refl s
  | atLeastZero => exact controlKept_draw s
  | anything => exact (controlKept_draw s).trans (controlKept_draw _)

theorem controlKept_countStep (s : State) (executed sameMode : Bool) : ControlKept s (s.countStep executed sameMode) := by
  unfold State.countStep
  split
  · exact ((controlKept_countEvent _ _ s).trans (controlKept_countEvent _ _ _)).trans ⟨rfl, rfl, id⟩
  · exact .refl s

theorem invariantsKept_dataBreakEntry (s : State) : InvariantsKept s s.dataBreakEntry := by
  unfold State.dataBreakEntry
  split
  · exact invariantsKept_debugEntry s _ _
  · exact (ControlKept.refl s).invariants

theorem controlKept_scrambleR13Dbg (s : State) (was : Bool) : ControlKept s (s.scrambleR13Dbg was) := by
  unfold State.scrambleR13Dbg
  split
  · exact ⟨rfl, rfl, id⟩
  · exact .refl s

theorem invariantsKept_endStep (s : State) (executed : Bool) (t : State) : InvariantsKept t (endStep s executed t) := by
  have traced : ControlKept t (if s.tracing then t.traceFlow else t) := by
    split
    · exact controlKept_traceFlow t
    · exact .refl t
  have counted (u : State) (b : Bool) : ControlKept u (if s.pmu.pmnc.getLsbD 0 then u.countStep executed b else u) := by
    split
    · exact controlKept_countStep u executed b
    · exact .refl u
  exact ((traced.trans (counted _ _)).invariants.trans (invariantsKept_dataBreakEntry _)).trans
    (controlKept_scrambleR13Dbg _ _).invariants

theorem preserves_endInstr (h : Preserves t r) : Preserves t (endInstr s r) := by
  intro u hu
  unfold endInstr at hu
  split at hu
  · next t' =>
    split at hu
    · cases hu
    · cases hu
      exact (h t' rfl).trans (invariantsKept_endStep s true t')
  · cases hu
  · cases hu

theorem preserves_endEntry (h : Preserves t r) : Preserves t (endEntry s r) := by
  intro u hu
  unfold endEntry at hu
  split at hu
  · next t' =>
    cases hu
    have hb : ControlKept t' { t' with bankHazard := false } := ⟨rfl, rfl, id⟩
    exact ((h t' rfl).trans hb.invariants).trans (invariantsKept_endStep s false _)
  · cases hu
  · cases hu

/-! ### A step of the core -/

theorem preserves_rejectWord (s : State) (w : Word) (r : Reject) : Preserves s (rejectWord s w r) := by
  refine preserves_of_keeps (isa := .arm) ?_ nofun
  unfold rejectWord
  split
  · split
    · exact keeps_refused _
    · exact keeps_refused _
    · exact keeps_undefined (.refl s)
  · exact keeps_skip (.refl s)

theorem preserves_fetchFailed (e : Trap) (s : State) : Preserves s (fetchFailed e s) := by
  unfold fetchFailed
  split
  · split
    · exact preserves_fault _
    · exact preserves_next (invariantsKept_takeException _ s)
  · exact preserves_of_keeps (isa := .arm) (keeps_endTrap (.refl s) _) nofun

/-- A Thumb instruction is decoded in Thumb state only (10_state.md R27). -/
theorem thumb_of_decodeFetched {w : Word} {i : Instr} (h : s.decodeFetched w = .instr i) (hi : i.isa = .thumb) :
    s.thumb = true := by
  unfold State.decodeFetched at h
  split at h
  · next hT => exact hT
  · exact absurd ((armOnly_decodeArm w i h).symm.trans hi) (by decide)

theorem preserves_runFetched (s : State) : Preserves s (runFetched s) := by
  have clear (t : State) : ControlKept t { t with bankHazard := false } := ⟨rfl, rfl, id⟩
  unfold runFetched
  split
  · next e t hf =>
    exact preserves_endEntry (.after (controlKept_fetch_error hf).invariants (preserves_fetchFailed e t))
  · next w t hf =>
    have ht := ((controlKept_fetch_ok hf).trans (clear t)).invariants
    split
    · split
      · exact preserves_fault _
      · exact preserves_endInstr (.after ht (preserves_rejectWord _ w _))
    · next i hd =>
      split
      · exact preserves_fault _
      · split
        · exact preserves_refused _
        · exact preserves_endInstr (.after ht (preserves_of_keeps (exec_keeps i _) (thumb_of_decodeFetched hd)))

theorem preserves_runCore (s : State) : Preserves s (runCore s) := by
  have h := (controlKept_beginStep s).invariants.trans (invariantsKept_boundary s.beginStep)
  unfold runCore
  split
  · next t e => rw [e] at h; exact preserves_endEntry (preserves_next h)
  · next t e =>
    rw [e] at h
    split
    · exact preserves_fault _
    · split
      · exact preserves_endEntry (preserves_next (h.trans (invariantsKept_debugEntry t _ _)))
      · exact .after h (preserves_runFetched t)

theorem preserves_coreTurn (s : State) : Preserves s (coreTurn s) := by
  unfold coreTurn
  split
  · exact preserves_of_controlKept (.refl s)
  · split
    · exact preserves_of_controlKept (.refl s)
    · split
      · exact preserves_of_controlKept ⟨rfl, rfl, id⟩
      · exact preserves_of_controlKept (.refl s)
    · exact preserves_runCore s

/-! ### Resets -/

/-- At reset the mode is Supervisor, the state ARM and the PC 0 (70_reset_and_hazards.md R941). -/
theorem modeInv_processorReset (s : State) : s.processorReset.modeInv := by
  have hmode : s.processorReset.cpsr.extractLsb' 0 5 = 0b10011#5 := BitVec.extractLsb'_append_eq_of_add_le (by decide)
  have hthumb : s.processorReset.thumb = false := BitVec.getLsbD_append
  refine ⟨by rw [hmode]; rfl, ?_⟩
  rw [hthumb]
  rfl

theorem invariantsKept_processorReset (s : State) : InvariantsKept s s.processorReset := by
  refine ⟨fun _ => modeInv_processorReset s, ?_⟩
  rintro ⟨-, -, httb, hfsr, -, -, -⟩
  obtain ⟨hcontrol, haux, -, -, hpid, hdbcon, hcpar⟩ := reset_fixedBitsInv
  exact ⟨hcontrol, haux, httb, hfsr, hpid, hdbcon, hcpar⟩

theorem invariantsKept_updateReset (s : State) : InvariantsKept s s.updateReset := by
  have h := invariantsKept_processorReset s
  unfold State.updateReset
  split
  · exact h.trans (ControlKept.invariants ⟨rfl, rfl, id⟩)
  · split
    · exact h.trans (ControlKept.invariants ⟨rfl, rfl, id⟩)
    · exact (ControlKept.refl s).invariants

theorem controlKept_lowPower (s : State) (m : PowerMode) : ControlKept s (s.lowPower m) := ⟨rfl, rfl, id⟩

/-- A JTAG reset touches the test port and the debug unit, then what is held in reset. -/
theorem jtagReset_eq_updateReset (s : State) : ∃ t, s.jtagReset = t.updateReset ∧ ControlKept s t :=
  ⟨_, rfl, ⟨rfl, rfl, id⟩⟩

theorem invariantsKept_jtagReset (s : State) : InvariantsKept s s.jtagReset := by
  obtain ⟨t, hreset, hkept⟩ := jtagReset_eq_updateReset s
  rw [hreset]
  exact hkept.invariants.trans (invariantsKept_updateReset t)

theorem invariantsKept_updatePins (s : State) : InvariantsKept s s.updatePins := by
  unfold State.updatePins
  split
  · split
    · exact (ControlKept.refl s).invariants
    · exact (controlKept_lowPower s .sleep).invariants
  · split
    · split
      · exact invariantsKept_jtagReset s
      · exact (ControlKept.refl s).invariants
    · exact invariantsKept_updateReset s

/-! ### The debugger and the test port -/

theorem controlKept_setLink (s : State) (n : Nat) (b : Bool) : ControlKept s (s.setLink n b) := ⟨rfl, rfl, id⟩

theorem controlKept_hostRx (s : State) (data : Word) : ControlKept s (s.hostRx data) := by
  unfold State.hostRx
  dsimp only
  split <;> exact ⟨rfl, rfl, id⟩

theorem invariantsKept_hostDcsr (s : State) (v : Word) (brk hold : Bool) : InvariantsKept s (s.hostDcsr v brk hold) :=
  InvariantsKept.trans (t := { s with dbgUnit := { s.dbgUnit with
      dcsr := (s.dbgUnit.dcsr &&& ~~~0x40DF0000#32) ||| (v &&& 0x40DF0000#32),
      extBreak := s.dbgUnit.extBreak || brk, holdRst := hold } })
    (ControlKept.invariants ⟨rfl, rfl, id⟩) (invariantsKept_updateReset _)

theorem preserves_ldicApply (s : State) (f : LdicFunction) (va : Word) (words : List Word) (bad : BitVec 8) :
    Preserves s (ldicApply s f va words bad) := by
  unfold ldicApply
  dsimp only
  split
  · exact preserves_of_controlKept ⟨rfl, rfl, id⟩
  · exact preserves_of_controlKept ⟨rfl, rfl, id⟩
  · split
    · exact preserves_refused _
    · exact preserves_of_controlKept ⟨rfl, rfl, id⟩
  · split
    · exact preserves_refused _
    · exact preserves_of_controlKept ⟨rfl, rfl, id⟩

/-- Only the test port differs. -/
theorem controlKept_jtag (s : State) (j : Jtag) : ControlKept s { s with jtag := j } := ⟨rfl, rfl, id⟩

theorem controlKept_tdoTo (s : State) (b : Bool) : ControlKept s (s.tdoTo b) := ⟨rfl, rfl, id⟩

theorem controlKept_captureDebug (s : State) : ControlKept s s.captureDebug := by
  unfold State.captureDebug
  dsimp only
  split
  · exact ⟨rfl, rfl, id⟩
  · split
    · split <;> exact ⟨rfl, rfl, id⟩
    · exact ⟨rfl, rfl, id⟩

theorem controlKept_captureDr (s : State) : ControlKept s s.captureDr := by
  unfold State.captureDr
  split
  · exact controlKept_captureDebug s
  · exact ⟨rfl, rfl, id⟩
  · exact controlKept_jtag s _
  · exact ⟨rfl, rfl, id⟩
  · exact controlKept_jtag s _
  · exact .refl s

theorem controlKept_shiftDr (s : State) (tdi : Bool) : ControlKept s (s.shiftDr tdi) := by
  have shift (j : Jtag) (b : Bool) : ControlKept s (State.tdoTo { s with jtag := j } b) :=
    (controlKept_jtag s j).trans (controlKept_tdoTo _ b)
  unfold State.shiftDr
  dsimp only
  split
  · exact shift _ _
  · exact shift _ _
  · exact shift _ _
  · split
    · exact controlKept_tdoTo s _
    · exact shift _ _
  · exact shift _ _
  · exact .refl s

theorem invariantsKept_updateDebug (s : State) : InvariantsKept s s.updateDebug := by
  have hj := controlKept_jtag s { s.jtag with dbgReg := s.jtag.dbgSr.extractLsb' 1 35 }
  unfold State.updateDebug
  dsimp only
  generalize ({ s with jtag := { s.jtag with dbgReg := s.jtag.dbgSr.extractLsb' 1 35 } } : State) = t at hj ⊢
  split
  · exact hj.invariants.trans (invariantsKept_hostDcsr t _ _ _)
  · refine ControlKept.invariants ?_
    split
    · split
      · exact hj.trans (controlKept_setLink t _ _)
      · exact hj
    · generalize (if Config.flushIsBit1 then _ else _ : Bool) = flush
      generalize (if Config.flushIsBit1 then _ else _ : Bool) = d
      have hd := hj.trans (controlKept_setLink t 29 d)
      have hf : ControlKept s (if flush then (t.setLink 29 d).setLink 31 false else t.setLink 29 d) := by
        split
        · exact hd.trans (controlKept_setLink _ _ _)
        · exact hd
      split
      · exact (hf.trans (controlKept_hostRx _ _)).trans (controlKept_jtag _ _)
      · exact hf

theorem preserves_updateLdic (s : State) : Preserves s s.updateLdic := by
  have load (j : Jtag) (f : LdicFunction) (va : Word) (words : List Word) (bad : BitVec 8) :
      Preserves s (ldicApply { s with jtag := j } f va words bad) :=
    .after (controlKept_jtag s j).invariants (preserves_ldicApply _ f va words bad)
  have hold (j : Jtag) : Preserves s (.next { s with jtag := j }) := preserves_of_controlKept (controlKept_jtag s j)
  unfold State.updateLdic
  dsimp only
  split
  · exact preserves_refused _
  · split
    · exact preserves_of_controlKept (.refl s)
    · split
      · exact load _ _ _ _ _
      · exact load _ _ _ _ _
      · split
        · exact hold _
        · exact load _ _ _ _ _
      · split
        · exact hold _
        · exact load _ _ _ _ _
      · exact preserves_refused _

theorem preserves_latchIr (s : State) (ir : BitVec 5) : Preserves s (s.latchIr ir) := by
  unfold State.latchIr
  split
  · exact preserves_refused _
  · exact preserves_of_controlKept (controlKept_jtag s _)

theorem preserves_updateDr (s : State) : Preserves s s.updateDr := by
  have same : Preserves s (.next s) := preserves_of_controlKept (.refl s)
  unfold State.updateDr
  split
  · exact preserves_next (invariantsKept_updateDebug s)
  · exact preserves_updateLdic s
  · exact preserves_of_controlKept (controlKept_jtag s _)
  · exact same
  · exact same
  · exact same

theorem preserves_assertTrst (s : State) : Preserves s s.assertTrst := by
  unfold State.assertTrst
  split
  · exact preserves_refused _
  · exact preserves_next (invariantsKept_jtagReset s)

theorem preserves_tckEdge (s : State) (tms tdi : Bool) : Preserves s (tckEdge s tms tdi) := by
  have entered (tap : TapState) (ir : BitVec 5) {t : State} (h : ControlKept s t) : Preserves s
      (match tap with
      | .testLogicReset => t.latchIr 0b11110#5
      | .updateDr => t.updateDr
      | .updateIr => t.latchIr ir
      | _ => .next t) := by
    split
    · exact .after h.invariants (preserves_latchIr t _)
    · exact .after h.invariants (preserves_updateDr t)
    · exact .after h.invariants (preserves_latchIr t _)
    · exact preserves_of_controlKept h
  have h0 := controlKept_jtag s { s.jtag with tdo := none, ldicDrain := s.jtag.ldicDrain - 1 }
  unfold tckEdge
  dsimp only
  split
  · exact entered _ _ ((h0.trans (controlKept_captureDr _)).trans (controlKept_jtag _ _))
  · exact entered _ _ ((h0.trans (controlKept_shiftDr _ _)).trans (controlKept_jtag _ _))
  · exact entered _ _ (controlKept_jtag s _)
  · exact entered _ _ (controlKept_jtag s _)
  · exact entered _ _ (controlKept_jtag s _)

/-! ### Outside events -/

/-- A fetch ahead of the PC puts the PC back (20_memory.md R153). -/
theorem controlKept_fetchAhead (s : State) (n : Nat) : ControlKept s (s.fetchAhead n) := by
  have back {t : State} (h : ControlKept { s with pc := s.fetchPath n, scratch := Scratch.clear } t) :
      ControlKept s { t.countStep false true with pc := s.pc, scratch := s.scratch } :=
    have ht := h.trans (controlKept_countStep t false true)
    ⟨ht.cpsr, rfl, ht.fixedBits⟩
  unfold State.fetchAhead
  dsimp only
  split
  · exact .refl s
  · split
    · next hf => exact back (controlKept_fetch_ok hf)
    · next hf => exact back (controlKept_fetch_error hf)
    · exact .refl s

theorem controlKept_reply (s : State) (f : Bool) (v : Word) : ControlKept s (s.reply f v) := ⟨rfl, rfl, id⟩

theorem preserves_outsideEvent (op : HostOp) (s : State) : Preserves s (outsideEvent op s) := by
  unfold outsideEvent
  split
  · exact preserves_of_controlKept (.refl s)
  · cases op with
    | resetPin a =>
      exact preserves_next (InvariantsKept.trans (t := { s with resetPin := a }) (ControlKept.invariants ⟨rfl, rfl, id⟩)
        (invariantsKept_updatePins _))
    | faultPins batt vdd =>
      exact preserves_next (InvariantsKept.trans (t := { s with battFault := batt, vddFault := vdd })
        (ControlKept.invariants ⟨rfl, rfl, id⟩) (invariantsKept_updatePins _))
    | trst => exact preserves_assertTrst s
    | trstPin a =>
      have h : ControlKept s { s with trstPin := a } := ⟨rfl, rfl, id⟩
      dsimp only
      split
      · exact .after h.invariants (preserves_assertTrst _)
      · exact preserves_of_controlKept h
    | lines | wake | masterBetween | deviceReply | flipInstrParity => exact preserves_of_controlKept ⟨rfl, rfl, id⟩
    | masterWrite pa bytes => exact preserves_of_controlKept (controlKept_masterWrite s pa bytes)
    | fetchAhead n => exact preserves_of_controlKept (controlKept_fetchAhead s n)
    | flipDataParity mva =>
      dsimp only
      split
      · exact preserves_of_controlKept (controlKept_setDLine s _ _ _)
      · exact preserves_of_controlKept (.refl s)
    | readDcsr => exact preserves_of_controlKept ((controlKept_draw s).trans (controlKept_reply _ _ _))
    | writeDcsr v brk hold => exact preserves_next (invariantsKept_hostDcsr s v brk hold)
    | readTx => exact preserves_of_controlKept ((controlKept_setLink s _ _).trans (controlKept_reply _ _ _))
    | pollRr | idcode => exact preserves_of_controlKept (controlKept_reply s _ _)
    | writeRx data d => exact preserves_of_controlKept ((controlKept_setLink s 29 d).trans (controlKept_hostRx _ data))
    | setD | flushRx => exact preserves_of_controlKept (controlKept_setLink s _ _)
    | ldic f va words bad => exact preserves_ldicApply s f va words bad
    | tck tms tdi => exact preserves_tckEdge s tms tdi

/-! ### A step -/

theorem step_preserves (s : State) : Preserves s (step s) := by
  have turn : ControlKept s s.takeTurn := ⟨rfl, rfl, id⟩
  unfold step
  split
  · exact .after turn.invariants (preserves_outsideEvent _ _)
  · exact .after turn.invariants (preserves_coreTurn _)
  · exact preserves_coreTurn s

end

/-- Settles O56: every part of a step keeps a legal mode and an aligned PC (`step_preserves`). -/
theorem stepKeepsMode : Obligations.StepKeepsMode := fun s t hs h => (step_preserves s t h).mode hs

/-- Settles O57: every part of a step keeps the fixed bits of the CP15 registers (`step_preserves`). -/
theorem stepKeepsFixedBits : Obligations.StepKeepsFixedBits := fun s t hs h => (step_preserves s t h).fixedBits hs

end Sys2Proof.Machine

/-!
SUPPORT. Which parts of a step keep memory in its canonical form and the write buffer within its eight entries
(20_memory.md R120, R142): a relation between the state before and after, and for each computation one lemma that it stays
within it. What a data access may change (`DataOnly`) includes it.
-/

namespace Sys2Proof.Machine
section

variable {α β : Type} {s t u : State}

/-! ### The relation -/

/-- The invariant of memory and the write buffer carries over. An update that touches neither field keeps it as it stands:
the two statements are then the same by reduction, and the proof is `⟨id⟩`. -/
structure MemoryKept (s t : State) : Prop where
  inv : s.memoryInv → t.memoryInv

theorem MemoryKept.refl (s : State) : MemoryKept s s := ⟨id⟩

theorem MemoryKept.trans (h : MemoryKept s t) (h' : MemoryKept t u) : MemoryKept s u := ⟨h'.inv ∘ h.inv⟩

theorem MemoryKept.of_eq (hmem : t.mem = s.mem) (hbuffer : t.writeBuffer = s.writeBuffer) : MemoryKept s t := by
  refine ⟨fun h => ?_⟩
  unfold State.memoryInv at *
  rw [hmem, hbuffer]
  exact h

theorem RestKept.memory (h : RestKept s t) : MemoryKept s t := .of_eq h.mem h.writeBuffer

theorem DataOnly.memory (h : DataOnly s t) : MemoryKept s t := ⟨h.inv⟩

/-- A computation within a relation stays within every weaker one. -/
theorem Within.mono {R R' : State → State → Prop} (hr : ∀ {s t}, R s t → R' s t) {x : Exec α} (hx : Within R x) :
    Within R' x := by
  intro s
  have hx := hx s
  unfold At at *
  split <;> (next e => rw [e] at hx; exact hr hx)

theorem Within.memory {x : Exec α} (hx : Within DataOnly x) : Within MemoryKept x := hx.mono DataOnly.memory

/-! ### Registers -/

theorem MemoryKept.setReg (h : MemoryKept s t) (r : RegNum) (v : Word) : MemoryKept s (t.setReg r v) :=
  h.trans (restKept_setReg t r v).memory

theorem MemoryKept.updateBase (h : MemoryKept s t) (rn : RegNum) (ad : Address) : MemoryKept s (t.updateBase rn ad) := by
  unfold State.updateBase
  split
  · exact h.setReg rn ad.wb
  · exact h

theorem MemoryKept.setMoved (h : MemoryKept s t) (rd : RegNum) (v : Word) : MemoryKept s (t.setMoved rd v) := by
  unfold State.setMoved
  split
  · exact ⟨h.inv⟩
  · exact h.setReg rd v

theorem MemoryKept.setRegs (h : MemoryKept s t) (vs : List (RegNum × Word)) : MemoryKept s (t.setRegs vs) :=
  List.foldlRecOn (motive := MemoryKept s) _ _ h fun _ ht p _ => ht.setReg p.1 p.2

theorem MemoryKept.setBankRegs (h : MemoryKept s t) (m : Mode) (vs : List (RegNum × Word)) :
    MemoryKept s (vs.foldl (fun t p => t.setBankReg m p.1 p.2) t) :=
  List.foldlRecOn (motive := MemoryKept s) _ _ h fun _ ht _ _ => ⟨ht.inv⟩

theorem memoryKept_setSpsr (s : State) (m : Mode) (v : Word) : MemoryKept s (s.setSpsr m v) :=
  .of_eq (by simp) (by simp)

theorem memoryKept_dpBegin (s : State) (op2 : Op2) : MemoryKept s (s.dpBegin op2) :=
  (frame_dpBegin (rs := []) s op2).2.2.memory

theorem memoryKept_btbUpdate (s : State) (target : Word) (taken : Bool) (suffix : Option (BitVec 11)) :
    MemoryKept s (s.btbUpdate target taken suffix) := by
  unfold State.btbUpdate
  dsimp only
  split
  · split
    · split
      · exact ⟨id⟩
      · split <;> exact ⟨id⟩
    · split <;> exact ⟨id⟩
  · exact .refl s

/-! ### Buffers, lines and translations -/

/-- Entries that leave the write buffer reach memory in its canonical form (20_memory.md R142). -/
theorem memoryKept_retire (s : State) (n : Nat) : MemoryKept s (s.retire n) :=
  ⟨fun h => ⟨retire_wf h.1 n, (List.length_drop ▸ Nat.sub_le ..).trans h.2⟩⟩

theorem memoryKept_setTlb (s : State) (i : Bool) (b : Tlb) : MemoryKept s (s.setTlb i b) := by
  unfold State.setTlb
  split <;> exact ⟨id⟩

theorem findEntry_memoryKept (instr : Bool) (mva : Word) : Within MemoryKept (findEntry instr mva) := by
  refine within_get_bind fun s => ?_
  split
  · exact at_pure _ (.refl s)
  · refine at_set_bind (at_bind ((walk_dataOnly mva).memory.at .trans (dataOnly_noteTlbMiss s instr).memory) fun e t h => ?_)
    exact at_modify_bind (at_pure _ (h.trans (memoryKept_setTlb t instr _)))

theorem translate_memoryKept (instr : Bool) (mva : Word) (priv write : Bool) :
    Within MemoryKept (translate instr mva priv write) :=
  (findEntry_memoryKept instr mva).bind .trans fun _ => within_get_bind fun s =>
    (ofExcept_within .refl _).bind .trans (fun _ => pure_within .refl _) s

/-! ### Fetch -/

theorem fetchPlace_memoryKept : Within MemoryKept fetchPlace := by
  refine within_get_bind fun s => ?_
  dsimp only
  split
  · exact at_bind (translate_memoryKept _ _ _ _ s) fun _ _ h => at_pure _ h
  · exact at_pure _ (.refl s)

theorem heldWord_memoryKept (paLine : BitVec 27) (pa held : Word) : Within MemoryKept (heldWord paLine pa held) := by
  have one (ws : List Word) : Within MemoryKept (oneOf held ws) := by
    intro s
    unfold At oneOf
    cases ws.all (· == held) <;> exact ⟨id⟩
  intro s
  unfold At heldWord
  cases paLine != pa.extractLsb' 5 27 || (s.regionAt (lineBase pa) 32).isSome
  · exact one _ s
  · exact .refl s

theorem memoryKept_readILine {pa : Word} {words : List Word} (h : s.readILine pa = some (words, t)) :
    MemoryKept s t := by
  unfold State.readILine at h
  split at h
  · cases h; exact .refl s
  · cases h; exact (dataOnly_deviceRead s _ _).memory
  · cases h

theorem fetchWord_memoryKept (mva pa : Word) (cacheable : Bool) : Within MemoryKept (fetchWord mva pa cacheable) := by
  have hit (l : ILine) : Within MemoryKept (match l.word mva with
      | some w => if l.downloaded then pure w else heldWord l.paLine pa w
      | none => fun s => .error (.prefetchAbort 0b11000#5) s) := by
    split
    · split
      · exact pure_within .refl _
      · exact heldWord_memoryKept _ _ _
    · exact fun s => .refl s
  refine within_get_bind fun s => ?_
  dsimp only
  split
  · exact hit _ s
  · split
    · exact heldWord_memoryKept _ _ _ s
    · split
      · exact hit _ s
      · have hmiss : MemoryKept s s.noteIMiss := ⟨id⟩
        split
        · exact hmiss
        · next words s1 hread =>
          have hs1 : MemoryKept s s1 := hmiss.trans (memoryKept_readILine hread)
          have word {t : State} (ht : MemoryKept s t) : At MemoryKept s t
              (if s.isModified pa then heldWord (pa.extractLsb' 5 27) pa (words.getD (offsetOf mva / 4) 0#32)
              else pure (words.getD (offsetOf mva / 4) 0#32)) := by
            split
            · exact (heldWord_memoryKept _ _ _).at .trans ht
            · exact at_pure _ ht
          split <;> exact at_set_bind (word ⟨hs1.inv⟩)

/-- The word at the place the PC names. -/
theorem fetchAtPlace_memoryKept : Within MemoryKept (fetchPlace >>= fun p => fetchWord p.1 p.2.1 p.2.2) :=
  fetchPlace_memoryKept.bind .trans fun p => fetchWord_memoryKept p.1 p.2.1 p.2.2

/-- A fetch is this access, and only renames what it fails with. -/
theorem memoryKept_fetch (s : State) :
    (∀ w t, fetch s = .ok w t → MemoryKept s t) ∧ ∀ e t, fetch s = .error e t → MemoryKept s t := by
  have hx := fetchAtPlace_memoryKept s
  have hfetch : fetch s = match (fetchPlace >>= fun p => fetchWord p.1 p.2.1 p.2.2) s with
    | .ok w s1 => .ok w s1
    | .error t s1 => .error (fetchTrap t) s1 := rfl
  rw [hfetch]
  unfold At at hx
  generalize (fetchPlace >>= fun p => fetchWord p.1 p.2.1 p.2.2) s = r at hx
  cases r with
  | ok w t => exact ⟨fun _ _ h => (by cases h; exact hx), fun _ _ h => (by cases h)⟩
  | error e t => exact ⟨fun _ _ h => (by cases h), fun _ _ h => by cases h; exact hx⟩

/-! ### Registers and functions of CP15 -/

theorem drawWord_memoryKept : Within MemoryKept drawWord := drawWord_dataOnly.memory

theorem freeUnder_memoryKept (mask v : Word) : Within MemoryKept (freeUnder mask v) :=
  drawWord_memoryKept.bind .trans fun _ => pure_within .refl _

/-- A read of a register that reads as it is. -/
theorem readPlain_memoryKept (f : State → Word) : Within MemoryKept (do let s ← get; pure (f s)) :=
  within_get_bind fun s => at_pure _ (.refl s)

/-- A read of a register some of whose bits are free. -/
theorem readFree_memoryKept (mask : Word) (f : State → Word) :
    Within MemoryKept (do let s ← get; freeUnder mask (f s)) :=
  within_get_bind fun s => freeUnder_memoryKept _ _ s

theorem readLocked_memoryKept (f : State → Word) : Within MemoryKept (readLocked f) := by
  refine within_get_bind fun s => ?_
  split
  · exact drawWord_memoryKept s
  · exact at_pure _ (.refl s)

theorem writeLocked_memoryKept {x : Exec Unit} (hx : Within MemoryKept x) : Within MemoryKept (writeLocked x) := by
  refine within_get_bind fun s => ?_
  split
  · exact at_pure _ (.refl s)
  · exact hx s

theorem setCp15_memoryKept (f : Cp15 → Cp15) : Within MemoryKept (setCp15 f) := modify_within fun _ => ⟨id⟩

theorem setPmu_memoryKept (f : Pmu → Pmu) : Within MemoryKept (setPmu f) := modify_within fun _ => ⟨id⟩

theorem setDebug_memoryKept (f : Debug → Debug) : Within MemoryKept (setDebug f) := modify_within fun _ => ⟨id⟩

/-- A write that is refused for some values. -/
theorem refuseIf_memoryKept {p : Prop} [Decidable p] (r : Refusal) {x : Exec Unit} (hx : Within MemoryKept x) :
    Within MemoryKept (if p then refuseWith r else x) := by
  split
  · exact refuse_within .refl r
  · exact hx

/-- A function that is refused where its unit is off. -/
theorem whereOn_memoryKept (on : State → Bool) {f : State → State} (hf : ∀ s, MemoryKept s (f s)) (r : Refusal) :
    Within MemoryKept (do let s ← get; if on s then set (f s) else refuseWith r) := by
  refine within_get_bind fun s => ?_
  split
  · exact at_set (hf s)
  · exact at_refuse _ (.refl s)

theorem translateOnly_memoryKept (instr : Bool) (mva : Word) : Within MemoryKept (translateOnly instr mva) := by
  refine within_get_bind fun s => ?_
  split
  · exact (findEntry_memoryKept instr mva).bind .trans (fun _ => pure_within .refl _) s
  · exact at_pure _ (.refl s)

theorem drawBytes_memoryKept (n : Nat) : Within MemoryKept (drawBytes n) := by
  induction n with
  | zero => exact pure_within .refl _
  | succ n ih =>
    exact drawWord_memoryKept.bind .trans fun _ => ih.bind .trans fun _ => pure_within .refl _

theorem onAbort_memoryKept {x : Exec α} (hx : Within MemoryKept x) (e : Trap) : Within MemoryKept (onAbort x e) := by
  intro s
  unfold At onAbort
  cases h : x s with
  | ok a t => exact hx.ok h
  | error r t => cases r <;> exact hx.error h

theorem onTranslationFault_memoryKept {x : Exec α} (hx : Within MemoryKept x) (e : Trap) :
    Within MemoryKept (onTranslationFault x e) := by
  intro s
  unfold At onTranslationFault
  cases h : x s with
  | ok a t => exact hx.ok h
  | error r t => cases r <;> exact hx.error h

theorem ignoreAbortInSds_memoryKept {x y : Exec α} (hx : Within MemoryKept x) (hy : Within MemoryKept y) :
    Within MemoryKept (ignoreAbortInSds x y) :=
  ignoreAbortInSds_within .trans (fun t code domain far hs => (dataOnly_reportFault_sds t code domain far hs).memory) hx hy

theorem allocateDLine_memoryKept (v : Word) : Within MemoryKept (allocateDLine v) := by
  have fill (m : Word) : Within MemoryKept (do
      let pa ← onTranslationFault (translateOnly false m) (.refuse .lockFunction)
      let bs ← drawBytes 8
      allocateLine false m pa bs) :=
    (onTranslationFault_memoryKept (translateOnly_memoryKept false m) _).bind .trans fun _ =>
      (drawBytes_memoryKept 8).bind .trans fun _ => (allocateLine_dataOnly _ _ _ _).memory
  intro s
  refine at_modify_bind (at_get_bind ?_)
  have h := (dataOnly_drain s).memory
  dsimp only
  split
  · exact at_pure _ h
  · exact (ignoreAbortInSds_memoryKept (fill _) (pure_within .refl _)).at .trans h

theorem locking_memoryKept {x : Exec Unit} (hx : Within MemoryKept x) : Within MemoryKept (locking x) :=
  ignoreAbortInSds_memoryKept (onAbort_memoryKept hx _) (pure_within .refl _)

theorem lockPlace_memoryKept (m : Word) : Within MemoryKept (lockPlace m) := by
  refine within_get_bind fun s => at_bind (translate_memoryKept _ _ _ _ s) fun p t h => ?_
  dsimp only
  split
  · exact at_pure _ h
  · exact at_refuse _ h

theorem lockILine_memoryKept (v : Word) : Within MemoryKept (lockILine v) := by
  refine within_get_bind fun s => ?_
  dsimp only
  split
  · exact at_refuse _ (.refl s)
  · refine locking_memoryKept ((lockPlace_memoryKept _).bind .trans fun pa => within_get_bind fun s => ?_) s
    split
    · exact MemoryKept.refl s
    · next h => exact at_set ⟨(memoryKept_readILine h).inv⟩

theorem writeDCacheLock_memoryKept (v : Word) : Within MemoryKept (writeDCacheLock v) := by
  refine within_get_bind fun s => ?_
  split
  · exact setCp15_memoryKept _ s
  · exact at_refuse _ (.refl s)

theorem lockTlbEntry_memoryKept (instr : Bool) (mva : Word) : Within MemoryKept (lockTlbEntry instr mva) := by
  refine within_get_bind fun s => ?_
  split
  · exact at_refuse _ (.refl s)
  · exact locking_memoryKept ((walk_dataOnly mva).memory.bind .trans fun _ =>
      modify_within fun s => memoryKept_setTlb s instr _) s

/-! ### Registers of CP14 -/

theorem writePwrmode_memoryKept (v : Word) : Within MemoryKept (writePwrmode v) := by
  unfold writePwrmode
  split
  · exact pure_within .refl _
  · exact modify_within fun _ => ⟨id⟩
  · exact refuse_within .refl _
  · exact modify_within fun _ => ⟨id⟩

theorem writeTx_memoryKept (v : Word) : Within MemoryKept (writeTx v) :=
  (setDebug_memoryKept _).bind .trans fun _ => modify_within fun _ => ⟨id⟩

theorem readRx_memoryKept : Within MemoryKept readRx := within_get_bind fun _ => at_set_bind (at_pure _ ⟨id⟩)

theorem readDcsrReg_memoryKept : Within MemoryKept readDcsrReg := by
  refine within_get_bind fun s => ?_
  split
  · exact drawWord_memoryKept s
  · exact at_set_bind (at_pure _ ⟨id⟩)

theorem memoryKept_startTrace (s : State) (was : Bool) : MemoryKept s (s.startTrace was) := by
  unfold State.startTrace
  split <;> exact ⟨id⟩

theorem writeDcsrReg_memoryKept (v : Word) : Within MemoryKept (writeDcsrReg v) :=
  writeLocked_memoryKept (within_get_bind fun s => at_bind (setDebug_memoryKept _ s) fun _ _ h =>
    at_modify _ (h.trans (memoryKept_startTrace _ _)))

theorem spoilTrace_memoryKept : Within MemoryKept spoilTrace := modify_within fun _ => ⟨id⟩

theorem whileTracing_memoryKept : Within MemoryKept whileTracing := by
  refine within_get_bind fun s => ?_
  split
  · exact spoilTrace_memoryKept s
  · exact at_pure _ (.refl s)

theorem readTbreg_memoryKept : Within MemoryKept readTbreg :=
  whileTracing_memoryKept.bind .trans fun _ => within_get_bind fun _ => at_set_bind (at_pure _ ⟨id⟩)

/-- A checkpoint register is read behind the trace buffer's check. -/
theorem readCheckpoint_memoryKept (f : State → Word) : Within MemoryKept (do whileTracing; let s ← get; pure (f s)) :=
  whileTracing_memoryKept.bind .trans fun _ => readPlain_memoryKept f

theorem writeCheckpoint_memoryKept (f : Debug → Debug) :
    Within MemoryKept (do let s ← get; if s.tracing then spoilTrace else setDebug f) := by
  refine within_get_bind fun s => ?_
  split
  · exact spoilTrace_memoryKept s
  · exact setDebug_memoryKept _ s

theorem readCp14_memoryKept (crd : BitVec 4) : Within MemoryKept (readCp14 crd) := by
  unfold readCp14
  split
  · exact readFree_memoryKept _ _
  · exact readPlain_memoryKept _
  · exact readPlain_memoryKept _
  · exact readPlain_memoryKept _
  · exact readFree_memoryKept _ _
  · exact freeUnder_memoryKept _ _
  · exact readPlain_memoryKept _
  · exact readRx_memoryKept
  · exact readDcsrReg_memoryKept
  · exact readTbreg_memoryKept
  · exact readCheckpoint_memoryKept _
  · exact readCheckpoint_memoryKept _
  · exact readPlain_memoryKept _
  · exact refuse_within .refl _

theorem writeCp14_memoryKept (crd : BitVec 4) (v : Word) : Within MemoryKept (writeCp14 crd v) := by
  unfold writeCp14
  split
  · exact setPmu_memoryKept _
  · exact setPmu_memoryKept _
  · exact setPmu_memoryKept _
  · exact setPmu_memoryKept _
  · exact setPmu_memoryKept _
  · exact writePwrmode_memoryKept v
  · exact writeTx_memoryKept v
  · exact pure_within .refl _
  · exact writeDcsrReg_memoryKept v
  · exact spoilTrace_memoryKept
  · exact writeCheckpoint_memoryKept _
  · exact writeCheckpoint_memoryKept _
  · exact modify_within fun _ => ⟨id⟩
  · exact refuse_within .refl _

end
end Sys2Proof.Machine

/-! ### Exceptions keep memory -/
namespace Sys2Proof.Machine
section

variable {s t : State}

theorem MemoryKept.traceByte (h : MemoryKept s t) (b : Byte) : MemoryKept s (t.traceByte b) := ⟨h.inv⟩

theorem MemoryKept.traceCount (h : MemoryKept s t) (n : BitVec 4) : MemoryKept s (t.traceCount n) := ⟨h.inv⟩

theorem memoryKept_checkpoint (s : State) (target : Word) : MemoryKept s (s.checkpoint target) := by
  unfold State.checkpoint
  split <;> exact ⟨id⟩

theorem memoryKept_traceInstr (s : State) : MemoryKept s s.traceInstr := by
  unfold State.traceInstr
  split
  · split <;> exact ⟨id⟩
  · exact .refl s

theorem memoryKept_traceDirect (s : State) (target : Word) : MemoryKept s (s.traceDirect target) := by
  unfold State.traceDirect
  split
  · exact ((memoryKept_checkpoint s target).traceByte _).traceCount _
  · exact .refl s

theorem memoryKept_traceIndirect (s : State) (target : Word) : MemoryKept s (s.traceIndirect target) := by
  unfold State.traceIndirect
  split
  · refine (((((MemoryKept.traceByte ?_ _).traceByte _).traceByte _).traceByte _).traceByte _).traceCount _
    exact memoryKept_checkpoint s target
  · exact .refl s

theorem memoryKept_traceVector (s : State) (v : BitVec 3) : MemoryKept s (s.traceVector v) := by
  unfold State.traceVector
  split <;> exact ⟨id⟩

theorem memoryKept_exceptionTrace (e : Exception) (s : State) : MemoryKept s (e.trace s) := by
  cases e with
  | dataAbort code domain far =>
    refine MemoryKept.trans ?_ (memoryKept_traceVector _ _)
    split
    · exact .refl s
    · exact memoryKept_traceInstr s
  | _ => exact memoryKept_traceVector s _

theorem memoryKept_reportFault (s : State) (code : BitVec 5) (domain : Option (BitVec 4)) (far : Option Word) :
    MemoryKept s (s.reportFault code domain far) := by
  obtain ⟨_, _, _, h⟩ := reportFault_rest s code domain far
  rw [h]
  exact ⟨id⟩

theorem memoryKept_stickyAbort (s : State) (code : BitVec 5) (domain : Option (BitVec 4)) (far : Option Word) :
    MemoryKept s (s.stickyAbort code domain far) := ⟨(memoryKept_reportFault s code domain far).inv⟩

theorem memoryKept_report (e : Exception) (s : State) : MemoryKept s (e.report s) := by
  obtain ⟨_, _, _, h⟩ := report_rest e s
  rw [h]
  exact ⟨id⟩

theorem memoryKept_enter (s : State) (m : Mode) (link : Word) (f : Bool) (a : Word) :
    MemoryKept s (s.enter m link f a) := ⟨(enter_rest m link f a).memory.inv⟩

theorem memoryKept_haltEntry (s : State) (moe : BitVec 3) (link : Word) : MemoryKept s (s.haltEntry moe link) :=
  .trans (t := { s.debugCause moe with dbgUnit := { (s.debugCause moe).dbgUnit with sds := true } }) ⟨id⟩
    (memoryKept_enter _ _ _ _ _)

theorem memoryKept_debugEntry (s : State) (moe : BitVec 3) (link : Word) : MemoryKept s (s.debugEntry moe link) := by
  unfold State.debugEntry
  split
  · exact memoryKept_haltEntry s moe link
  · refine .trans ?_ (memoryKept_enter _ .abt link false _)
    exact ⟨id⟩

theorem memoryKept_enterFrom (e : Exception) (s : State) : MemoryKept s (e.enterFrom s) :=
  ⟨(memoryKept_enter s e.mode (e.link s.pc s.thumb) (e == .fiq) (s.vectorBase + e.offset)).inv⟩

theorem memoryKept_takeException (e : Exception) (s : State) : MemoryKept s (takeException e s) := by
  have h := ((memoryKept_report e s).trans (memoryKept_exceptionTrace e _)).trans (memoryKept_enterFrom e _)
  rw [takeException_eq]
  dsimp only
  split
  · exact h.trans (memoryKept_debugEntry _ _ _)
  · exact h

theorem memoryKept_keepR13Dbg (s : State) : MemoryKept s s.keepR13Dbg := ⟨id⟩

theorem memoryKept_noteBranch (s : State) : MemoryKept s s.noteBranch := ⟨id⟩

/-! ### Answers of a meaning -/

/-- Every state that a part of a step answers keeps memory canonical and the write buffer within bounds. -/
def PreservesMemory (s : State) (r : Result) : Prop := ∀ t, r = .next t → MemoryKept s t

theorem preservesMemory_next (h : MemoryKept s t) : PreservesMemory s (.next t) := by rintro _ ⟨⟩; exact h

theorem preservesMemory_refused (r : Refusal) : PreservesMemory s (.refused r) := by rintro _ ⟨⟩

theorem preservesMemory_fault (f : Fault) : PreservesMemory s (.fault f) := by rintro _ ⟨⟩

theorem PreservesMemory.after {r : Result} (h : MemoryKept s t) (hr : PreservesMemory t r) : PreservesMemory s r :=
  fun u hu => h.trans (hr u hu)

theorem preservesMemory_ite {p : Prop} [Decidable p] {x y : Result} (hx : PreservesMemory s x) (hy : PreservesMemory s y) :
    PreservesMemory s (if p then x else y) := by
  split
  · exact hx
  · exact hy

/-- A check that refuses, then the rest. -/
theorem preservesMemory_unless {p : Prop} [Decidable p] {r : Refusal} {y : Result} (hy : PreservesMemory s y) :
    PreservesMemory s (if p then .refused r else y) := preservesMemory_ite (preservesMemory_refused r) hy

theorem preservesMemory_orRefuse {r : Option Refusal} {body : Result} (h : PreservesMemory s body) :
    PreservesMemory s (orRefuse r body) := by
  cases r with
  | none => exact h
  | some r => exact preservesMemory_refused r

theorem preservesMemory_when (h : MemoryKept s t) {cond : BitVec 4} {body : Result} (hb : PreservesMemory s body) :
    PreservesMemory s (t.when cond body) := preservesMemory_ite hb (preservesMemory_next ⟨h.inv⟩)

theorem preservesMemory_takeException (h : MemoryKept s t) (e : Exception) :
    PreservesMemory s (.next (takeException e t)) := preservesMemory_next (h.trans (memoryKept_takeException e t))

theorem preservesMemory_undefined (h : MemoryKept s t) : PreservesMemory s (undefinedInstr t) :=
  preservesMemory_unless (preservesMemory_takeException h _)

theorem preservesMemory_endTrap (h : MemoryKept s t) (e : Trap) : PreservesMemory s (endTrap e t) := by
  cases e with
  | dataAbort code domain far => exact preservesMemory_takeException h _
  | prefetchAbort code => exact preservesMemory_takeException h _
  | undefined => exact preservesMemory_undefined h
  | refuse r => exact preservesMemory_refused r
  | fault f => exact preservesMemory_fault f

/-- A body, then what is done with its answer. -/
theorem preservesMemory_runThen {α : Type} {x : Exec α} {k : α → State → Result} (hx : Within MemoryKept x)
    (h : MemoryKept s t) (hk : ∀ v u, MemoryKept s u → PreservesMemory s (k v u)) :
    PreservesMemory s (runThen x k t) := by
  unfold runThen
  cases e : x t with
  | ok v u => exact hk v u (h.trans (hx.ok e))
  | error r u => exact preservesMemory_endTrap (h.trans (hx.error e)) r

theorem preservesMemory_interwork (h : MemoryKept s t) (v : Word) : PreservesMemory s (t.interwork v) :=
  preservesMemory_unless (preservesMemory_next ⟨h.inv⟩)

theorem preservesMemory_exceptionReturn (h : MemoryKept s t) (a : Word) : PreservesMemory s (t.exceptionReturn a) := by
  intro u hu
  obtain ⟨s1, hr, hu⟩ := exceptionReturn_next hu
  obtain ⟨w, -, -, rfl⟩ := restoreCpsr_ok hr
  obtain ⟨-, rfl⟩ | ⟨-, -, rfl⟩ := hu <;> exact ⟨h.inv⟩

end
end Sys2Proof.Machine

/-! ### Memory and the meanings, shape by shape -/
namespace Sys2Proof.Machine
section

variable {α : Type} {s t u : State} {cond : BitVec 4}

/-! ### Data processing and multiplies -/

theorem preservesMemory_dpWrite (h : MemoryKept s t) (sf : Bool) (rd : RegNum) (v : Word) {flags : State → State}
    (hf : ∀ u, MemoryKept u (flags u)) : PreservesMemory s (dpWrite sf rd v flags t) := by
  have hreg := h.setReg rd v
  refine preservesMemory_ite (preservesMemory_ite (preservesMemory_exceptionReturn h v)
    (preservesMemory_unless (preservesMemory_next ⟨h.inv⟩))) (preservesMemory_next ⟨?_⟩)
  cases sf
  · exact hreg.inv
  · exact (hreg.trans (hf _)).inv

theorem preservesMemory_arithOp (sf : Bool) (rn rd : RegNum) (op2 : Op2) (f : Word → Word → Bool → Sum) :
    PreservesMemory s (arithOp cond sf rn rd op2 f s) :=
  have h := memoryKept_dpBegin s op2
  preservesMemory_when h (preservesMemory_ite (preservesMemory_dpWrite h sf rd _ fun _ => ⟨id⟩) (preservesMemory_refused _))

theorem preservesMemory_logicalOp (sf : Bool) (rn rd : RegNum) (op2 : Op2) (f : Word → Word → Word) :
    PreservesMemory s (logicalOp cond sf rn rd op2 f s) :=
  have h := memoryKept_dpBegin s op2
  preservesMemory_when h (preservesMemory_ite (preservesMemory_dpWrite h sf rd _ fun _ => ⟨id⟩) (preservesMemory_refused _))

theorem preservesMemory_arithTest (rn : RegNum) (op2 : Op2) (f : Word → Word → Sum) :
    PreservesMemory s (arithTest cond rn op2 f s) :=
  have h := memoryKept_dpBegin s op2
  preservesMemory_when h (preservesMemory_ite (preservesMemory_next ⟨h.inv⟩) (preservesMemory_refused _))

theorem preservesMemory_logicalTest (rn : RegNum) (op2 : Op2) (f : Word → Word → Word) :
    PreservesMemory s (logicalTest cond rn op2 f s) :=
  have h := memoryKept_dpBegin s op2
  preservesMemory_when h (preservesMemory_ite (preservesMemory_next ⟨h.inv⟩) (preservesMemory_refused _))

theorem memoryKept_setReg (s : State) (r : RegNum) (v : Word) : MemoryKept s (s.setReg r v) := (MemoryKept.refl s).setReg r v

/-- A register is written, and only flags, notes and the PC besides: the answer has the memory of the register write. -/
theorem preservesMemory_setReg (r : RegNum) (v : Word) (hmem : t.mem = (s.setReg r v).mem)
    (hbuffer : t.writeBuffer = (s.setReg r v).writeBuffer) : PreservesMemory s (.next t) :=
  preservesMemory_next ((memoryKept_setReg s r v).trans (.of_eq hmem hbuffer))

theorem preservesMemory_clz (rd rm : RegNum) : PreservesMemory s (execClz cond rd rm s) :=
  preservesMemory_when (.refl s) (preservesMemory_unless (preservesMemory_setReg rd _ rfl rfl))

theorem preservesMemory_regOp (used : List RegNum) {body : State → State} (hb : MemoryKept s (body s)) :
    PreservesMemory s (regOp cond used body s) :=
  preservesMemory_when (.refl s) (preservesMemory_unless (preservesMemory_next ⟨hb.inv⟩))

theorem preservesMemory_mulOp (sf : Bool) (rd : RegNum) (used : List RegNum) (v : Word) :
    PreservesMemory s (mulOp cond sf rd used v s) := by
  refine preservesMemory_regOp _ ?_
  cases sf <;> exact ⟨(memoryKept_setReg s rd v).inv⟩

theorem preservesMemory_mulLongOp (sf : Bool) (rdHi rdLo rs rm : RegNum) (p : BitVec 64) :
    PreservesMemory s (mulLongOp cond sf rdHi rdLo rs rm p s) := by
  have h := ((MemoryKept.refl s).setReg rdHi (p.extractLsb' 32 32)).setReg rdLo (p.extractLsb' 0 32)
  refine preservesMemory_when (.refl s) (preservesMemory_unless (preservesMemory_unless (preservesMemory_next ?_)))
  cases sf <;> exact ⟨h.inv⟩

/-! ### Branches -/

theorem preservesMemory_directBranch (taken : Bool) (target : Word) (suffix : Option (BitVec 11)) {link : State → State}
    (hlink : ∀ u, MemoryKept u (link u)) : PreservesMemory s (directBranch taken target suffix link s) :=
  have h : MemoryKept s (s.noteBranch.btbUpdate target taken suffix) := ⟨(memoryKept_btbUpdate s.noteBranch _ _ _).inv⟩
  preservesMemory_ite (preservesMemory_next ⟨(h.trans (hlink _)).inv⟩) (preservesMemory_next ⟨h.inv⟩)

theorem memoryKept_linkNext (s : State) : MemoryKept s s.linkNext := memoryKept_setReg s _ _

theorem memoryKept_linkThumb (s : State) : MemoryKept s s.linkThumb := memoryKept_setReg s _ _

theorem preservesMemory_blx1 (h : Bool) (imm : BitVec 24) : PreservesMemory s (execBlx1 h imm s) :=
  preservesMemory_next ⟨(memoryKept_linkNext s.noteBranch).inv⟩

theorem preservesMemory_blx2 (rm : RegNum) : PreservesMemory s (execBlx2 cond rm s) :=
  have h := memoryKept_noteBranch s
  preservesMemory_when h (preservesMemory_unless (preservesMemory_interwork (h.trans (memoryKept_linkNext _)) _))

theorem preservesMemory_bx (rm : RegNum) : PreservesMemory s (execBx cond rm s) :=
  have h := memoryKept_noteBranch s
  preservesMemory_when h (preservesMemory_interwork h _)

/-! ### Status registers, software interrupt and breakpoint -/

theorem preservesMemory_mrs (r : Bool) (rd : RegNum) : PreservesMemory s (execMrs cond r rd s) := by
  have h (v : Word) : PreservesMemory s (.next (s.setReg rd v).advance) := preservesMemory_setReg rd v rfl rfl
  refine preservesMemory_when (.refl s) (preservesMemory_unless (preservesMemory_ite ?_ (h _)))
  split
  · exact h _
  · exact preservesMemory_refused _

theorem preservesMemory_writeCpsr (mask : BitVec 4) (operand : Word) : PreservesMemory s (writeCpsr mask operand s) :=
  preservesMemory_ite (preservesMemory_unless (preservesMemory_unless (preservesMemory_unless
    (preservesMemory_next ⟨id⟩)))) (preservesMemory_next ⟨id⟩)

theorem preservesMemory_writeSpsr (mask : BitVec 4) (operand : Word) : PreservesMemory s (writeSpsr mask operand s) := by
  unfold writeSpsr
  split
  · exact preservesMemory_next ⟨(memoryKept_setSpsr s _ _).inv⟩
  · exact preservesMemory_refused _

theorem preservesMemory_msrReg (r : Bool) (mask : BitVec 4) (rm : RegNum) :
    PreservesMemory s (execMsrReg cond r mask rm s) :=
  preservesMemory_when (.refl s) (preservesMemory_unless
    (preservesMemory_ite (preservesMemory_writeSpsr _ _) (preservesMemory_writeCpsr _ _)))

theorem preservesMemory_msrImm (r : Bool) (mask rot : BitVec 4) (imm8 : BitVec 8) :
    PreservesMemory s (execMsrImm cond r mask rot imm8 s) :=
  preservesMemory_when (.refl s) (preservesMemory_ite (preservesMemory_writeSpsr _ _) (preservesMemory_writeCpsr _ _))

theorem preservesMemory_softwareInterrupt (s : State) : PreservesMemory s (softwareInterrupt s) :=
  preservesMemory_unless (preservesMemory_next ⟨(memoryKept_takeException .swi s).inv⟩)

theorem preservesMemory_softwareBreakpoint (s : State) : PreservesMemory s (softwareBreakpoint s) :=
  preservesMemory_ite (preservesMemory_next ⟨id⟩)
    (preservesMemory_unless (preservesMemory_next ⟨(memoryKept_debugEntry s _ _).inv⟩))

/-! ### Single transfers -/

theorem memReadAs_memoryKept (f : List Byte → Word) (va : Word) (n : Nat) (priv : Bool) :
    Within MemoryKept (memReadAs f va n priv) := (memReadAs_dataOnly f va n priv).memory

theorem memWrite_memoryKept (va : Word) (n : Nat) (priv : Bool) (v : Word) :
    Within MemoryKept (memWrite va n priv v) := (memWrite_dataOnly va n priv v).memory

theorem preservesMemory_loadReg (rn rd : RegNum) (ad : Address) {read : Word → Exec Word}
    (hr : ∀ a, Within MemoryKept (read a)) : PreservesMemory s (loadReg rn rd ad read s) :=
  preservesMemory_runThen (hr _) (.refl s) fun v _ h => preservesMemory_next ⟨((h.updateBase rn ad).setReg rd v).inv⟩

theorem preservesMemory_loadPc (rn : RegNum) (ad : Address) {read : Word → Exec Word}
    (hr : ∀ a, Within MemoryKept (read a)) : PreservesMemory s (loadPc rn ad read s) :=
  preservesMemory_runThen (hr _) ⟨id⟩ fun _ _ h => preservesMemory_interwork (h.updateBase rn ad) _

theorem preservesMemory_storeReg (rn : RegNum) (ad : Address) {write : Word → Exec Unit}
    (hw : ∀ a, Within MemoryKept (write a)) : PreservesMemory s (storeReg rn ad write s) :=
  preservesMemory_runThen (hw _) (.refl s) fun _ _ h => preservesMemory_next ⟨(h.updateBase rn ad).inv⟩

/-- A load of one register behind its condition and its checks. -/
theorem preservesMemory_loadIf (r : Option Refusal) (rn rd : RegNum) (ad : Address) {read : Word → Exec Word}
    (hr : ∀ a, Within MemoryKept (read a)) : PreservesMemory s (s.when cond (orRefuse r (loadReg rn rd ad read s))) :=
  preservesMemory_when (.refl s) (preservesMemory_orRefuse (preservesMemory_loadReg rn rd ad hr))

theorem preservesMemory_storeIf (r : Option Refusal) (rn : RegNum) (ad : Address) {write : Word → Exec Unit}
    (hw : ∀ a, Within MemoryKept (write a)) : PreservesMemory s (s.when cond (orRefuse r (storeReg rn ad write s))) :=
  preservesMemory_when (.refl s) (preservesMemory_orRefuse (preservesMemory_storeReg rn ad hw))

theorem preservesMemory_ldr (rn rd : RegNum) (am : Mode2) : PreservesMemory s (execLdr cond rn rd am s) :=
  preservesMemory_when (.refl s) (preservesMemory_orRefuse (preservesMemory_unless (preservesMemory_ite
    (preservesMemory_unless (preservesMemory_loadPc _ _ fun _ => memReadAs_memoryKept _ _ _ _))
    (preservesMemory_loadReg _ _ _ fun _ => memReadAs_memoryKept _ _ _ _))))

/-! ### Transfers of several words -/

theorem abortLoad_memoryKept (m : Mode) (rn : RegNum) (vs : List (RegNum × Word)) (e : Trap) :
    Within MemoryKept (abortLoad m rn vs e : Exec α) := fun s =>
  MemoryKept.setBankRegs (dataOnly_draw s).memory m _

/-- The words of a list, or the abort that ends them (20_memory.md R155). -/
theorem loadOrAbort_memoryKept (priv : Bool) (m : Mode) (rn : RegNum) (rs : List RegNum) (a : Word) :
    Within MemoryKept (loadWords priv rs a >>= fun p =>
      match p.2 with
      | some t => abortLoad m rn p.1 t
      | none => pure p.1) := by
  refine Within.bind .trans (loadWords_dataOnly priv rs a).memory fun p => ?_
  split
  · exact abortLoad_memoryKept _ _ _ _
  · exact pure_within .refl _

theorem checkDouble_memoryKept (va : Word) : Within MemoryKept (checkDouble va) := by
  refine within_get_bind fun s => ?_
  split
  · exact (alignmentFault_dataOnly _).memory s
  · exact at_pure _ (.refl s)

theorem loadDouble_memoryKept (priv : Bool) (m : Mode) (rn rd : RegNum) (va : Word) :
    Within MemoryKept (loadDouble priv m rn rd va) :=
  ignoreAbortInSds_memoryKept ((checkDouble_memoryKept va).bind .trans fun _ => loadOrAbort_memoryKept priv m rn _ va)
    (drawWord_memoryKept.bind .trans fun _ => drawWord_memoryKept.bind .trans fun _ => pure_within .refl _)

theorem preservesMemory_ldrd (p u w : Bool) (rn rd : RegNum) (off : Offset3) :
    PreservesMemory s (execLdrd cond p u w rn rd off s) :=
  preservesMemory_when (.refl s) (preservesMemory_ite (preservesMemory_undefined (.refl s)) (preservesMemory_orRefuse
    (preservesMemory_runThen (loadDouble_memoryKept _ _ _ _ _) (.refl s) fun vs _ h =>
      preservesMemory_next ⟨((h.updateBase _ _).setRegs vs).inv⟩)))

theorem preservesMemory_strd (p u w : Bool) (rn rd : RegNum) (off : Offset3) :
    PreservesMemory s (execStrd cond p u w rn rd off s) :=
  preservesMemory_when (.refl s) (preservesMemory_ite (preservesMemory_undefined (.refl s)) (preservesMemory_orRefuse
    (preservesMemory_storeReg _ _ fun a => (refuseAbortInSds_within (checkDouble_memoryKept a)).bind .trans fun _ =>
      (storeWords_dataOnly _ _ _).memory)))

theorem preservesMemory_loadMultiple (bank : Mode) (p u w : Bool) (rn : RegNum) (regs : List RegNum)
    {k : List (RegNum × Word) → State → Result} (hk : ∀ vs t, MemoryKept s t → PreservesMemory s (k vs t)) :
    PreservesMemory s (loadMultiple bank p u w rn regs k s) := by
  have h : MemoryKept s (if regs.contains 15#4 then s.noteLoadsPc else s) := by split <;> exact ⟨id⟩
  refine preservesMemory_runThen ((checkSpan_dataOnly _ _).memory.bind .trans fun _ =>
    loadOrAbort_memoryKept _ bank rn regs _) h fun vs t ht => hk vs _ ?_
  split
  · exact ht.setReg _ _
  · exact ht

/-- A load multiple ends at the value loaded for the PC, or at the next instruction (42_load_store.md R470). -/
theorem preservesMemory_loadedPc (vs : List (RegNum × Word)) (h : MemoryKept s t) :
    PreservesMemory s (match pcValue vs with
      | some v => (t.setRegs vs).interwork v
      | none => .next (t.setRegs vs).advance) := by
  split
  · exact preservesMemory_interwork (h.setRegs vs) _
  · exact preservesMemory_next ⟨(h.setRegs vs).inv⟩

theorem preservesMemory_ldm1 (p u w : Bool) (rn : RegNum) (list : BitVec 16) :
    PreservesMemory s (execLdm1 cond p u w rn list s) :=
  preservesMemory_when (.refl s) (preservesMemory_orRefuse (preservesMemory_unless (preservesMemory_unless
    (preservesMemory_loadMultiple _ _ _ _ _ _ fun vs _ h => preservesMemory_loadedPc vs h))))

theorem preservesMemory_ldm2 (p u w : Bool) (rn : RegNum) (list : BitVec 15) :
    PreservesMemory s (execLdm2 cond p u w rn list s) :=
  preservesMemory_when (.refl s) (preservesMemory_orRefuse (preservesMemory_unless (preservesMemory_unless
    (preservesMemory_loadMultiple _ _ _ _ _ _ fun vs _ h => preservesMemory_next ⟨(h.setBankRegs .usr vs).inv⟩))))

theorem preservesMemory_ldm3 (p u w : Bool) (rn : RegNum) (list : BitVec 15) :
    PreservesMemory s (execLdm3 cond p u w rn list s) :=
  preservesMemory_when (.refl s) (preservesMemory_orRefuse (preservesMemory_unless (preservesMemory_unless
    (preservesMemory_unless (preservesMemory_loadMultiple _ _ _ _ _ _ fun vs _ h =>
      preservesMemory_exceptionReturn (h.setRegs vs) _)))))

theorem preservesMemory_storeMultiple (p u w : Bool) (rn : RegNum) (regs : List RegNum) (value : RegNum → Word) :
    PreservesMemory s (storeMultiple p u w rn regs value s) := by
  unfold storeMultiple
  dsimp only
  generalize (w && regs.contains rn && regs.head? != some rn) = spoilt
  have h : MemoryKept s (if spoilt then s.draw.2 else s) := by cases spoilt <;> exact ⟨id⟩
  refine preservesMemory_runThen ((checkSpan_dataOnly _ _).memory.bind .trans fun _ => (storeWords_dataOnly _ _ _).memory)
    h fun _ t ht => preservesMemory_next ?_
  split
  · exact ⟨(ht.setReg _ _).inv⟩
  · exact ⟨ht.inv⟩

theorem preservesMemory_stm1 (p u w : Bool) (rn : RegNum) (list : BitVec 16) :
    PreservesMemory s (execStm1 cond p u w rn list s) :=
  preservesMemory_when (.refl s) (preservesMemory_orRefuse (preservesMemory_storeMultiple _ _ _ _ _ _))

theorem preservesMemory_stm2 (p u w : Bool) (rn : RegNum) (list : BitVec 16) :
    PreservesMemory s (execStm2 cond p u w rn list s) :=
  preservesMemory_when (.refl s) (preservesMemory_orRefuse (preservesMemory_unless
    (preservesMemory_storeMultiple _ _ _ _ _ _)))

theorem preservesMemory_swapOp (rn rd rm : RegNum) (n : Nat) (value : Word → Word) :
    PreservesMemory s (swapOp cond rn rd rm n value s) :=
  preservesMemory_when (.refl s) (preservesMemory_unless (preservesMemory_unless (preservesMemory_unless
    (preservesMemory_runThen (swapAccess_dataOnly _ _ _ _).memory (.refl s) fun _ _ h =>
      preservesMemory_next ⟨(h.setReg _ _).inv⟩))))

theorem preservesMemory_preload (va : Word) : PreservesMemory s (runThen (preload va) (fun _ t => .next t.advance) s) :=
  preservesMemory_runThen (preload_dataOnly va).memory (.refl s) fun _ _ h => preservesMemory_next ⟨h.inv⟩

/-! ### Coprocessors -/

theorem preservesMemory_moveFrom (rd : RegNum) {read : Exec Word} (hr : Within MemoryKept read) :
    PreservesMemory s (moveFrom cond rd read s) :=
  preservesMemory_when (memoryKept_keepR13Dbg s) (preservesMemory_ite
    (preservesMemory_runThen hr (.refl s) fun v _ h => preservesMemory_next ⟨(h.setMoved rd v).inv⟩)
    (preservesMemory_undefined (.refl s)))

theorem preservesMemory_moveTo (rd : RegNum) {write : Word → Exec Unit} (hw : ∀ v, Within MemoryKept (write v)) :
    PreservesMemory s (moveTo cond rd write s) :=
  preservesMemory_when (memoryKept_keepR13Dbg s) (preservesMemory_ite
    (preservesMemory_unless (preservesMemory_runThen (hw _) (.refl s) fun _ _ h => preservesMemory_next ⟨h.inv⟩))
    (preservesMemory_undefined (.refl s)))

theorem preservesMemory_noSuchTransferIf (cp : BitVec 4) : PreservesMemory s (s.when cond (noSuchTransfer cp s)) :=
  preservesMemory_when (.refl s) (preservesMemory_unless (preservesMemory_undefined (.refl s)))

theorem preservesMemory_unlistedMoveIf (cp : BitVec 4) (why : Refusal) :
    PreservesMemory s (s.keepR13Dbg.when cond (unlistedMove cp why s)) :=
  have checked {p : Prop} [Decidable p] (r : Refusal) : PreservesMemory s (if p then .refused r else undefinedInstr s) :=
    preservesMemory_unless (preservesMemory_undefined (.refl s))
  preservesMemory_when (memoryKept_keepR13Dbg s) (preservesMemory_ite (checked _) (checked _))

theorem preservesMemory_transferCp14 (n : Bool) (rn crd cp : BitVec 4) (ad : Address) {body : Result}
    (hb : PreservesMemory s body) : PreservesMemory s (transferCp14 cond n rn crd cp ad body s) :=
  preservesMemory_when (.refl s) (preservesMemory_ite (preservesMemory_undefined (.refl s))
    (preservesMemory_unless (preservesMemory_unless (preservesMemory_unless (preservesMemory_unless hb)))))

theorem preservesMemory_transferUnindexed (cp : BitVec 4) : PreservesMemory s (transferUnindexed cond cp s) :=
  preservesMemory_when (.refl s) (preservesMemory_ite (preservesMemory_undefined (.refl s)) (preservesMemory_refused _))

theorem preservesMemory_loadCp14 (rn crd : BitVec 4) (ad : Address) : PreservesMemory s (loadCp14 rn crd ad s) :=
  preservesMemory_runThen ((memReadAs_memoryKept _ _ _ _).bind .trans fun _ => writeCp14_memoryKept _ _) (.refl s)
    fun _ _ h => preservesMemory_next ⟨(h.updateBase _ _).inv⟩

/-- A store that aborts puts the debug unit and the trace buffer back, not memory (44_coprocessor.md R548). -/
theorem preservesMemory_storeCp14 (rn crd : BitVec 4) (ad : Address) : PreservesMemory s (storeCp14 rn crd ad s) := by
  refine preservesMemory_runThen ((readCp14_memoryKept crd).bind .trans fun v s1 => ?_) (.refl s)
    fun _ _ h => preservesMemory_next ⟨(h.updateBase _ _).inv⟩
  have hw := memWrite_memoryKept ad.at_ 4 s.privileged v
  unfold At
  dsimp only
  cases h : memWrite ad.at_ 4 s.privileged v s1 with
  | ok _ s2 => exact hw.ok h
  | error e s2 => exact ⟨(hw.error h).inv⟩

/-- The checks of an instruction of CP0 (44_coprocessor.md R541, R542), then its body. -/
theorem preservesMemory_ifCp0 {p : Prop} [Decidable p] {r : Refusal} {body : Result} (hb : PreservesMemory s body) :
    PreservesMemory s (if !s.cp0Allowed then undefinedInstr s else if p then .refused r else body) :=
  preservesMemory_ite (preservesMemory_undefined (.refl s)) (preservesMemory_unless hb)

theorem preservesMemory_miaOp (rs : RegNum) (acc : BitVec 3) (rm : RegNum) (product : Word → Word → Int) :
    PreservesMemory s (miaOp cond rs acc rm product s) :=
  preservesMemory_when (.refl s) (preservesMemory_ifCp0 (preservesMemory_unless (preservesMemory_next ⟨id⟩)))

theorem preservesMemory_mar (rdHi rdLo : RegNum) (acc : BitVec 3) : PreservesMemory s (execMar cond rdHi rdLo acc s) :=
  preservesMemory_when (.refl s) (preservesMemory_ifCp0 (preservesMemory_unless (preservesMemory_next ⟨id⟩)))

theorem preservesMemory_mra (rdHi rdLo : RegNum) (acc : BitVec 3) : PreservesMemory s (execMra cond rdHi rdLo acc s) :=
  preservesMemory_when (.refl s) (preservesMemory_ifCp0 (preservesMemory_unless (preservesMemory_unless
    (preservesMemory_next ⟨((memoryKept_setReg s rdHi _).setReg rdLo _).inv⟩))))

/-! ### Thumb -/

theorem preservesMemory_thumbLogical (rd : BitVec 3) (r : Word) (c : Bool) : PreservesMemory s (thumbLogical rd r c s) :=
  preservesMemory_setReg (lowReg rd) r rfl rfl

theorem preservesMemory_thumbSum (rd : BitVec 3) (r : Sum) : PreservesMemory s (thumbSum rd r s) :=
  preservesMemory_setReg (lowReg rd) r.value rfl rfl

theorem preservesMemory_thumbCompare (r : Sum) : PreservesMemory s (thumbCompare r s) := preservesMemory_next ⟨id⟩

theorem preservesMemory_tTst (rm rn : BitVec 3) : PreservesMemory s (execTTst rm rn s) := preservesMemory_next ⟨id⟩

theorem preservesMemory_tMul (rm rd : BitVec 3) : PreservesMemory s (execTMul rm rd s) :=
  preservesMemory_setReg (lowReg rd) _ rfl rfl

theorem preservesMemory_tBlPrefix (off : BitVec 11) : PreservesMemory s (execTBlPrefix off s) :=
  preservesMemory_setReg 14#4 (s.pcRead + ((off.signExtend 32) <<< 12)) rfl rfl

theorem preservesMemory_tBlxSuffix (off : BitVec 10) : PreservesMemory s (execTBlxSuffix off s) :=
  preservesMemory_next ⟨((memoryKept_noteBranch s).trans (memoryKept_linkThumb _)).inv⟩

theorem preservesMemory_tBx (h2 : Bool) (rm : BitVec 3) : PreservesMemory s (execTBx h2 rm s) :=
  preservesMemory_interwork (memoryKept_noteBranch s) _

theorem preservesMemory_thumbHigh (rd : RegNum) (r : Word) : PreservesMemory s (thumbHigh rd r s) :=
  preservesMemory_ite (preservesMemory_next ⟨id⟩) (preservesMemory_setReg rd r rfl rfl)

theorem preservesMemory_tBlx2 (h2 : Bool) (rm : BitVec 3) : PreservesMemory s (execTBlx2 h2 rm s) :=
  preservesMemory_unless (preservesMemory_interwork ((memoryKept_noteBranch s).trans (memoryKept_linkThumb _)) _)

theorem preservesMemory_thumbLoad (rd : BitVec 3) (a : Word) {read : Word → Exec Word}
    (hr : ∀ a, Within MemoryKept (read a)) : PreservesMemory s (thumbLoad rd a read s) := preservesMemory_loadReg _ _ _ hr

theorem preservesMemory_thumbStore (rd : BitVec 3) (a : Word) (n : Nat) : PreservesMemory s (thumbStore rd a n s) :=
  preservesMemory_storeReg _ _ fun _ => memWrite_memoryKept _ _ _ _

theorem preservesMemory_tPop (r : Bool) (list : BitVec 8) : PreservesMemory s (execTPop r list s) :=
  preservesMemory_orRefuse (preservesMemory_unless (preservesMemory_loadMultiple _ _ _ _ _ _ fun vs _ h =>
    preservesMemory_loadedPc vs h))

theorem preservesMemory_tLdmia (rn : BitVec 3) (list : BitVec 8) : PreservesMemory s (execTLdmia rn list s) :=
  preservesMemory_orRefuse (preservesMemory_unless (preservesMemory_loadMultiple _ _ _ _ _ _ fun vs _ h =>
    preservesMemory_next ⟨(h.setRegs vs).inv⟩))

/-! ### Every instruction -/

/-- Every instruction keeps memory canonical and the write buffer within its eight entries. -/
theorem exec_preservesMemory (i : Instr) (s : State) : PreservesMemory s (exec i s) := by
  unfold exec
  cases i with
  | and | eor | orr | mov | bic | mvn => exact preservesMemory_logicalOp _ _ _ _ _
  | sub | rsb | add | adc | sbc | rsc => exact preservesMemory_arithOp _ _ _ _ _
  | tst | teq => exact preservesMemory_logicalTest _ _ _
  | cmp | cmn => exact preservesMemory_arithTest _ _ _
  | clz => exact preservesMemory_clz _ _
  | mul | mla => exact preservesMemory_mulOp _ _ _ _
  | umull | umlal | smull | smlal | smlalXY => exact preservesMemory_mulLongOp _ _ _ _ _ _
  | smulXY | smulWY => exact preservesMemory_regOp _ (memoryKept_setReg s _ _)
  | smlaXY | smlaWY | qadd | qsub | qdadd | qdsub => exact preservesMemory_regOp _ ⟨(memoryKept_setReg s _ _).inv⟩
  | ldr => exact preservesMemory_ldr _ _ _
  | ldrb | ldrt | ldrbt | ldrh | ldrsb | ldrsh =>
    exact preservesMemory_loadIf _ _ _ _ fun _ => memReadAs_memoryKept _ _ _ _
  | str | strb | strt | strbt | strh => exact preservesMemory_storeIf _ _ _ fun _ => memWrite_memoryKept _ _ _ _
  | ldrd => exact preservesMemory_ldrd _ _ _ _ _ _
  | strd => exact preservesMemory_strd _ _ _ _ _ _
  | ldm1 => exact preservesMemory_ldm1 _ _ _ _ _
  | ldm2 => exact preservesMemory_ldm2 _ _ _ _ _
  | ldm3 => exact preservesMemory_ldm3 _ _ _ _ _
  | stm1 => exact preservesMemory_stm1 _ _ _ _ _
  | stm2 => exact preservesMemory_stm2 _ _ _ _ _
  | swp | swpb => exact preservesMemory_swapOp _ _ _ _ _
  | pldImm => exact preservesMemory_preload _
  | pldReg => exact preservesMemory_unless (preservesMemory_preload _)
  | b => exact preservesMemory_directBranch _ _ _ .refl
  | bl => exact preservesMemory_directBranch _ _ _ memoryKept_linkNext
  | blx1 => exact preservesMemory_blx1 _ _
  | blx2 => exact preservesMemory_blx2 _
  | bx => exact preservesMemory_bx _
  | mrs => exact preservesMemory_mrs _ _
  | msrReg => exact preservesMemory_msrReg _ _ _
  | msrImm => exact preservesMemory_msrImm _ _ _ _
  | swi => exact preservesMemory_when (.refl s) (preservesMemory_softwareInterrupt s)
  | bkpt => exact preservesMemory_softwareBreakpoint s
  | cdp | mcrr | mrrc => exact preservesMemory_noSuchTransferIf _
  | mcr | mrc => exact preservesMemory_unlistedMoveIf _ _
  | ldcOffset | ldcPost => exact preservesMemory_transferCp14 _ _ _ _ _ (preservesMemory_loadCp14 _ _ _)
  | stcOffset | stcPost => exact preservesMemory_transferCp14 _ _ _ _ _ (preservesMemory_storeCp14 _ _ _)
  | ldcUnindexed | stcUnindexed => exact preservesMemory_transferUnindexed _
  | mia | miaph | miabb | miabt | miatb | miatt => exact preservesMemory_miaOp _ _ _ _
  | mar => exact preservesMemory_mar _ _ _
  | mra => exact preservesMemory_mra _ _ _
  | undefMedia | undefMsrImm => exact preservesMemory_when (.refl s) (preservesMemory_undefined (.refl s))
  | mrcCacheType => exact preservesMemory_moveFrom _ (pure_within .refl _)
  | mrcId | mrcDacr | mrcFar | mrcPid | mrcCcnt | mrcPmn0 | mrcPmn1 | mrcTx | mrcTxrxctrl =>
    exact preservesMemory_moveFrom _ (readPlain_memoryKept _)
  | mrcControl | mrcAuxControl | mrcTtb | mrcFsr | mrcDCacheLock | mrcCpar | mrcPmnc | mrcCclkcfg =>
    exact preservesMemory_moveFrom _ (readFree_memoryKept _ _)
  | mrcPwrmode => exact preservesMemory_moveFrom _ (freeUnder_memoryKept _ _)
  | mrcIbcr0 | mrcIbcr1 | mrcDbr0 | mrcDbr1 | mrcDbcon => exact preservesMemory_moveFrom _ (readLocked_memoryKept _)
  | mrcRx => exact preservesMemory_moveFrom _ readRx_memoryKept
  | mrcDcsr => exact preservesMemory_moveFrom _ readDcsrReg_memoryKept
  | mrcTbreg => exact preservesMemory_moveFrom _ readTbreg_memoryKept
  | mrcChkpt0 | mrcChkpt1 => exact preservesMemory_moveFrom _ (readCheckpoint_memoryKept _)
  | mcrId | mcrCacheType | mcrRx => exact preservesMemory_moveTo _ fun _ => pure_within .refl _
  | mcrControl | mcrAuxControl =>
    exact preservesMemory_moveTo _ fun _ => refuseIf_memoryKept _ (setCp15_memoryKept _)
  | mcrTtb | mcrFsr | mcrCpar | mcrDacr | mcrFar => exact preservesMemory_moveTo _ fun _ => setCp15_memoryKept _
  | mcrDbcon | mcrIbcr0 | mcrIbcr1 | mcrDbr0 | mcrDbr1 =>
    exact preservesMemory_moveTo _ fun _ => writeLocked_memoryKept (setCp15_memoryKept _)
  | mcrPid | mcrInvIDCacheBtb | mcrInvICacheBtb | mcrInvICacheLine | mcrInvDCache | mcrInvDCacheLine | mcrInvBtb =>
    exact preservesMemory_moveTo _ fun _ => modify_within fun _ => ⟨id⟩
  | mcrCleanDCacheLine => exact preservesMemory_moveTo _ fun _ => (cleanDLine_dataOnly _).memory
  | mcrDrainWriteBuffer => exact preservesMemory_moveTo _ fun _ => modify_within fun s => memoryKept_retire s _
  | mcrAllocateDLine => exact preservesMemory_moveTo _ allocateDLine_memoryKept
  | mcrInvIDTlb =>
    exact preservesMemory_moveTo _ fun _ => Within.bind .trans (modify_within fun s => memoryKept_setTlb s true _)
      fun _ => modify_within fun s => memoryKept_setTlb s false _
  | mcrInvITlb | mcrInvDTlb | mcrInvITlbEntry | mcrInvDTlbEntry =>
    exact preservesMemory_moveTo _ fun _ => modify_within fun s => memoryKept_setTlb s _ _
  | mcrLockILine => exact preservesMemory_moveTo _ lockILine_memoryKept
  | mcrUnlockICache =>
    exact preservesMemory_moveTo _ fun _ => whereOn_memoryKept State.icacheOn
      (f := fun s => { s with icache := { s.icache with locked := [] } }) (fun _ => ⟨id⟩) _
  | mcrDCacheLock => exact preservesMemory_moveTo _ writeDCacheLock_memoryKept
  | mcrUnlockDCache =>
    exact preservesMemory_moveTo _ fun _ => whereOn_memoryKept State.dcacheOn
      (f := fun s => { s with dcache := { s.dcache with locked := [] } }) (fun _ => ⟨id⟩) _
  | mcrLockITlbEntry | mcrLockDTlbEntry => exact preservesMemory_moveTo _ (lockTlbEntry_memoryKept _)
  | mcrUnlockITlb | mcrUnlockDTlb =>
    exact preservesMemory_moveTo _ fun _ => whereOn_memoryKept State.mmuOn (fun s => memoryKept_setTlb s _ _) _
  | mcrPmnc | mcrCcnt | mcrPmn0 | mcrPmn1 | mcrCclkcfg => exact preservesMemory_moveTo _ fun _ => setPmu_memoryKept _
  | mcrPwrmode => exact preservesMemory_moveTo _ writePwrmode_memoryKept
  | mcrTx => exact preservesMemory_moveTo _ writeTx_memoryKept
  | mcrDcsr => exact preservesMemory_moveTo _ writeDcsrReg_memoryKept
  | mcrTbreg => exact preservesMemory_moveTo _ fun _ => spoilTrace_memoryKept
  | mcrChkpt0 | mcrChkpt1 => exact preservesMemory_moveTo _ fun _ => writeCheckpoint_memoryKept _
  | mcrTxrxctrl => exact preservesMemory_moveTo _ fun _ => modify_within fun _ => ⟨id⟩
  | tLsl1 | tLsr1 | tAsr1 | tMov1 | tAnd | tEor | tLsl2 | tLsr2 | tAsr2 | tRor | tOrr | tBic | tMvn =>
    exact preservesMemory_thumbLogical _ _ _
  | tAdd3 | tSub3 | tAdd1 | tSub1 | tAdd2 | tSub2 | tAdc | tSbc | tNeg => exact preservesMemory_thumbSum _ _
  | tCmp1 | tCmp2 | tCmn => exact preservesMemory_thumbCompare _
  | tTst => exact preservesMemory_tTst _ _
  | tMul => exact preservesMemory_tMul _ _
  | tAdd4 | tMov3 => exact preservesMemory_unless (preservesMemory_thumbHigh _ _)
  | tCmp3 => exact preservesMemory_unless (preservesMemory_unless (preservesMemory_thumbCompare _))
  | tAdd5 | tAdd6 | tAdd7 | tSub4 => exact preservesMemory_thumbHigh _ _
  | tBx => exact preservesMemory_tBx _ _
  | tBlx2 => exact preservesMemory_tBlx2 _ _
  | tLdr3 | tLdrsb | tLdr2 | tLdrh2 | tLdrb2 | tLdrsh | tLdr1 | tLdrb1 | tLdrh1 | tLdr4 =>
    exact preservesMemory_thumbLoad _ _ fun _ => memReadAs_memoryKept _ _ _ _
  | tStr2 | tStrh2 | tStrb2 | tStr1 | tStrb1 | tStrh1 | tStr3 => exact preservesMemory_thumbStore _ _ _
  | tPush | tStmia => exact preservesMemory_orRefuse (preservesMemory_storeMultiple _ _ _ _ _ _)
  | tPop => exact preservesMemory_tPop _ _
  | tLdmia => exact preservesMemory_tLdmia _ _
  | tBkpt => exact preservesMemory_softwareBreakpoint s
  | tSwi => exact preservesMemory_softwareInterrupt s
  | tUndefB1 | tUndefB2 | tUndefB3 | tUndefB6 | tUndefB7 | tUndefB8 | tUndefBF | tUndefDE | tUndefE801 =>
    exact preservesMemory_undefined (.refl s)
  | tB1Low | tB1Mid | tB1High | tB2 => exact preservesMemory_directBranch _ _ _ .refl
  | tBlSuffix => exact preservesMemory_directBranch _ _ _ memoryKept_linkThumb
  | tBlPrefix => exact preservesMemory_tBlPrefix _
  | tBlxSuffix => exact preservesMemory_tBlxSuffix _

end
end Sys2Proof.Machine

/-! ### Memory across a step -/
namespace Sys2Proof.Machine
section

variable {s t : State} {r : Result}

/-! ### Before the instruction -/

/-- A step begins by letting some buffered writes reach memory (20_memory.md R142). -/
theorem memoryKept_beginStep (s : State) : MemoryKept s s.beginStep := by
  unfold State.beginStep
  dsimp only
  split
  · exact ⟨id⟩
  · refine .trans ?_ (memoryKept_retire _ _)
    exact ⟨id⟩

theorem memoryKept_abortDue (s : State) : MemoryKept s s.abortDue.2 := by
  unfold State.abortDue
  split
  · exact .refl s
  · split <;> exact ⟨id⟩

theorem memoryKept_asyncDelay (s : State) : MemoryKept s s.asyncDelay.2 := by
  unfold State.asyncDelay
  split
  · split <;> exact ⟨id⟩
  · exact .refl s

theorem memoryKept_takeAsync (s : State) : MemoryKept s s.takeAsync := by
  unfold State.takeAsync
  split
  · exact memoryKept_debugEntry s _ _
  · split <;> exact memoryKept_takeException _ s

theorem memoryKept_asyncEvents (s : State) : MemoryKept s (asyncEvents s).1 := by
  have h := memoryKept_asyncDelay s
  unfold asyncEvents
  split
  · next t e => rw [e] at h; exact ⟨h.inv⟩
  · next t e =>
    rw [e] at h
    have ht : MemoryKept s { t with asyncWait := none } := ⟨h.inv⟩
    exact ht.trans (memoryKept_takeAsync _)
  · next n t e => rw [e] at h; exact ⟨h.inv⟩

theorem memoryKept_holdBreak (s : State) : MemoryKept s s.holdBreak := ⟨id⟩

theorem memoryKept_boundary (s : State) : MemoryKept s (boundary s).1 := by
  have ha := (memoryKept_holdBreak s).trans (memoryKept_abortDue s.holdBreak)
  unfold boundary
  dsimp only
  split
  · refine .trans ?_ (memoryKept_haltEntry _ _ _)
    exact ⟨id⟩
  · split
    · next code t e =>
      rw [e] at ha
      split
      · exact ⟨(ha.trans (memoryKept_stickyAbort t code none none)).inv⟩
      · exact ha.trans (memoryKept_takeException _ t)
    · next t e =>
      rw [e] at ha
      split
      · exact ha.trans (memoryKept_debugEntry t _ _)
      · exact ha.trans (memoryKept_asyncEvents t)

/-! ### After the instruction -/

theorem memoryKept_traceFlow (s : State) : MemoryKept s s.traceFlow := by
  unfold State.traceFlow
  split
  · exact memoryKept_traceInstr s
  · exact memoryKept_traceDirect s _
  · exact memoryKept_traceIndirect s _
  · exact .refl s
  · exact .refl s

theorem memoryKept_countEvent (n : Tally) (c : Word) (s : State) : MemoryKept s (countEvent n c s).2.2 := by
  cases n <;> exact ⟨id⟩

theorem memoryKept_countStep (s : State) (executed sameMode : Bool) : MemoryKept s (s.countStep executed sameMode) := by
  unfold State.countStep
  split
  · exact ((memoryKept_countEvent _ _ s).trans (memoryKept_countEvent _ _ _)).trans ⟨id⟩
  · exact .refl s

theorem memoryKept_dataBreakEntry (s : State) : MemoryKept s s.dataBreakEntry := by
  unfold State.dataBreakEntry
  split
  · exact memoryKept_debugEntry s _ _
  · exact .refl s

theorem memoryKept_scrambleR13Dbg (s : State) (was : Bool) : MemoryKept s (s.scrambleR13Dbg was) := by
  unfold State.scrambleR13Dbg
  split <;> exact ⟨id⟩

theorem memoryKept_endStep (s : State) (executed : Bool) (t : State) : MemoryKept t (endStep s executed t) := by
  have traced : MemoryKept t (if s.tracing then t.traceFlow else t) := by
    split
    · exact memoryKept_traceFlow t
    · exact .refl t
  have counted (u : State) (b : Bool) : MemoryKept u (if s.pmu.pmnc.getLsbD 0 then u.countStep executed b else u) := by
    split
    · exact memoryKept_countStep u executed b
    · exact .refl u
  exact ((traced.trans (counted _ _)).trans (memoryKept_dataBreakEntry _)).trans (memoryKept_scrambleR13Dbg _ _)

theorem preservesMemory_endInstr (h : PreservesMemory t r) : PreservesMemory t (endInstr s r) := by
  cases r with
  | next t' =>
    exact preservesMemory_ite (preservesMemory_fault _)
      (preservesMemory_next ((h t' rfl).trans (memoryKept_endStep s true t')))
  | fault f => exact preservesMemory_fault f
  | refused r => exact preservesMemory_refused r

theorem preservesMemory_endEntry (h : PreservesMemory t r) : PreservesMemory t (endEntry s r) := by
  cases r with
  | next t' =>
    have ht : MemoryKept t { t' with bankHazard := false } := ⟨(h t' rfl).inv⟩
    exact preservesMemory_next (ht.trans (memoryKept_endStep s false _))
  | fault f => exact preservesMemory_fault f
  | refused r => exact preservesMemory_refused r

/-! ### A step of the core -/

theorem preservesMemory_rejectWord (s : State) (w : Word) (r : Reject) : PreservesMemory s (rejectWord s w r) := by
  refine preservesMemory_ite ?_ (preservesMemory_next ⟨id⟩)
  cases r with
  | shouldBe => exact preservesMemory_refused _
  | bkptCondition => exact preservesMemory_refused _
  | unallocated => exact preservesMemory_undefined (.refl s)

theorem preservesMemory_fetchFailed (e : Trap) (s : State) : PreservesMemory s (fetchFailed e s) := by
  unfold fetchFailed
  split
  · exact preservesMemory_ite (preservesMemory_fault _) (preservesMemory_takeException (.refl s) _)
  · exact preservesMemory_endTrap (.refl s) _

theorem preservesMemory_runFetched (s : State) : PreservesMemory s (runFetched s) := by
  obtain ⟨hok, herror⟩ := memoryKept_fetch s
  unfold runFetched
  split
  · next e t hf => exact preservesMemory_endEntry (.after (herror e t hf) (preservesMemory_fetchFailed e t))
  · next w t hf =>
    have ht : MemoryKept s { t with bankHazard := false } := ⟨(hok w t hf).inv⟩
    split
    · exact preservesMemory_ite (preservesMemory_fault _)
        (preservesMemory_endInstr (.after ht (preservesMemory_rejectWord _ w _)))
    · next i _ =>
      exact preservesMemory_ite (preservesMemory_fault _) (preservesMemory_unless
        (preservesMemory_endInstr (.after ht (exec_preservesMemory i _))))

theorem preservesMemory_runCore (s : State) : PreservesMemory s (runCore s) := by
  have h := (memoryKept_beginStep s).trans (memoryKept_boundary s.beginStep)
  unfold runCore
  split
  · next t e => rw [e] at h; exact preservesMemory_endEntry (preservesMemory_next h)
  · next t e =>
    rw [e] at h
    exact preservesMemory_ite (preservesMemory_fault _) (preservesMemory_ite
      (preservesMemory_endEntry (preservesMemory_next (h.trans (memoryKept_debugEntry t _ _))))
      (.after h (preservesMemory_runFetched t)))

theorem preservesMemory_coreTurn (s : State) : PreservesMemory s (coreTurn s) := by
  refine preservesMemory_ite (preservesMemory_next (.refl s)) ?_
  cases s.power with
  | sleep => exact preservesMemory_next (.refl s)
  | idle => exact preservesMemory_ite (preservesMemory_next ⟨id⟩) (preservesMemory_next (.refl s))
  | active => exact preservesMemory_runCore s

/-! ### Resets -/

/-- A processor reset leaves memory and empties the write buffer (70_reset_and_hazards.md R945). -/
theorem memoryKept_processorReset (s : State) : MemoryKept s s.processorReset := ⟨fun h => ⟨h.1, Nat.zero_le 8⟩⟩

theorem memoryKept_updateReset (s : State) : MemoryKept s s.updateReset := by
  have h := memoryKept_processorReset s
  unfold State.updateReset
  split
  · exact ⟨h.inv⟩
  · split
    · exact ⟨h.inv⟩
    · exact .refl s

theorem memoryKept_jtagReset (s : State) : MemoryKept s s.jtagReset := by
  refine .trans ?_ (memoryKept_updateReset _)
  exact ⟨id⟩

theorem memoryKept_updatePins (s : State) : MemoryKept s s.updatePins := by
  unfold State.updatePins
  split
  · split <;> exact ⟨id⟩
  · split
    · split
      · exact memoryKept_jtagReset s
      · exact .refl s
    · exact memoryKept_updateReset s

/-! ### The debugger and the test port -/

theorem MemoryKept.hostRx (h : MemoryKept s t) (data : Word) : MemoryKept s (t.hostRx data) := by
  unfold State.hostRx
  dsimp only
  split <;> exact ⟨h.inv⟩

/-- Only the test port differs. -/
theorem MemoryKept.jtag (h : MemoryKept s t) (j : Jtag) : MemoryKept s { t with jtag := j } := ⟨h.inv⟩

theorem memoryKept_hostDcsr (s : State) (v : Word) (brk hold : Bool) : MemoryKept s (s.hostDcsr v brk hold) := by
  refine .trans ?_ (memoryKept_updateReset _)
  exact ⟨id⟩

theorem preservesMemory_ldicApply (h : MemoryKept s t) (f : LdicFunction) (va : Word) (words : List Word) (bad : BitVec 8) :
    PreservesMemory s (ldicApply t f va words bad) := by
  cases f with
  | invalidateLine | invalidateMini => exact preservesMemory_next ⟨h.inv⟩
  | loadMain | loadMini => exact preservesMemory_unless (preservesMemory_next ⟨h.inv⟩)

theorem memoryKept_captureDr (s : State) : MemoryKept s s.captureDr := by
  unfold State.captureDr
  split
  · unfold State.captureDebug
    dsimp only
    split
    · exact ⟨id⟩
    · split
      · split <;> exact ⟨id⟩
      · exact ⟨id⟩
  all_goals exact ⟨id⟩

theorem memoryKept_shiftDr (s : State) (tdi : Bool) : MemoryKept s (s.shiftDr tdi) := by
  unfold State.shiftDr
  dsimp only
  split
  case h_4 => split <;> exact ⟨id⟩
  all_goals exact ⟨id⟩

theorem memoryKept_updateDebug (s : State) : MemoryKept s s.updateDebug := by
  unfold State.updateDebug
  dsimp only
  split
  · refine .trans ?_ (memoryKept_hostDcsr _ _ _ _)
    exact ⟨id⟩
  · split
    · split <;> exact ⟨id⟩
    · generalize (if Config.flushIsBit1 then _ else _ : Bool) = flush
      generalize (if Config.flushIsBit1 then _ else _ : Bool) = d
      split
      · refine (MemoryKept.hostRx ?_ _).jtag _
        cases flush <;> exact ⟨id⟩
      · cases flush <;> exact ⟨id⟩

theorem preservesMemory_updateLdic (s : State) : PreservesMemory s s.updateLdic := by
  have applied (j : Jtag) (f : LdicFunction) (va : Word) (words : List Word) (bad : BitVec 8) :
      PreservesMemory s (ldicApply { s with jtag := j } f va words bad) :=
    preservesMemory_ldicApply ((MemoryKept.refl s).jtag j) f va words bad
  refine preservesMemory_unless ?_
  split
  · exact preservesMemory_next (.refl s)
  · dsimp only
    split
    · exact applied _ _ _ _ _
    · exact applied _ _ _ _ _
    · exact preservesMemory_ite (preservesMemory_next ⟨id⟩) (applied _ _ _ _ _)
    · exact preservesMemory_ite (preservesMemory_next ⟨id⟩) (applied _ _ _ _ _)
    · exact preservesMemory_refused _

theorem preservesMemory_latchIr (s : State) (ir : BitVec 5) : PreservesMemory s (s.latchIr ir) :=
  preservesMemory_unless (preservesMemory_next ⟨id⟩)

theorem preservesMemory_updateDr (s : State) : PreservesMemory s s.updateDr := by
  unfold State.updateDr
  cases dataRegOf s.jtag.ir with
  | dbgSr => exact preservesMemory_next (memoryKept_updateDebug s)
  | ldic => exact preservesMemory_updateLdic s
  | boundary | ident | bypass | none => exact preservesMemory_next ⟨id⟩

theorem preservesMemory_assertTrst (s : State) : PreservesMemory s s.assertTrst :=
  preservesMemory_unless (preservesMemory_next (memoryKept_jtagReset s))

theorem preservesMemory_tckEdge (s : State) (tms tdi : Bool) : PreservesMemory s (tckEdge s tms tdi) := by
  have entered (tap : TapState) (ir : BitVec 5) {t : State} (h : MemoryKept s t) : PreservesMemory s
      (match tap with
      | .testLogicReset => t.latchIr 0b11110#5
      | .updateDr => t.updateDr
      | .updateIr => t.latchIr ir
      | _ => .next t) := by
    split
    · exact .after h (preservesMemory_latchIr t _)
    · exact .after h (preservesMemory_updateDr t)
    · exact .after h (preservesMemory_latchIr t _)
    · exact preservesMemory_next h
  have ticked := (MemoryKept.refl s).jtag { s.jtag with tdo := none, ldicDrain := s.jtag.ldicDrain - 1 }
  unfold tckEdge
  dsimp only
  split
  · exact entered _ _ ((ticked.trans (memoryKept_captureDr _)).jtag _)
  · exact entered _ _ ((ticked.trans (memoryKept_shiftDr _ _)).jtag _)
  · exact entered _ _ ⟨id⟩
  · exact entered _ _ ⟨id⟩
  · exact entered _ _ ⟨id⟩

/-! ### Outside events -/

theorem memoryKept_fetchAhead (s : State) (n : Nat) : MemoryKept s (s.fetchAhead n) := by
  obtain ⟨hok, herror⟩ := memoryKept_fetch { s with pc := s.fetchPath n, scratch := Scratch.clear }
  have counted {t : State} (h : MemoryKept { s with pc := s.fetchPath n, scratch := Scratch.clear } t) :
      MemoryKept s { t.countStep false true with pc := s.pc, scratch := s.scratch } :=
    ⟨(h.trans (memoryKept_countStep t false true)).inv⟩
  unfold State.fetchAhead
  dsimp only
  split
  · exact .refl s
  · split
    · next hf => exact counted (hok _ _ hf)
    · next hf => exact counted (herror _ _ hf)
    · exact .refl s

theorem preservesMemory_outsideEvent (op : HostOp) (s : State) : PreservesMemory s (outsideEvent op s) := by
  refine preservesMemory_ite (preservesMemory_next (.refl s)) ?_
  cases op with
  | resetPin a =>
    refine preservesMemory_next (.trans ?_ (memoryKept_updatePins _))
    exact ⟨id⟩
  | faultPins batt vdd =>
    refine preservesMemory_next (.trans ?_ (memoryKept_updatePins _))
    exact ⟨id⟩
  | trst => exact preservesMemory_assertTrst s
  | trstPin a =>
    refine preservesMemory_ite (.after ?_ (preservesMemory_assertTrst _)) (preservesMemory_next ⟨id⟩)
    exact ⟨id⟩
  | lines | wake | masterBetween | deviceReply | flipInstrParity | readDcsr | readTx | pollRr | setD | flushRx | idcode =>
    exact preservesMemory_next ⟨id⟩
  | masterWrite pa bytes => exact preservesMemory_next (dataOnly_masterWrite s pa bytes).memory
  | fetchAhead n => exact preservesMemory_next (memoryKept_fetchAhead s n)
  | flipDataParity mva =>
    dsimp only
    split
    · exact preservesMemory_next (dataOnly_setDLine s _ _ _).memory
    · exact preservesMemory_next (.refl s)
  | writeDcsr v brk hold => exact preservesMemory_next (memoryKept_hostDcsr s v brk hold)
  | writeRx data d =>
    refine preservesMemory_next (MemoryKept.hostRx ?_ data)
    exact ⟨id⟩
  | ldic f va words bad => exact preservesMemory_ldicApply (.refl s) f va words bad
  | tck tms tdi => exact preservesMemory_tckEdge s tms tdi

/-! ### A step -/

theorem step_preservesMemory (s : State) : PreservesMemory s (step s) := by
  have turn : MemoryKept s s.takeTurn := ⟨id⟩
  unfold step
  split
  · exact .after turn (preservesMemory_outsideEvent _ _)
  · exact .after turn (preservesMemory_coreTurn _)
  · exact preservesMemory_coreTurn s

end

/-- Settles O55: every part of a step keeps memory canonical and the write buffer within its eight entries
(`step_preservesMemory`). -/
theorem stepKeepsMemory : Obligations.StepKeepsMemory := fun s t hs h => (step_preservesMemory s t h).inv hs

end Sys2Proof.Machine

/-!
SUPPORT. Precise data aborts of single transfers (20_memory.md R131; 21_mmu_caches_tlb.md R181 to R192;
60_exceptions.md R873, R880): what the table walk answers for each descriptor, where an access is cut short, and what the
exception then leaves.
-/

namespace Sys2Proof.Machine
section

variable {α β : Type} {s t u : State} {mva mask code : Word}

/-! ### The exception a data abort takes -/

/-- The state differs in the data TLB and the model's own notes alone: what an access may have done before it is cut
short. -/
def OnlyNoted (s t : State) : Prop := ∃ notes n b, t = { s with scratch := notes, freeCtr := n, dtlb := b }

theorem OnlyNoted.refl (s : State) : OnlyNoted s s := ⟨s.scratch, s.freeCtr, s.dtlb, rfl⟩

/-- The FSR of a report (60_exceptions.md R871). -/
def faultStatus (c : BitVec 5) (domain : BitVec 4) : Word :=
  0#21 ++ c.extractLsb' 4 1 ++ 0#1 ++ 0#1 ++ domain ++ c.extractLsb' 0 4

/-- With debugging disabled an exception reports and enters, and leaves no trace message (60_exceptions.md R880). -/
theorem takeException_of_debugOff (h : s.debugOn = false) (e : Exception) :
    takeException e s = e.enterFrom (e.report s) := by
  have hreport : (e.report s).debugOn = false := by
    obtain ⟨_, _, _, hr⟩ := report_rest e s
    rw [hr]
    exact h
  have henter : (e.enterFrom (e.report s)).debugOn = false := by
    cases e <;> exact hreport
  simp only [takeException_eq, exceptionTrace_of_off (tracing_of_debugOff hreport), trapped_of_debugOff henter,
    Bool.false_eq_true, if_false]

/-- Entering a mode is what an exception leaves (60_exceptions.md R880). -/
theorem entered_enter (s : State) (m : Mode) (offset link : Word) (f : Bool) :
    Entered m offset link f s (s.enter m link f (s.vectorBase + offset)) := by
  have rest := enter_rest (s := s) m link f (s.vectorBase + offset)
  refine ⟨enter_link .., fun i hi => ?_, enter_spsr _ _ _ _, enter_mode .., enter_thumb .., enter_maskI .., enter_maskF ..,
    entryCpsr_high .., rfl, rest.bytes, ?_⟩
  · rw [Vector.ext_iff.1 (enter_gpr (s := s) m link f _) i.val i.isLt]
    exact Vector.getElem_set_ne _ _ fun e => hi (Fin.ext e.symm)
  · cases m <;> rfl

/-- Fault registers, data TLB and notes may have changed before the entry. -/
theorem Entered.of_noted {m : Mode} {offset link : Word} {f : Bool} {a b : Word} {n : Nat} {notes : Scratch} {d : Tlb}
    (hu : u = { s with cp15 := { s.cp15 with fsr := a, far := b }, freeCtr := n, scratch := notes, dtlb := d })
    (h : Entered m offset link f u t) : Entered m offset link f s { t with dtlb := s.dtlb } := by
  subst hu
  obtain ⟨hlink, hregs, hspsr, hmode, hthumb, hI, hF, hcpsr, hpc, hbytes, hrest⟩ := h
  refine ⟨hlink, hregs, hspsr, hmode, hthumb, hI, hF, hcpsr, hpc, hbytes, ?_⟩
  exact congrArg (fun x : State => { x with
    cp15 := { x.cp15 with fsr := s.cp15.fsr, far := s.cp15.far }, freeCtr := s.freeCtr, scratch := s.scratch,
    dtlb := s.dtlb }) hrest

theorem offset_dataAbort (c : BitVec 5) (domain : Option (BitVec 4)) (far : Option Word) :
    (Exception.dataAbort c domain far).offset = 0x10#32 := by
  change (0#27 ++ 4#3 ++ 0#2 : Word) = 0x10#32
  decide

/-- The entry of a data abort, as the table of R882 has it. -/
theorem entered_enterFrom_dataAbort (c : BitVec 5) (domain : Option (BitVec 4)) (far : Option Word) (s : State) :
    Entered .abt 0x10#32 (s.pc + 8#32) false s ((Exception.dataAbort c domain far).enterFrom s) := by
  obtain ⟨hlink, hregs, hspsr, hmode, hthumb, hI, hF, hcpsr, -, hbytes, hrest⟩ :=
    entered_enter s .abt 0x10#32 (s.pc + 8#32) false
  exact ⟨hlink, hregs, hspsr, hmode, hthumb, hI, hF, hcpsr,
    congrArg (s.vectorBase + ·) (offset_dataAbort c domain far), hbytes, hrest⟩

/-- What a report with a valid fault address leaves where an access was cut short: the FSR, whose domain is free where
it is not valid, and the FAR. -/
theorem OnlyNoted.report (hu : OnlyNoted s u) (c : BitVec 5) (domain : Option (BitVec 4)) (far : Word) :
    ∃ free n notes d, u.reportFault c domain (some far) =
      { s with cp15 := { s.cp15 with fsr := faultStatus c (domain.getD free), far := far }, freeCtr := n,
               scratch := notes, dtlb := d } := by
  obtain ⟨notes, n, d, rfl⟩ := hu
  unfold State.reportFault
  cases domain <;> exact ⟨_, _, _, _, rfl⟩

/-- What a precise data abort leaves, taken where an access was cut short (60_exceptions.md R873, R880). -/
theorem entered_dataAbort (hu : OnlyNoted s u) (hd : s.debugOn = false) (c : BitVec 5) (domain : Option (BitVec 4))
    (far : Word) : ∃ free t, takeException (.dataAbort c domain (some far)) u = t ∧
      Entered .abt 0x10#32 (s.pc + 8#32) false s { t with dtlb := s.dtlb } ∧
      t.cp15.fsr = faultStatus c (domain.getD free) ∧ t.cp15.far = far := by
  obtain ⟨free, n, notes, d, hr⟩ := hu.report c domain far
  have hud : u.debugOn = false := by
    obtain ⟨_, _, _, rfl⟩ := hu
    exact hd
  have hlink : (u.reportFault c domain (some far)).pc = s.pc := by rw [hr]
  refine ⟨free, _, takeException_of_debugOff hud _, ?_, ?_, ?_⟩
  · rw [← hlink]
    exact (entered_enterFrom_dataAbort c domain (some far) _).of_noted hr
  · exact congrArg (·.cp15.fsr) hr
  · exact congrArg (·.cp15.far) hr

end
end Sys2Proof.Machine

/-! ### The table walk and the checks, descriptor by descriptor -/
namespace Sys2Proof.Machine
section

variable {s : State} {l1 l2 mva : Word} {domain : BitVec 4} {priv write : Bool}

/-! ### The walk (21_mmu_caches_tlb.md R181 to R187) -/

theorem readDescriptor_busError {a : Word} (h : s.regionAt a 4 = some .busError) (code : BitVec 5)
    (d : Option (BitVec 4)) (mva : Word) :
    readDescriptor a code d mva s = .error (.dataAbort code d (some mva)) s := by
  simp only [readDescriptor, h]

theorem readDescriptor_memory {a : Word} (h : s.regionAt a 4 = none) (code : BitVec 5) (d : Option (BitVec 4))
    (mva : Word) : readDescriptor a code d mva s = .ok (memWord s.mem a) s := by
  simp only [readDescriptor, h]

theorem walk_busError (h : s.regionAt (s.l1Address mva) 4 = some .busError) :
    walk mva s = .error (.dataAbort 0b01100#5 none (some mva)) s := by
  simp only [walk, bind, EStateM.bind, get, getThe, MonadStateOf.get, EStateM.get, readDescriptor_busError h]

theorem walk_memory (h : s.regionAt (s.l1Address mva) 4 = none) : walk mva s = walkFrom (s.firstLevel mva) mva s := by
  simp only [walk, bind, EStateM.bind, get, getThe, MonadStateOf.get, EStateM.get, readDescriptor_memory h]
  rfl

theorem walkFrom_fault (h : l1.extractLsb' 0 2 = 0#2) :
    walkFrom l1 mva s = .error (.dataAbort 0b00101#5 none (some mva)) s := by
  simp only [walkFrom, h, if_true, ofExcept]

/-- A first-level descriptor of a table: the second-level one is read and decides. -/
theorem walkFrom_table (h : l1.extractLsb' 0 2 = 1#2 ∨ l1.extractLsb' 0 2 = 3#2) (h9 : l1.getLsbD 9 = false) :
    walkFrom l1 mva s = (readDescriptor (secondAddress l1 mva) 0b01110#5 (some (l1.extractLsb' 5 4)) mva >>= fun l2 =>
      ofExcept (secondLevel l2 (l1.extractLsb' 0 2 == 3#2) (l1.extractLsb' 5 4) mva)) s := by
  rcases h with h | h <;> simp [walkFrom, secondAddress, h, h9, -BitVec.getLsbD_eq_getElem]

theorem walkFrom_tableBusError (h : l1.extractLsb' 0 2 = 1#2 ∨ l1.extractLsb' 0 2 = 3#2) (h9 : l1.getLsbD 9 = false)
    (hr : s.regionAt (secondAddress l1 mva) 4 = some .busError) :
    walkFrom l1 mva s = .error (.dataAbort 0b01110#5 (some (l1.extractLsb' 5 4)) (some mva)) s := by
  simp only [walkFrom_table h h9, bind, EStateM.bind, readDescriptor_busError hr]

theorem walkFrom_tableMemory (h : l1.extractLsb' 0 2 = 1#2 ∨ l1.extractLsb' 0 2 = 3#2) (h9 : l1.getLsbD 9 = false)
    (hr : s.regionAt (secondAddress l1 mva) 4 = none) :
    walkFrom l1 mva s = ofExcept (secondLevel (memWord s.mem (secondAddress l1 mva)) (l1.extractLsb' 0 2 == 3#2)
      (l1.extractLsb' 5 4) mva) s := by
  simp only [walkFrom_table h h9, bind, EStateM.bind, readDescriptor_memory hr]

theorem secondLevel_fault (h : l2.extractLsb' 0 2 = 0#2) (fine : Bool) (domain : BitVec 4) (mva : Word) :
    secondLevel l2 fine domain mva = .error (.dataAbort 0b00111#5 (some domain) (some mva)) := by
  simp [secondLevel, h]

/-! ### What a translation grants -/

/-- The domain of a translation, whether it is a section, and the access permission of the sub-page an address is in. -/
structure TlbEntry.Grants (e : TlbEntry) (mva : Word) (sec : Bool) (domain : BitVec 4) (ap : BitVec 2) : Prop where
  size : (e.size == .section1M) = sec
  domain : e.domain = domain
  ap : e.apFor mva = ap

theorem oneAp_low (ap : BitVec 2) : (oneAp ap).extractLsb' 0 2 = ap := by
  revert ap
  decide

theorem oneAp_quarter (ap q : BitVec 2) : (oneAp ap).extractLsb' (2 * q.toNat) 2 = ap := by
  revert ap q
  decide

/-- The permission of a quarter of a page, in its descriptor. -/
theorem extract_quarter (w : Word) (q : BitVec 2) :
    (w.extractLsb' 4 8).extractLsb' (2 * q.toNat) 2 = w.extractLsb' (4 + 2 * q.toNat) 2 := by
  have hq := q.isLt
  apply BitVec.eq_of_getLsbD_eq
  intro i hi
  simp only [BitVec.getLsbD_extractLsb', hi, decide_true, Bool.true_and, show 2 * q.toNat + i < 8 by omega,
    Nat.add_assoc]

theorem walkFrom_section (h : l1.extractLsb' 0 2 = 2#2) (h9 : l1.getLsbD 9 = false) :
    ∃ e, walkFrom l1 mva s = .ok e s ∧ e.Grants mva true (l1.extractLsb' 5 4) (l1.extractLsb' 10 2) := by
  refine ⟨_, by simp only [walkFrom, h, h9]; rfl, ?_⟩
  exact ⟨rfl, rfl, oneAp_low _⟩

theorem secondLevel_large (h : l2.extractLsb' 0 2 = 1#2) (fine : Bool) (domain : BitVec 4) (mva : Word) :
    ∃ e, secondLevel l2 fine domain mva = .ok e ∧
      e.Grants mva false domain (l2.extractLsb' (4 + 2 * (mva.extractLsb' 14 2).toNat) 2) := by
  refine ⟨_, by simp only [secondLevel, h]; rfl, ?_⟩
  exact ⟨rfl, rfl, extract_quarter ..⟩

theorem secondLevel_small (h : l2.extractLsb' 0 2 = 2#2) (fine : Bool) (domain : BitVec 4) (mva : Word) :
    ∃ e, secondLevel l2 fine domain mva = .ok e ∧
      e.Grants mva false domain (l2.extractLsb' (4 + 2 * (mva.extractLsb' 10 2).toNat) 2) := by
  refine ⟨_, by simp only [secondLevel, h]; rfl, ?_⟩
  exact ⟨rfl, rfl, extract_quarter ..⟩

/-- A tiny page, or an extended small page in a coarse table: one permission for the whole page. -/
theorem secondLevel_uniform (h : l2.extractLsb' 0 2 = 3#2) (fine : Bool) (domain : BitVec 4) (mva : Word) :
    ∃ e, secondLevel l2 fine domain mva = .ok e ∧ e.Grants mva false domain (l2.extractLsb' 4 2) := by
  refine ⟨_, by simp only [secondLevel, h]; rfl, ?_, rfl, ?_⟩ <;> cases fine
  · rfl
  · rfl
  · exact oneAp_quarter _ _
  · exact oneAp_low _

/-! ### Domain and permission (21_mmu_caches_tlb.md R187, R192) -/

theorem permits_of_denied {ap : BitVec 2} (h : s.denied ap priv write = true) :
    permits ap s.systemProt s.romProt priv write = some false := by
  revert h
  unfold State.denied State.permitted permits
  generalize s.systemProt = sys, s.romProt = rom
  revert ap sys rom priv write
  decide

theorem checkAccess_noDomain {e : TlbEntry} {sec : Bool} {ap : BitVec 2} (he : e.Grants mva sec domain ap)
    (h : s.domainOf domain = 0 ∨ s.domainOf domain = 2) :
    checkAccess s e mva priv write =
      .error (.dataAbort (if sec then 0b01001#5 else 0b01011#5) (some domain) (some mva)) := by
  obtain ⟨rfl, rfl, rfl⟩ := he
  unfold State.domainOf at h
  unfold checkAccess
  rcases h with h | h <;> simp only [h]

theorem checkAccess_denied {e : TlbEntry} {sec : Bool} {ap : BitVec 2} (he : e.Grants mva sec domain ap)
    (h : s.domainOf domain = 1) (hd : s.denied ap priv write = true) :
    checkAccess s e mva priv write =
      .error (.dataAbort (if sec then 0b01101#5 else 0b01111#5) (some domain) (some mva)) := by
  obtain ⟨rfl, rfl, rfl⟩ := he
  unfold State.domainOf at h
  unfold checkAccess
  simp only [h, permits_of_denied hd]

end
end Sys2Proof.Machine

/-! ### Where an access is cut short -/
namespace Sys2Proof.Machine
section

variable {α β : Type} {s t u : State} {l1 mva mask code : Word} {priv write : Bool}

/-- A computation ends with a precise data abort at a fault address, and has changed no more than the data TLB and the
model's notes; under the mask, the FSR of its report is the code, whatever a domain that is not valid reads. -/
def CutShort (x : Exec α) (s : State) (mva mask code : Word) : Prop :=
  ∃ c domain t, x s = .error (.dataAbort c domain (some mva)) t ∧ OnlyNoted s t ∧
    ∀ free, faultStatus c (domain.getD free) &&& mask = code

theorem OnlyNoted.trans (h : OnlyNoted s t) (h' : OnlyNoted t u) : OnlyNoted s u := by
  obtain ⟨_, _, _, rfl⟩ := h
  obtain ⟨notes, n, b, rfl⟩ := h'
  exact ⟨notes, n, b, rfl⟩

theorem CutShort.bind {x : Exec α} (h : CutShort x s mva mask code) (f : α → Exec β) :
    CutShort (x >>= f) s mva mask code := by
  obtain ⟨c, domain, t, hx, hrest⟩ := h
  exact ⟨c, domain, t, by simp only [Bind.bind, EStateM.bind, hx], hrest⟩

/-- Outside Special Debug State an abort is not ignored (48_debug_jtag.md R812). -/
theorem CutShort.ignoreAbortInSds {x : Exec α} (h : CutShort x s mva mask code) (hs : s.dbgUnit.sds = false)
    (answer : Exec α) : CutShort (ignoreAbortInSds x answer) s mva mask code := by
  obtain ⟨c, domain, t, hx, ht, hcode⟩ := h
  refine ⟨c, domain, t, ?_, ht, hcode⟩
  have hst : t.dbgUnit.sds = false := by
    obtain ⟨_, _, _, rfl⟩ := ht
    exact hs
  simp only [Machine.ignoreAbortInSds, hx, hst, Bool.false_eq_true, if_false]

/-! ### The FSR under the masks (60_exceptions.md R871, R873) -/

/-- Where the domain is valid the report is the code beside it. -/
theorem faultStatus_of_domain (status domain : BitVec 4) :
    faultStatus (0#1 ++ status) domain &&& 0xFFFFFFFF#32 = (0#28 ++ status) ||| (0#24 ++ domain ++ 0#4) := by
  revert status domain
  decide

/-- Bit 1 of an alignment fault's code and its domain are not specified. -/
theorem faultStatus_alignment (b : Bool) (free : BitVec 4) :
    faultStatus (0b000#3 ++ BitVec.ofBool b ++ 1#1) free &&& 0xFFFFFF0D#32 = 1#32 := by
  revert b free
  decide

/-- A first-level error has no valid domain. -/
theorem faultStatus_firstLevel (status free : BitVec 4) :
    faultStatus (0#1 ++ status) free &&& 0xFFFFFF0F#32 = 0#28 ++ status := by
  revert status free
  decide

/-! ### Translation -/

theorem lookup_of_empty {b : Tlb} (h : b.entries = []) (mva : Word) : b.lookup mva = none := by simp [Tlb.lookup, h]

theorem translateData_of_walk_error {e : Trap} (hm : s.mmuOn = true) (he : s.dtlb.entries = [])
    (hw : walk mva (s.noteTlbMiss false) = .error e (s.noteTlbMiss false)) :
    translateData mva priv write s = .error e (s.noteTlbMiss false) := by
  have hl : (s.tlb false).lookup mva = none := lookup_of_empty he mva
  simp only [translateData, translate, findEntry, bind, EStateM.bind, get, getThe, MonadStateOf.get, EStateM.get, hm,
    if_true, hl, set, MonadStateOf.set, EStateM.set, hw]

theorem translateData_of_check_error {e : Trap} {entry : TlbEntry} (hm : s.mmuOn = true) (he : s.dtlb.entries = [])
    (hw : walk mva (s.noteTlbMiss false) = .ok entry (s.noteTlbMiss false))
    (hc : checkAccess s entry mva priv write = .error e) :
    translateData mva priv write s = .error e { s.noteTlbMiss false with dtlb := s.dtlb.insert entry } := by
  have hl : (s.tlb false).lookup mva = none := lookup_of_empty he mva
  have hc : checkAccess { s.noteTlbMiss false with dtlb := s.dtlb.insert entry } entry mva priv write = .error e := hc
  simp only [translateData, translate, findEntry, bind, EStateM.bind, get, getThe, MonadStateOf.get, EStateM.get, hm,
    if_true, hl, set, MonadStateOf.set, EStateM.set, hw, modify, modifyGet, MonadStateOf.modifyGet, EStateM.modifyGet,
    pure, EStateM.pure]
  change EStateM.bind (ofExcept (checkAccess { s.noteTlbMiss false with dtlb := s.dtlb.insert entry } entry mva priv
    write)) _ _ = _
  rw [hc]
  rfl

theorem onlyNoted_noteTlbMiss (s : State) : OnlyNoted s (s.noteTlbMiss false) := ⟨_, s.freeCtr, s.dtlb, rfl⟩

theorem cutShort_of_walk_error {c : BitVec 5} {domain : Option (BitVec 4)} (hm : s.mmuOn = true)
    (he : s.dtlb.entries = [])
    (hw : walk mva (s.noteTlbMiss false) = .error (.dataAbort c domain (some mva)) (s.noteTlbMiss false))
    (hcode : ∀ free, faultStatus c (domain.getD free) &&& mask = code) :
    CutShort (translateData mva priv write) s mva mask code :=
  ⟨c, domain, _, translateData_of_walk_error hm he hw, onlyNoted_noteTlbMiss s, hcode⟩

theorem cutShort_of_check_error {c : BitVec 5} {domain : BitVec 4} {entry : TlbEntry} (hm : s.mmuOn = true)
    (he : s.dtlb.entries = []) (hw : walk mva (s.noteTlbMiss false) = .ok entry (s.noteTlbMiss false))
    (hc : checkAccess s entry mva priv write = .error (.dataAbort c (some domain) (some mva)))
    (hcode : faultStatus c domain &&& mask = code) : CutShort (translateData mva priv write) s mva mask code :=
  ⟨c, some domain, _, translateData_of_check_error hm he hw hc, ⟨_, s.freeCtr, _, rfl⟩, fun _ => hcode⟩

/-! ### The place of an access -/

theorem cutShort_dataPlace_unaligned (ha : s.alignCheck = true) {va : Word} (hu : (s.mva va).extractLsb' 0 2 ≠ 0#2)
    (priv write store : Bool) :
    CutShort (dataPlace va 4 priv write store) s (s.mva va) 0xFFFFFF0D#32 1#32 := by
  refine ⟨_, none, s.draw.2, ?_, ⟨s.scratch, _, s.dtlb, rfl⟩,
    faultStatus_alignment ((Config.freeWord s.freeCtr).getLsbD 0)⟩
  have hodd : ((s.mva va).extractLsb' 0 2 != 0#2) = true := bne_iff_ne.2 hu
  simp only [dataPlace, bind, EStateM.bind, get, getThe, MonadStateOf.get, EStateM.get, hodd, ha]
  rfl

theorem cutShort_dataPlace_aligned {va : Word} (hu : (s.mva va).extractLsb' 0 2 = 0#2) {store : Bool}
    (h : CutShort (translateData (s.mva va) priv write) s (s.mva va) mask code) :
    CutShort (dataPlace va 4 priv write store) s (s.mva va) mask code := by
  obtain ⟨c, domain, t, hx, hrest⟩ := h
  refine ⟨c, domain, t, ?_, hrest⟩
  simp only [dataPlace, bind, EStateM.bind, get, getThe, MonadStateOf.get, EStateM.get, hu, Nat.reduceBEq,
    bne_self_eq_false, Bool.false_and, Bool.and_false, Bool.or_false, Bool.false_eq_true, if_false, EStateM.bind, hx]

end
end Sys2Proof.Machine

/-! ### The clauses of O22, and the instructions they are about -/
namespace Sys2Proof.Machine
section

variable {α : Type} {s u : State} {l1 mva mask code : Word} {domain : BitVec 4} {ap : BitVec 2} {priv write : Bool}
  {aborts : Word → Word → Prop}

/-- What O22 says of a descriptor with a domain and a permission: a domain without access, and a permission that denies
this access. -/
def CheckClauses (s : State) (domain : BitVec 4) (ap : BitVec 2) (priv write : Bool) (aborts : Word → Word → Prop)
    (noDomain noPermission : Word) : Prop :=
  (s.domainOf domain = 0 ∨ s.domainOf domain = 2 → aborts 0xFFFFFFFF#32 (noDomain ||| (0#24 ++ domain ++ 0#4))) ∧
    (s.domainOf domain = 1 → s.denied ap priv write = true →
      aborts 0xFFFFFFFF#32 (noPermission ||| (0#24 ++ domain ++ 0#4)))

/-- What O22 says of a second-level descriptor in memory. -/
def PageClauses (s : State) (l2 mva : Word) (domain : BitVec 4) (priv write : Bool) (aborts : Word → Word → Prop) :
    Prop :=
  (l2.extractLsb' 0 2 = 0#2 → aborts 0xFFFFFFFF#32 (0x7#32 ||| (0#24 ++ domain ++ 0#4))) ∧
    (l2.extractLsb' 0 2 = 1#2 →
      CheckClauses s domain (l2.extractLsb' (4 + 2 * (mva.extractLsb' 14 2).toNat) 2) priv write aborts 0xB#32 0xF#32) ∧
    (l2.extractLsb' 0 2 = 2#2 →
      CheckClauses s domain (l2.extractLsb' (4 + 2 * (mva.extractLsb' 10 2).toNat) 2) priv write aborts 0xB#32 0xF#32) ∧
    (l2.extractLsb' 0 2 = 3#2 → CheckClauses s domain (l2.extractLsb' 4 2) priv write aborts 0xB#32 0xF#32)

/-- What O22 says of a first-level descriptor in memory. -/
def DescriptorClauses (s : State) (l1 mva : Word) (priv write : Bool) (aborts : Word → Word → Prop) : Prop :=
  (l1.extractLsb' 0 2 = 0#2 → aborts 0xFFFFFF0F#32 0x5#32) ∧
    (l1.extractLsb' 0 2 = 2#2 → l1.getLsbD 9 = false →
      CheckClauses s (l1.extractLsb' 5 4) (l1.extractLsb' 10 2) priv write aborts 0x9#32 0xD#32) ∧
    (l1.extractLsb' 0 2 = 1#2 ∨ l1.extractLsb' 0 2 = 3#2 → l1.getLsbD 9 = false →
      (s.regionAt (secondAddress l1 mva) 4 = some .busError →
        aborts 0xFFFFFFFF#32 (0xE#32 ||| (0#24 ++ l1.extractLsb' 5 4 ++ 0#4))) ∧
      (s.regionAt (secondAddress l1 mva) 4 = none →
        PageClauses s (memWord s.mem (secondAddress l1 mva)) mva (l1.extractLsb' 5 4) priv write aborts))

/-- What O22 says of an access, of what its fault leaves: `aborts` of the mask and the code of the FSR. -/
def FaultClauses (s : State) (mva : Word) (priv write : Bool) (aborts : Word → Word → Prop) : Prop :=
  (s.alignCheck = true → mva.extractLsb' 0 2 ≠ 0#2 → aborts 0xFFFFFF0D#32 1#32) ∧
    (mva.extractLsb' 0 2 = 0#2 → s.mmuOn = true → s.dtlb.entries = [] →
      (s.regionAt (s.l1Address mva) 4 = some .busError → aborts 0xFFFFFF0F#32 0xC#32) ∧
      (s.regionAt (s.l1Address mva) 4 = none → DescriptorClauses s (s.firstLevel mva) mva priv write aborts))

/-! ### Translations that are cut short -/

/-- A translation that the walk finds, under the checks of its domain and permission. -/
theorem checkClauses_cutShort {entry : TlbEntry} {sec : Bool} (hm : s.mmuOn = true) (he : s.dtlb.entries = [])
    (hw : walk mva (s.noteTlbMiss false) = .ok entry (s.noteTlbMiss false)) (hg : entry.Grants mva sec domain ap) :
    CheckClauses s domain ap priv write (CutShort (translateData mva priv write) s mva)
      (if sec then 0x9#32 else 0xB#32) (if sec then 0xD#32 else 0xF#32) := by
  refine ⟨fun hd => ?_, fun hd hp => ?_⟩
  · refine cutShort_of_check_error hm he hw (checkAccess_noDomain hg hd) ?_
    cases sec
    · exact faultStatus_of_domain 0b1011#4 domain
    · exact faultStatus_of_domain 0b1001#4 domain
  · refine cutShort_of_check_error hm he hw (checkAccess_denied hg hd hp) ?_
    cases sec
    · exact faultStatus_of_domain 0b1111#4 domain
    · exact faultStatus_of_domain 0b1101#4 domain

/-- A second-level descriptor that the walk reads. -/
theorem pageClauses_cutShort {l2 : Word} {fine : Bool} (hm : s.mmuOn = true) (he : s.dtlb.entries = [])
    (hw : walk mva (s.noteTlbMiss false) = ofExcept (secondLevel l2 fine domain mva) (s.noteTlbMiss false)) :
    PageClauses s l2 mva domain priv write (CutShort (translateData mva priv write) s mva) := by
  have checked {ap : BitVec 2}
      (h : ∃ entry, secondLevel l2 fine domain mva = .ok entry ∧ entry.Grants mva false domain ap) :
      CheckClauses s domain ap priv write (CutShort (translateData mva priv write) s mva) 0xB#32 0xF#32 := by
    obtain ⟨entry, hl, hg⟩ := h
    exact checkClauses_cutShort hm he (hw.trans (by rw [hl]; rfl)) hg
  refine ⟨fun h => ?_, fun h => checked (secondLevel_large h fine domain mva),
    fun h => checked (secondLevel_small h fine domain mva), fun h => checked (secondLevel_uniform h fine domain mva)⟩
  exact cutShort_of_walk_error (domain := some domain) hm he (hw.trans (by rw [secondLevel_fault h]; rfl))
    fun _ => faultStatus_of_domain 0b0111#4 domain

/-- A first-level descriptor that the walk reads. -/
theorem descriptorClauses_cutShort (hm : s.mmuOn = true) (he : s.dtlb.entries = [])
    (hw : walk mva (s.noteTlbMiss false) = walkFrom l1 mva (s.noteTlbMiss false)) :
    DescriptorClauses s l1 mva priv write (CutShort (translateData mva priv write) s mva) := by
  refine ⟨fun h => ?_, fun h h9 => ?_, fun h h9 => ⟨fun hr => ?_, fun hr => ?_⟩⟩
  · exact cutShort_of_walk_error hm he (hw.trans (walkFrom_fault h)) (faultStatus_firstLevel 0b0101#4)
  · obtain ⟨entry, hl, hg⟩ := walkFrom_section (s := s.noteTlbMiss false) (mva := mva) h h9
    exact checkClauses_cutShort hm he (hw.trans hl) hg
  · exact cutShort_of_walk_error hm he (hw.trans (walkFrom_tableBusError h h9 hr))
      fun _ => faultStatus_of_domain 0b1110#4 _
  · exact pageClauses_cutShort hm he (hw.trans (walkFrom_tableMemory h h9 hr))

/-! ### From a translation to what follows from it -/

theorem CheckClauses.mono {aborts' : Word → Word → Prop} {a b : Word}
    (h : ∀ mask code, aborts mask code → aborts' mask code) (hc : CheckClauses s domain ap priv write aborts a b) :
    CheckClauses s domain ap priv write aborts' a b :=
  ⟨fun hd => h _ _ (hc.1 hd), fun hd hp => h _ _ (hc.2 hd hp)⟩

theorem PageClauses.mono {aborts' : Word → Word → Prop} {l2 : Word}
    (h : ∀ mask code, aborts mask code → aborts' mask code) (hc : PageClauses s l2 mva domain priv write aborts) :
    PageClauses s l2 mva domain priv write aborts' := by
  obtain ⟨fault, large, small, uniform⟩ := hc
  exact ⟨fun h2 => h _ _ (fault h2), fun h2 => (large h2).mono h, fun h2 => (small h2).mono h,
    fun h2 => (uniform h2).mono h⟩

theorem DescriptorClauses.mono {aborts' : Word → Word → Prop}
    (h : ∀ mask code, aborts mask code → aborts' mask code) (hc : DescriptorClauses s l1 mva priv write aborts) :
    DescriptorClauses s l1 mva priv write aborts' := by
  obtain ⟨fault, sections, tables⟩ := hc
  exact ⟨fun h1 => h _ _ (fault h1), fun h1 h9 => (sections h1 h9).mono h,
    fun h1 h9 => ⟨fun hr => h _ _ ((tables h1 h9).1 hr), fun hr => ((tables h1 h9).2 hr).mono h⟩⟩

/-- The place of a word access is cut short, and the access is checked for alignment or aligned. -/
def PlaceFails (s : State) (va : Word) (priv write : Bool) (mask code : Word) : Prop :=
  (s.alignCheck = true ∨ va.extractLsb' 0 2 = 0#2) ∧ CutShort (dataPlace va 4 priv write write) s (s.mva va) mask code

/-- The clauses hold of whatever follows from an access whose place is cut short. -/
theorem faultClauses_of_placeFails {va : Word}
    (h : ∀ mask code, PlaceFails s va priv write mask code → aborts mask code) :
    FaultClauses s (s.mva va) priv write aborts := by
  refine ⟨fun ha hu => h _ _ ⟨.inl ha, cutShort_dataPlace_unaligned ha hu priv write write⟩, fun hu hm he => ?_⟩
  have translated (mask code : Word) (hc : CutShort (translateData (s.mva va) priv write) s (s.mva va) mask code) :
      aborts mask code :=
    h _ _ ⟨.inr ((mva_low s va (by decide)).symm.trans hu), cutShort_dataPlace_aligned hu hc⟩
  refine ⟨fun hr => translated _ _ ?_, fun hr => .mono translated ?_⟩
  · exact cutShort_of_walk_error hm he (walk_busError hr) (faultStatus_firstLevel 0b1100#4)
  · exact descriptorClauses_cutShort hm he (walk_memory hr)

/-- No clause reads the note of a load of the PC. -/
theorem FaultClauses.of_noteLoadsPc (h : FaultClauses s.noteLoadsPc mva priv write aborts) :
    FaultClauses s mva priv write aborts := h

/-! ### The exception -/

/-- What O22 says that an abort leaves. -/
def AbortTaken (s : State) (mva mask code : Word) (t : State) : Prop :=
  Entered .abt 0x10#32 (s.pc + 8#32) false s { t with dtlb := s.dtlb } ∧ t.cp15.fsr &&& mask = code ∧ t.cp15.far = mva

/-- The exception is taken where the body was cut short. -/
theorem CutShort.taken {x : Exec α} (h : CutShort x u mva mask code) (hu : OnlyNoted s u) (hd : s.noDebug = true)
    (k : α → State → Result) : ∃ t, runThen x k u = .next t ∧ AbortTaken s mva mask code t := by
  obtain ⟨c, domain, v, hx, hv, hcode⟩ := h
  have hd : s.debugOn = false := (by simpa [State.noDebug] using hd : _ ∧ _).1
  obtain ⟨free, t, ht, entered, hfsr, hfar⟩ := entered_dataAbort (hu.trans hv) hd c domain mva
  refine ⟨t, ?_, entered, ?_, hfar⟩
  · rw [runThen_error hx, endTrap, ht]
  · rw [hfsr, hcode]

/-! ### LDR, STR, LDRT and STRT -/

variable {cond : BitVec 4} {rn rd : RegNum} {am : Mode2} {off : Offset2} {ad : Address}

theorem sds_of_noDebug (h : s.noDebug = true) : s.dbgUnit.sds = false :=
  (by simpa [State.noDebug] using h : _ ∧ _).2

theorem loadReg_aborts (hd : s.noDebug = true) (rn rd : RegNum)
    (h : PlaceFails s ad.at_ priv false mask code) :
    ∃ t, loadReg rn rd ad (fun a => memReadWord a priv) s = .next t ∧ AbortTaken s (s.mva ad.at_) mask code t :=
  ((h.2.bind _).ignoreAbortInSds (sds_of_noDebug hd) _).taken (.refl s) hd _

theorem loadPc_aborts (hd : s.noDebug = true) (rn : RegNum)
    (h : PlaceFails s.noteLoadsPc ad.at_ priv false mask code) :
    ∃ t, loadPc rn ad (fun a => memReadWord a priv) s = .next t ∧ AbortTaken s (s.mva ad.at_) mask code t :=
  ((h.2.bind _).ignoreAbortInSds (sds_of_noDebug hd) _).taken ⟨_, s.freeCtr, s.dtlb, rfl⟩ hd _

theorem storeReg_aborts (hd : s.noDebug = true) (rn : RegNum) (v : Word)
    (h : PlaceFails s ad.at_ priv true mask code) :
    ∃ t, storeReg rn ad (fun a => memWrite a 4 priv v) s = .next t ∧ AbortTaken s (s.mva ad.at_) mask code t :=
  ((h.2.bind _).ignoreAbortInSds (sds_of_noDebug hd) _).taken (.refl s) hd _

theorem ldr_faultClauses (hp : s.passes cond = true) (hd : s.noDebug = true) (hb : s.inDebug = false)
    (hr : transferRefusal rn rd (mode2Rm am) (mode2Writes am) = none) :
    FaultClauses s (s.mva (s.mode2 rn am).at_) s.privileged false fun mask code =>
      Completes (.ldr cond rn rd am) s (AbortTaken s (s.mva (s.mode2 rn am).at_) mask code) := by
  have hexec : exec (.ldr cond rn rd am) s = execLdr cond rn rd am s := rfl
  unfold Completes
  rw [hexec, execLdr, when_pass hp, hr]
  simp only [orRefuse, hb, Bool.false_and, Bool.false_eq_true, if_false]
  by_cases hpc : rd = 15#4
  · refine FaultClauses.of_noteLoadsPc (faultClauses_of_placeFails (va := (s.mode2 rn am).at_) fun mask code h => ?_)
    have aligned : ¬ ((s.mode2 rn am).at_.extractLsb' 0 2 ≠ 0#2 ∧ s.alignCheck = false) := fun ⟨hu, ha⟩ =>
      h.1.elim (fun ha' => Bool.false_ne_true (ha.symm.trans ha')) hu
    rw [if_pos hpc, if_neg aligned]
    exact loadPc_aborts hd rn h
  · refine faultClauses_of_placeFails fun mask code h => ?_
    rw [if_neg hpc]
    exact loadReg_aborts hd rn rd h

theorem str_faultClauses (hp : s.passes cond = true) (hd : s.noDebug = true)
    (hr : transferRefusal rn rd (mode2Rm am) (mode2Writes am) = none) :
    FaultClauses s (s.mva (s.mode2 rn am).at_) s.privileged true fun mask code =>
      Completes (.str cond rn rd am) s (AbortTaken s (s.mva (s.mode2 rn am).at_) mask code) := by
  refine faultClauses_of_placeFails fun mask code h => ?_
  have hexec : exec (.str cond rn rd am) s = execStr cond rn rd am s := rfl
  rw [Completes, hexec, execStr, when_pass hp, hr]
  exact storeReg_aborts hd rn _ h

theorem ldrt_faultClauses (hp : s.passes cond = true) (hd : s.noDebug = true) (hrd : rd ≠ 15#4)
    (hr : transferRefusal rn rd (offset2Rm off) true = none) :
    FaultClauses s (s.mva (s.userMode2 rn off).at_) false false fun mask code =>
      Completes (.ldrt cond rn rd off) s (AbortTaken s (s.mva (s.userMode2 rn off).at_) mask code) := by
  refine faultClauses_of_placeFails fun mask code h => ?_
  have hexec : exec (.ldrt cond rn rd off) s = execLdrt cond rn rd off s := rfl
  rw [Completes, hexec, execLdrt, when_pass hp, rdRefusal, if_neg hrd, hr]
  exact loadReg_aborts hd rn rd h

theorem strt_faultClauses (hp : s.passes cond = true) (hd : s.noDebug = true) (hrd : rd ≠ 15#4)
    (hr : transferRefusal rn rd (offset2Rm off) true = none) :
    FaultClauses s (s.mva (s.userMode2 rn off).at_) false true fun mask code =>
      Completes (.strt cond rn rd off) s (AbortTaken s (s.mva (s.userMode2 rn off).at_) mask code) := by
  refine faultClauses_of_placeFails fun mask code h => ?_
  have hexec : exec (.strt cond rn rd off) s = execStrt cond rn rd off s := rfl
  rw [Completes, hexec, execStrt, when_pass hp, rdRefusal, if_neg hrd, hr]
  exact storeReg_aborts hd rn _ h

end

/-- Settles O22: each clause is an access whose place is cut short (`faultClauses_of_placeFails`), and the exception it
takes (`CutShort.taken`). -/
theorem dataAborts : Obligations.DataAborts := fun _ _ _ _ _ _ hp hd hb =>
  ⟨fun hr => ⟨ldr_faultClauses hp hd hb hr, str_faultClauses hp hd hr⟩,
    fun hrd hr => ⟨ldrt_faultClauses hp hd hrd hr, strt_faultClauses hp hd hrd hr⟩⟩

end Sys2Proof.Machine

/-!
SUPPORT. LDR and STR of a word whose access is answered: what a computation does step by step, and what the instruction
leaves of registers and status (42_load_store.md R440, R444, R445).
-/

namespace Sys2Proof.Machine
section

variable {α β : Type} {s t u : State}

/-! ### Steps of a computation that is not cut short -/

theorem get_bind_apply (f : State → Exec β) (s : State) : (get >>= f) s = f s s := rfl
theorem set_bind_apply (t : State) (f : PUnit → Exec β) (s : State) : (set t >>= f) s = f ⟨⟩ t := rfl
theorem modify_bind_apply (g : State → State) (f : PUnit → Exec β) (s : State) :
    (modify g >>= f) s = f ⟨⟩ (g s) := rfl

theorem bind_apply_of_ok {x : Exec α} {a : α} (h : x s = .ok a t) (f : α → Exec β) : (x >>= f) s = f a t := by
  simp only [bind, EStateM.bind, h]

theorem Completes.mono {i : Instr} {P Q : State → Prop} (h : Completes i s P) (hpq : ∀ t, P t → Q t) :
    Completes i s Q := by
  obtain ⟨t, ht, hp⟩ := h
  exact ⟨t, ht, hpq t hp⟩

/-! ### The registers after the access -/

/-- The registers and status that a transfer with write-back leaves, where it may write these registers. -/
structure Transferred (rn : RegNum) (ad : Address) (rs : List RegNum) (s t : State) : Prop where
  base : BaseIs rn ad t
  pc : Advances s t
  flags : FlagsKept s t
  regs : RegsKept rs s t

/-- A state with other general registers and another PC. -/
def DiffersInRegs (u t : State) : Prop := ∃ regs pc, t = { u with gpr := regs, pc := pc }

theorem DiffersInRegs.setReg (h : DiffersInRegs u t) (r : RegNum) (v : Word) : DiffersInRegs u (t.setReg r v) := by
  obtain ⟨regs, pc, rfl⟩ := h
  unfold State.setReg
  split
  · exact ⟨_, _, rfl⟩
  · exact ⟨_, _, rfl⟩

theorem differsInRegs_updateBase (u : State) (rn : RegNum) (ad : Address) : DiffersInRegs u (u.updateBase rn ad) := by
  have refl : DiffersInRegs u u := ⟨u.gpr, u.pc, rfl⟩
  unfold State.updateBase
  split
  · exact refl.setReg rn _
  · exact refl

theorem DiffersInRegs.advance (h : DiffersInRegs u t) : DiffersInRegs u t.advance := by
  obtain ⟨regs, pc, rfl⟩ := h
  exact ⟨_, _, rfl⟩

@[simp] theorem cpsr_updateBase (s : State) (rn : RegNum) (ad : Address) : (s.updateBase rn ad).cpsr = s.cpsr := by
  unfold State.updateBase
  split <;> simp

@[simp] theorem pc_updateBase (s : State) (rn : RegNum) (ad : Address) : (s.updateBase rn ad).pc = s.pc := by
  unfold State.updateBase
  split <;> simp

theorem regsKept_updateBase (s : State) (rn : RegNum) (ad : Address) :
    RegsKept (ad.base rn) s (s.updateBase rn ad) := by
  unfold State.updateBase Address.base
  split
  · exact regsKept_setReg s rn _
  · exact .refl _ s

theorem reg_updateBase (s : State) {rn : RegNum} (hrn : rn ≠ 15#4) {ad : Address} (hw : ad.writes = true) :
    (s.updateBase rn ad).reg rn = ad.wb := by
  rw [State.updateBase, if_pos hw, reg_setReg_self _ _ _ hrn]

/-- Registers, status and PC after a data access are those from before. -/
theorem DataOnly.transferred {rn : RegNum} {ad : Address} {rs : List RegNum} (h : DataOnly s u)
    (ht : Transferred rn ad rs u t) : Transferred rn ad rs s t where
  base := ht.base
  pc := by
    have hpc := ht.pc
    rwa [Advances, h.pc, State.instrBytes, State.thumb, h.cpsr] at hpc
  flags := ht.flags.trans h.cpsr
  regs := fun i hi => (ht.regs i (by rwa [h.mode])).trans (by rw [h.gpr])

/-- The write-back, then the next instruction. -/
theorem transferred_updateBase (u : State) {rn : RegNum} {ad : Address} (hrn : ad.writes = true → rn ≠ 15#4) :
    Transferred rn ad (ad.base rn) u (u.updateBase rn ad).advance where
  base := fun hw => by rw [reg_advance _ _ (hrn hw), reg_updateBase _ (hrn hw) hw]
  pc := by simp [Advances, State.instrBytes, State.thumb]
  flags := by simp [FlagsKept]
  regs := regsKept_updateBase u rn ad

/-- The write-back and the loaded register, then the next instruction. -/
theorem transferred_load (u : State) {rn rd : RegNum} {ad : Address} (v : Word)
    (hrn : ad.writes = true → rn ≠ 15#4 ∧ rn ≠ rd) :
    Transferred rn ad (rd :: ad.base rn) u ((u.updateBase rn ad).setReg rd v).advance where
  base := fun hw => by
    rw [reg_advance _ _ (hrn hw).1, reg_setReg_of_ne _ _ _ _ (hrn hw).2, reg_updateBase _ (hrn hw).1 hw]
  pc := by simp [Advances, State.instrBytes, State.thumb]
  flags := by simp [FlagsKept]
  regs := ((regsKept_updateBase u rn ad).mono fun _ hr => List.mem_cons_of_mem _ hr).trans (mode_of_cpsr _ _ (by simp))
    ((regsKept_setReg _ rd v).mono (by simp))

/-! ### LDR and STR -/

variable {cond : BitVec 4} {rn rd : RegNum} {am : Mode2}

/-- A base that is written back is neither R15 nor the register that is transferred (30_encoding.md R305). -/
theorem transferRefusal_none {rm : Option RegNum} {writes : Bool} (h : transferRefusal rn rd rm writes = none)
    (hw : writes = true) : rn ≠ 15#4 ∧ rn ≠ rd := by
  subst hw
  unfold transferRefusal at h
  split at h
  · cases h
  · simp only [Bool.true_and, beq_iff_eq, Bool.or_eq_true] at h
    split at h
    · cases h
    · next hrn =>
      split at h
      · cases h
      · next hover => exact ⟨hrn, fun e => hover (.inl e.symm)⟩

theorem mode2_writes (s : State) (rn : RegNum) (am : Mode2) : (s.mode2 rn am).writes = mode2Writes am := by
  cases am <;> rfl

/-- LDR of a word that the access answers. -/
theorem ldr_completes {v : Word} (hp : s.passes cond = true) (hrd : rd ≠ 15#4) (hb : s.inDebug = false)
    (hr : transferRefusal rn rd (mode2Rm am) (mode2Writes am) = none)
    (hread : memReadWord (s.mode2 rn am).at_ s.privileged s = .ok v u) :
    Completes (.ldr cond rn rd am) s fun t =>
      DiffersInRegs u t ∧ t.reg rd = v ∧ Transferred rn (s.mode2 rn am) (rd :: (s.mode2 rn am).base rn) s t := by
  have hexec : exec (.ldr cond rn rd am) s = execLdr cond rn rd am s := rfl
  have hbase : (s.mode2 rn am).writes = true → rn ≠ 15#4 ∧ rn ≠ rd := fun hw =>
    transferRefusal_none hr (mode2_writes s rn am ▸ hw)
  refine ⟨((u.updateBase rn (s.mode2 rn am)).setReg rd v).advance, ?_, ?_, ?_, ?_⟩
  · rw [hexec, execLdr, when_pass hp, hr]
    simp only [orRefuse, hb, Bool.false_and, Bool.false_eq_true, if_false, if_neg hrd]
    rw [loadReg, runThen_ok hread]
  · exact ((differsInRegs_updateBase u rn _).setReg rd v).advance
  · rw [reg_advance _ _ hrd, reg_setReg_self _ _ _ hrd]
  · exact ((memReadWord_dataOnly _ _).ok hread).transferred (transferred_load u v hbase)

/-- STR of a word whose access is done. -/
theorem str_completes (hp : s.passes cond = true)
    (hr : transferRefusal rn rd (mode2Rm am) (mode2Writes am) = none)
    (hwrite : memWrite (s.mode2 rn am).at_ 4 s.privileged (s.reg rd) s = .ok () u) :
    Completes (.str cond rn rd am) s fun t =>
      DiffersInRegs u t ∧ Transferred rn (s.mode2 rn am) ((s.mode2 rn am).base rn) s t := by
  have hexec : exec (.str cond rn rd am) s = execStr cond rn rd am s := rfl
  have hbase : (s.mode2 rn am).writes = true → rn ≠ 15#4 := fun hw =>
    (transferRefusal_none hr (mode2_writes s rn am ▸ hw)).1
  refine ⟨(u.updateBase rn (s.mode2 rn am)).advance, ?_, ?_, ?_⟩
  · rw [hexec, execStr, when_pass hp, hr]
    simp only [orRefuse]
    rw [storeReg, runThen_ok hwrite]
  · exact (differsInRegs_updateBase u rn _).advance
  · exact ((memWrite_dataOnly _ _ _ _).ok hwrite).transferred (transferred_updateBase u hbase)

end
end Sys2Proof.Machine

/-!
SUPPORT. Translations that grant an access: the address that a page gives, what the walk finds, and the place of a word
(21_mmu_caches_tlb.md R181 to R187, R192; 20_memory.md R150).
-/

namespace Sys2Proof.Machine
section

variable {s t u : State} {e : TlbEntry} {l1 l2 mva pa d va : Word} {size : PageSize} {x priv write : Bool}

/-! ### Addresses in a page (21_mmu_caches_tlb.md R185) -/

theorem bits_bounds (size : PageSize) : 10 ≤ size.bits ∧ size.bits ≤ 20 := by cases size <;> decide

theorem pageBase_toNat (size : PageSize) (a : Word) :
    (pageBase size a).toNat = 2 ^ size.bits * (a.toNat / 2 ^ size.bits) := by
  have ha := a.isLt
  have hle := Nat.mul_div_le a.toNat (2 ^ size.bits)
  rw [pageBase, BitVec.toNat_shiftLeft, BitVec.toNat_ushiftRight, Nat.shiftRight_eq_div_pow, Nat.shiftLeft_eq,
    Nat.mul_comm, Nat.mod_eq_of_lt (by omega)]

theorem getLsbD_pageBase (size : PageSize) (a : Word) (i : Nat) :
    (pageBase size a).getLsbD i = (!decide (i < size.bits) && a.getLsbD i) := by
  rw [BitVec.getLsbD, pageBase_toNat, Nat.testBit_two_pow_mul, Nat.testBit_div_two_pow]
  by_cases hi : i < size.bits
  · simp [hi]
  · simp [hi, show size.bits ≤ i by omega, show i - size.bits + size.bits = i by omega]
    rfl

theorem pageBase_pageBase (size : PageSize) (a : Word) : pageBase size (pageBase size a) = pageBase size a :=
  BitVec.eq_of_getLsbD_eq fun i _ => by simp only [getLsbD_pageBase, ← Bool.and_assoc, Bool.and_self]

theorem physical_toNat (e : TlbEntry) (mva : Word) :
    (e.physical mva).toNat = 2 ^ e.size.bits * (e.base.toNat / 2 ^ e.size.bits) + mva.toNat % 2 ^ e.size.bits := by
  have hsplit := Nat.div_add_mod mva.toNat (2 ^ e.size.bits)
  have hsub : (mva - pageBase e.size mva).toNat = mva.toNat % 2 ^ e.size.bits := by
    have hm := mva.isLt
    rw [BitVec.toNat_sub, pageBase_toNat]
    omega
  have hlow := Nat.mod_lt mva.toNat (Nat.two_pow_pos e.size.bits)
  have hfit : 2 ^ e.size.bits * (e.base.toNat / 2 ^ e.size.bits) + mva.toNat % 2 ^ e.size.bits < 2 ^ 32 := by
    have hb := e.base.isLt
    cases e.size <;> simp only [PageSize.bits] at hlow ⊢ <;> omega
  rw [TlbEntry.physical, BitVec.toNat_add, pageBase_toNat, hsub, Nat.mod_eq_of_lt hfit]

/-- The base gives the high bits of the physical address, the MVA those inside the page. -/
theorem getLsbD_physical (e : TlbEntry) (mva : Word) (i : Nat) :
    (e.physical mva).getLsbD i = if i < e.size.bits then mva.getLsbD i else e.base.getLsbD i := by
  have hlow := Nat.mod_lt mva.toNat (Nat.two_pow_pos e.size.bits)
  rw [BitVec.getLsbD, physical_toNat, Nat.testBit_two_pow_mul_add _ hlow, Nat.testBit_mod_two_pow,
    Nat.testBit_div_two_pow]
  by_cases hi : i < e.size.bits
  · simp [hi]
    rfl
  · simp [hi, show i - e.size.bits + e.size.bits = i by omega]
    rfl

theorem getLsbD_lowMask (size : PageSize) (i : Fin 32) :
    ((1#32 <<< size.bits) - 1#32 : Word).getLsbD i = decide (i.val < size.bits) := by
  revert i
  cases size <;> decide

/-- The physical address, with masks. -/
theorem physical_eq_masked (e : TlbEntry) (mva : Word) :
    e.physical mva = (e.base &&& ~~~((1#32 <<< e.size.bits) - 1#32)) ||| (mva &&& ((1#32 <<< e.size.bits) - 1#32)) := by
  apply BitVec.eq_of_getLsbD_eq
  intro i hi
  have hmask := getLsbD_lowMask e.size ⟨i, hi⟩
  simp only [getLsbD_physical, BitVec.getLsbD_or, BitVec.getLsbD_and, BitVec.getLsbD_not, hmask, hi, decide_true,
    Bool.true_and]
  by_cases hlow : i < e.size.bits <;> simp [hlow]

/-- An address inside a page agrees with the MVA below the page's size. -/
theorem extract_physical (e : TlbEntry) (mva : Word) {lo n : Nat} (h : lo + n ≤ 10) :
    (e.physical mva).extractLsb' lo n = mva.extractLsb' lo n := by
  have hb := (bits_bounds e.size).1
  apply BitVec.eq_of_getLsbD_eq
  intro i hi
  rw [BitVec.getLsbD_extractLsb', BitVec.getLsbD_extractLsb', getLsbD_physical, if_pos (by omega)]

/-- The bits of an address put together from two words. -/
theorem getLsbD_splice (d mva : Word) (k n : Nat) {i : Nat} (hi : i < n + k) :
    (d.extractLsb' k n ++ mva.extractLsb' 0 k).getLsbD i = if i < k then mva.getLsbD i else d.getLsbD i := by
  rw [BitVec.getLsbD_append, BitVec.getLsbD_extractLsb', BitVec.getLsbD_extractLsb']
  by_cases hk : i < k
  · simp [hk]
  · simp [hk, show i - k < n by omega, show k + (i - k) = i by omega]

/-! ### The translation that a descriptor gives (21_mmu_caches_tlb.md R181 to R183) -/

/-- The translation of an MVA by a descriptor d of a section or a page: its size, base and attributes. -/
structure TlbEntry.IsPageOf (e : TlbEntry) (sz : PageSize) (d mva : Word) (x : Bool) : Prop where
  size : e.size = sz
  tag : e.tag = pageBase sz mva
  base : e.base = pageBase sz d
  attrs : e.attrs = { x := x, c := d.getLsbD 3, b := d.getLsbD 2 }

theorem TlbEntry.IsPageOf.covers (h : e.IsPageOf size d mva x) : e.covers mva = true := by
  rw [TlbEntry.covers, h.size, h.tag, pageBase_pageBase, beq_self_eq_true]

theorem TlbEntry.IsPageOf.physical (h : e.IsPageOf size d mva x)
    (hpa : ∀ i, i < 32 → pa.getLsbD i = if i < size.bits then mva.getLsbD i else d.getLsbD i) :
    e.physical mva = pa := by
  apply BitVec.eq_of_getLsbD_eq
  intro i hi
  rw [getLsbD_physical, h.size, h.base, getLsbD_pageBase, hpa i hi]
  by_cases hlow : i < size.bits <;> simp [hlow]

theorem walkFrom_section_page (h : l1.extractLsb' 0 2 = 2#2) (h9 : l1.getLsbD 9 = false)
    (he : walkFrom l1 mva s = .ok e s) : e.IsPageOf .section1M l1 mva (l1.getLsbD 12) := by
  simp only [walkFrom, h, h9] at he
  injection he with he
  subst he
  exact ⟨rfl, rfl, rfl, rfl⟩

theorem secondLevel_large_page {fine : Bool} {domain : BitVec 4} (h : l2.extractLsb' 0 2 = 1#2)
    (he : secondLevel l2 fine domain mva = .ok e) : e.IsPageOf .large64K l2 mva (l2.getLsbD 12) := by
  simp only [secondLevel, h] at he
  obtain rfl := Except.ok.inj he
  exact ⟨rfl, rfl, rfl, rfl⟩

theorem secondLevel_small_page {fine : Bool} {domain : BitVec 4} (h : l2.extractLsb' 0 2 = 2#2)
    (he : secondLevel l2 fine domain mva = .ok e) : e.IsPageOf .small4K l2 mva false := by
  simp only [secondLevel, h] at he
  obtain rfl := Except.ok.inj he
  exact ⟨rfl, rfl, rfl, rfl⟩

/-- A tiny page of a fine table, an extended small page of a coarse one. -/
theorem secondLevel_uniform_page {fine : Bool} {domain : BitVec 4} (h : l2.extractLsb' 0 2 = 3#2)
    (he : secondLevel l2 fine domain mva = .ok e) :
    e.IsPageOf (if fine then .tiny1K else .small4K) l2 mva (l2.getLsbD 6) := by
  simp only [secondLevel, h] at he
  obtain rfl := Except.ok.inj he
  exact ⟨rfl, rfl, rfl, rfl⟩

/-! ### Translations that the checks grant (21_mmu_caches_tlb.md R187, R192) -/

theorem permits_of_permitted {ap : BitVec 2} (h : s.permitted ap priv write = true) :
    permits ap s.systemProt s.romProt priv write = some true := by
  revert h
  unfold State.permitted permits
  generalize s.systemProt = sys, s.romProt = rom
  revert ap sys rom priv write
  decide

theorem checkAccess_granted (h : s.granted e.domain (e.apFor mva) priv write = true) :
    checkAccess s e mva priv write = .ok () := by
  simp only [State.granted, Bool.or_eq_true, Bool.and_eq_true, beq_iff_eq, State.domainOf] at h
  unfold checkAccess
  rcases h with hmanager | ⟨hclient, hp⟩
  · simp only [hmanager]
  · simp only [hclient, permits_of_permitted hp]

/-- A translation in the TLB. -/
theorem translateData_hit (hm : s.mmuOn = true) (hl : s.dtlb.lookup mva = some e)
    (hg : s.granted e.domain (e.apFor mva) priv write = true) :
    translateData mva priv write s = .ok (e.physical mva, e.attrs) s := by
  have hfind : findEntry false mva s = .ok e s := by
    have hl : (s.tlb false).lookup mva = some e := hl
    simp only [findEntry, get_bind_apply, hl]
    rfl
  simp only [translateData, get_bind_apply, hm, if_true, translate]
  rw [bind_apply_of_ok hfind, get_bind_apply, checkAccess_granted hg]
  rfl

/-- The state after a walk that found a translation. -/
def State.walked (s : State) (e : TlbEntry) : State := { s.noteTlbMiss false with dtlb := s.dtlb.insert e }

/-- A translation that a walk finds. -/
theorem translateData_walked (hm : s.mmuOn = true) (he : s.dtlb.entries = [])
    (hw : walk mva (s.noteTlbMiss false) = .ok e (s.noteTlbMiss false))
    (hg : s.granted e.domain (e.apFor mva) priv write = true) :
    translateData mva priv write s = .ok (e.physical mva, e.attrs) (s.walked e) := by
  have hfind : findEntry false mva s = .ok e (s.walked e) := by
    have hl : (s.tlb false).lookup mva = none := lookup_of_empty he mva
    simp only [findEntry, get_bind_apply, hl, set_bind_apply]
    rw [bind_apply_of_ok hw]
    rfl
  have hc : checkAccess (s.walked e) e mva priv write = .ok () := checkAccess_granted (s := s.walked e) hg
  simp only [translateData, get_bind_apply, hm, if_true, translate]
  rw [bind_apply_of_ok hfind, get_bind_apply, hc]
  rfl

/-- The translation that came into an empty TLB is found there. -/
theorem lookup_walked (he : s.dtlb.entries = []) (hc : e.covers mva = true) :
    (s.walked e).dtlb.lookup mva = some e := by
  simp [State.walked, Tlb.insert, he, tblSet, Tlb.lookup, hc]

/-! ### The place of a word, and the access there -/

theorem and_wordMask {a : Word} (h : a.extractLsb' 0 2 = 0#2) : a &&& 0xFFFFFFFC#32 = a := by
  have hmod : a.toNat % 4 = 0 := by simpa using congrArg BitVec.toNat h
  have hshift : a &&& 0xFFFFFFFC#32 = a >>> 2 <<< 2 := (BitVec.shiftLeft_ushiftRight (x := a) (n := 2)).symm
  apply BitVec.eq_of_toNat_eq
  rw [hshift, BitVec.toNat_shiftLeft, BitVec.toNat_ushiftRight, Nat.shiftRight_eq_div_pow, Nat.shiftLeft_eq]
  omega

theorem laneOf_word (bigEndian : Bool) (a : Word) : laneOf bigEndian a 4 = a := by cases bigEndian <;> rfl

/-- A word access at va, of an aligned MVA, goes to pa, in a page with these attributes, and leaves t. -/
structure Placed (s : State) (va mva pa : Word) (a : Attrs) (write : Bool) (t : State) : Prop where
  address : s.mva va = mva
  aligned : mva.extractLsb' 0 2 = 0#2
  place : dataPlace va 4 s.privileged write write s = .ok (mva, pa, a) t

theorem placed_of_translateData {a : Attrs} (hv : s.mva va = mva) (hu : mva.extractLsb' 0 2 = 0#2)
    (ht : translateData mva s.privileged write s = .ok (pa, a) t) (hpa : pa.extractLsb' 0 2 = 0#2)
    (hd : t.debugOn = false) : Placed s va mva pa a write t := by
  refine ⟨hv, hu, ?_⟩
  simp only [dataPlace, get_bind_apply, hv, hu, Nat.reduceBEq, bne_self_eq_false, Bool.false_and, Bool.and_false,
    Bool.or_false, Bool.false_eq_true, if_false]
  rw [bind_apply_of_ok ht]
  simp only [modify_bind_apply, noteBreak_of_debugOff hd, if_true, and_wordMask hu, and_wordMask hpa, laneOf_word]
  rfl

/-- The place of a word in a page that the TLB holds. -/
theorem placed_hit (hd : s.debugOn = false) (hm : s.mmuOn = true) (hv : s.mva va = mva)
    (hu : mva.extractLsb' 0 2 = 0#2) (hl : s.dtlb.lookup mva = some e)
    (hg : s.granted e.domain (e.apFor mva) s.privileged write = true) :
    Placed s va mva (e.physical mva) e.attrs write s :=
  placed_of_translateData hv hu (translateData_hit hm hl hg) ((extract_physical e _ (by decide)).trans hu) hd

/-- The place of a word in a page that the walk finds. -/
theorem placed_walked (hd : s.debugOn = false) (hm : s.mmuOn = true) (hv : s.mva va = mva)
    (hu : mva.extractLsb' 0 2 = 0#2) (he : s.dtlb.entries = [])
    (hw : walk mva (s.noteTlbMiss false) = .ok e (s.noteTlbMiss false))
    (hg : s.granted e.domain (e.apFor mva) s.privileged write = true) :
    Placed s va mva (e.physical mva) e.attrs write (s.walked e) :=
  placed_of_translateData hv hu (translateData_walked hm he hw hg) ((extract_physical e _ (by decide)).trans hu) hd

theorem rotateLoaded_aligned (h : va.extractLsb' 0 2 = 0#2) (v : Word) : rotateLoaded va v = v := by
  rw [rotateLoaded, h]
  exact BitVec.eq_of_getLsbD_eq fun i hi => by simp [hi]

theorem memReadWord_of_placed {a : Attrs} {bs : List Byte} (hp : Placed s va mva pa a false t)
    (hload : loadBytes mva pa a 4 t = .ok (some bs) u) :
    memReadWord va s.privileged s = .ok (wordOf bs) u := by
  have hva : va.extractLsb' 0 2 = 0#2 := by
    rw [← mva_low s va (by decide), hp.address]
    exact hp.aligned
  have hraw : memReadRaw (fun bs => rotateLoaded va (wordOf bs)) va 4 s.privileged s = .ok (wordOf bs) u := by
    rw [memReadRaw, bind_apply_of_ok hp.place]
    dsimp only
    rw [bind_apply_of_ok hload, loadedValue, rotateLoaded_aligned hva]
    rfl
  rw [memReadWord, memReadAs, ignoreAbortInSds, hraw]

theorem memWrite_of_placed {a : Attrs} {v : Word} (hp : Placed s va mva pa a true t)
    (hstore : storeBytes mva pa a (bytesOf v 4) t = .ok () u) :
    memWrite va 4 s.privileged v s = .ok () u := by
  have hraw : memWriteRaw va 4 s.privileged v s = .ok () u := by
    rw [memWriteRaw, bind_apply_of_ok hp.place]
    exact hstore
  rw [memWrite, ignoreAbortInSds, hraw]

/-- What O20 and O21 ask of LDR and STR, whatever translation and caches hold: the condition passes, the MVA is aligned,
the MMU is on, every address is memory, nothing is buffered, and debugging is off. -/
structure WordAccess (s : State) (cond : BitVec 4) (rn rd : RegNum) (am : Mode2) (mva : Word) : Prop where
  passes : s.passes cond = true
  notPc : rd ≠ 15#4
  inDebug : s.inDebug = false
  debugOn : s.debugOn = false
  refusal : transferRefusal rn rd (mode2Rm am) (mode2Writes am) = none
  mmuOn : s.mmuOn = true
  physMap : s.physMap = []
  writeBuffer : s.writeBuffer = []
  wf : Memory.wf s.mem = true
  address : s.mva (s.mode2 rn am).at_ = mva
  aligned : mva.extractLsb' 0 2 = 0#2

end
end Sys2Proof.Machine

/-!
SUPPORT. The bus side of the data accesses where every address is memory: the bytes after a write, at once or through
the write buffer, and the accesses that go there (20_memory.md R140 to R144; 21_mmu_caches_tlb.md R250, R251, R265).
-/

namespace Sys2Proof.Machine
section

variable {s t u : State} {pa mva : Word} {a : Attrs} {bs : List Byte}

/-! ### Bytes written on the bus side -/

/-- These bytes were written from an address on; every other byte reads as before. -/
def BusWritten (a : Word) (bs : List Byte) (s t : State) : Prop :=
  ∀ x, t.dataByte x = if a.toNat ≤ x ∧ x < a.toNat + bs.length then bs.getD (x - a.toNat) 0#8 else s.dataByte x

/-- A word written is a word stored. -/
theorem BusWritten.wordStoredAt {v : Word} (h : BusWritten pa (bytesOf v 4) s t) (hwf : Memory.wf t.mem = true) :
    WordStoredAt pa v s t := by
  refine ⟨fun i hi => ?_, fun x hx => ?_, hwf⟩
  · rw [h, bytesOf_length, if_pos (by omega), Nat.add_sub_cancel_left]
    simp [bytesOf, hi]
  · rw [h, bytesOf_length, if_neg]
    rintro ⟨hlo, hhi⟩
    exact hx (x - pa.toNat) (by omega) (by omega)

theorem tblGet_mergeBytes (tbl : List (Nat × Byte)) (o : Nat) (bs : List Byte) (k : Nat) :
    tblGet (mergeBytes tbl o bs) k = if o ≤ k ∧ k < o + bs.length then bs[k - o]? else tblGet tbl k := by
  induction bs generalizing tbl o with
  | nil => simp [mergeBytes, show ¬ (o ≤ k ∧ k < o) by omega]
  | cons b bs ih =>
    rw [mergeBytes, ih]
    simp only [List.length_cons]
    rcases Nat.lt_trichotomy k o with hk | rfl | hk
    · rw [if_neg (by omega), if_neg (by omega), tblGet_tblSet_of_ne _ _ (by omega)]
    · rw [if_neg (by omega), if_pos (by omega), tblGet_tblSet_self, Nat.sub_self, List.getElem?_cons_zero]
    · rw [tblGet_tblSet_of_ne _ _ (by omega), show k - o = k - (o + 1) + 1 by omega, List.getElem?_cons_succ]
      simp only [show o + 1 ≤ k ∧ k < o + 1 + bs.length ↔ o ≤ k ∧ k < o + (bs.length + 1) by omega]

/-- The write-buffer entry that a write of bytes takes (21_mmu_caches_tlb.md R265). -/
def newEntry (a : Word) (bs : List Byte) (device : Bool) : WbEntry :=
  { block := a.extractLsb' 4 28, bytes := mergeBytes [] (a.toNat % 16) bs, device := device }

theorem byteAt_newEntry (a : Word) (bs : List Byte) (device : Bool) (h : a.toNat % 16 + bs.length ≤ 16) (x : Nat) :
    (newEntry a bs device).byteAt x =
      if a.toNat ≤ x ∧ x < a.toNat + bs.length then bs[x - a.toNat]? else none := by
  have ha := a.isLt
  have hblock : (a.extractLsb' 4 28).toNat = a.toNat / 16 := by
    rw [BitVec.extractLsb'_toNat, Nat.shiftRight_eq_div_pow]
    omega
  simp only [WbEntry.byteAt, newEntry, hblock, tblGet_mergeBytes, tblGet]
  by_cases hin : a.toNat ≤ x ∧ x < a.toNat + bs.length
  · rw [if_pos (by omega), if_pos (by omega), if_pos hin, show x % 16 - a.toNat % 16 = x - a.toNat by omega]
  · rw [if_neg hin]
    split
    · exact if_neg (by omega)
    · rfl

theorem wbByte_append (es : List WbEntry) (e : WbEntry) (x : Nat) :
    wbByte (es ++ [e]) x = (e.byteAt x).or (wbByte es x) := by
  induction es with
  | nil => simp [wbByte]
  | cons e' es ih =>
    simp only [List.cons_append, wbByte, ih]
    cases e.byteAt x <;> rfl

/-- A write that takes an entry of its own, where one is free. -/
theorem pushWrite_newEntry {coalesce device : Bool} {a : Word}
    (hc : (if coalesce && !s.noCoalesce then coalesceInto device s.writeBuffer a bs else none) = none)
    (hroom : s.writeBuffer.length < 8) :
    s.pushWrite a bs coalesce device = { s with writeBuffer := s.writeBuffer ++ [newEntry a bs device] } := by
  simp only [State.pushWrite, hc, hroom, if_true]
  rfl

/-- The bytes after an entry has come into the write buffer. -/
theorem busWritten_newEntry (s : State) {a : Word} (h : a.toNat % 16 + bs.length ≤ 16) (device : Bool) :
    BusWritten a bs s { s with writeBuffer := s.writeBuffer ++ [newEntry a bs device] } := by
  intro x
  simp only [State.dataByte, State.busByte, wbByte_append, byteAt_newEntry a bs device h]
  split
  · next hin =>
    have hx : x - a.toNat < bs.length := by omega
    simp [List.getD_eq_getElem?_getD, hx]
  · rfl

/-- The bytes after a write to memory, where nothing was buffered. -/
theorem busWritten_memSetList (hw : s.writeBuffer = []) (hwf : Memory.wf s.mem = true) {a : Word}
    (h : a.toNat + bs.length ≤ 2 ^ 32) : BusWritten a bs s { s with mem := memSetList s.mem a 0 bs } := by
  have lane (j : Nat) (hj : j < bs.length) : laneAddr a (0 + j) = a.toNat + j := by
    rw [Nat.zero_add, laneAddr, Nat.mod_eq_of_lt (by omega)]
  intro x
  rw [dataByte_of_empty hw, dataByte_of_empty (s := { s with mem := memSetList s.mem a 0 bs }) hw]
  split
  · next hin =>
    have hx : x - a.toNat < bs.length := by omega
    have hget := memGet_memSetList hwf a 0 bs hx (by omega)
    rwa [lane _ hx, show a.toNat + (x - a.toNat) = x by omega] at hget
  · next hout =>
    refine memGet_memSetList_of_not_mem _ _ _ _ fun j hj => ?_
    rw [lane j hj]
    omega

/-! ### The accesses of the bus side -/

/-- A store to memory within one block, where nothing is buffered: memory or the write buffer takes it. -/
theorem storeBus_memory (hm : s.physMap = []) (hw : s.writeBuffer = []) (hwf : Memory.wf s.mem = true)
    (hfit : pa.toNat % 16 + bs.length ≤ 16) (a : Attrs) :
    ∃ m wb notes, storeBus pa a bs s = .ok () { s with mem := m, writeBuffer := wb, modified := notes } ∧
      BusWritten pa bs s { s with mem := m, writeBuffer := wb } ∧ Memory.wf m = true := by
  have hpa := pa.isLt
  simp only [storeBus, get_bind_apply, regionAt_plain hm]
  by_cases hstrong : a.strong = true
  · refine ⟨memSetList s.mem pa 0 bs, s.writeBuffer, (s.noteModified pa bs).modified, ?_,
      busWritten_memSetList hw hwf (by omega), memSetList_wf hwf _ _ _⟩
    rw [if_pos hstrong, State.writeThrough, drain_of_empty (s := s.noteModified pa bs) hw]
    rfl
  · have hc : (if (!a.fencesStore) && !(s.noteModified pa bs).noCoalesce then
        coalesceInto false (s.noteModified pa bs).writeBuffer pa bs else none) = none := by
      rw [show (s.noteModified pa bs).writeBuffer = [] from hw]
      exact ite_self none
    have hroom : (s.noteModified pa bs).writeBuffer.length < 8 := by
      rw [show (s.noteModified pa bs).writeBuffer = [] from hw]
      decide
    refine ⟨s.mem, s.writeBuffer ++ [newEntry pa bs false], (s.noteModified pa bs).modified, ?_,
      busWritten_newEntry s hfit false, hwf⟩
    rw [if_neg hstrong, pushWrite_newEntry hc hroom]
    rfl

/-- An aligned word does not leave its block. -/
theorem word_fits (hpa : pa.extractLsb' 0 2 = 0#2) (v : Word) : pa.toNat % 16 + (bytesOf v 4).length ≤ 16 := by
  have hmod : pa.toNat % 4 = 0 := by simpa using congrArg BitVec.toNat hpa
  rw [bytesOf_length]
  omega

theorem busRead_memory (hm : s.physMap = []) (hw : s.writeBuffer = []) (pa : Word) (n : Nat) :
    busRead pa n s = .ok (some (s.busBytes pa n)) s := by
  simp only [busRead, modify_bind_apply, get_bind_apply, fence_of_empty hw, regionAt_plain hm]
  rfl

/-- With nothing buffered a word on the bus side is the word of memory. -/
theorem wordOf_busBytes (hw : s.writeBuffer = []) (pa : Word) : wordOf (s.busBytes pa 4) = memWord s.mem pa := by
  rw [State.busBytes, memWord]
  simp only [State.busByte, hw, wbByte, Option.getD_none]

/-- A load that no line answers and that fills none. -/
theorem loadBytes_bus (hm : s.physMap = []) (hw : s.writeBuffer = []) (hr : s.reservedAttrs a = false)
    (hf : s.findDLine mva = none) (hc : s.cacheable a = false) (pa : Word) (n : Nat) :
    loadBytes mva pa a n s = .ok (some (s.busBytes pa n)) (s.noteAccess true) := by
  have hbus : busRead pa n (s.noteAccess true) = .ok (some (s.busBytes pa n)) (s.noteAccess true) :=
    busRead_memory (s := s.noteAccess true) hm hw pa n
  simp only [loadBytes, modify_bind_apply, get_bind_apply, fence_of_empty hw, hr, hf, hc, set_bind_apply,
    Bool.false_eq_true, if_false, loadBus]
  rw [bind_apply_of_ok hbus]
  rfl

/-- A store that no line answers and that fills none goes to the bus side. -/
theorem storeBytes_bus (hw : s.writeBuffer = []) (hr : s.reservedAttrs a = false) (hf : s.findDLine mva = none)
    (hc : (s.cacheable a && s.writeAllocates a) = false) (pa : Word) (bs : List Byte) :
    storeBytes mva pa a bs s = storeBus pa a bs (s.noteAccess true) := by
  simp only [storeBytes, modify_bind_apply, get_bind_apply, fence_of_empty hw, hr, hf, hc, set_bind_apply,
    Bool.false_eq_true, if_false]

/-- A word stored on the bus side. -/
theorem storeBytes_bus_word (hm : s.physMap = []) (hw : s.writeBuffer = []) (hwf : Memory.wf s.mem = true)
    (hr : s.reservedAttrs a = false) (hf : s.findDLine mva = none)
    (hc : (s.cacheable a && s.writeAllocates a) = false) (hpa : pa.extractLsb' 0 2 = 0#2) (v : Word) :
    ∃ m wb notes, storeBytes mva pa a (bytesOf v 4) s =
        .ok () { s.noteAccess true with mem := m, writeBuffer := wb, modified := notes } ∧
      WordStoredAt pa v s { s with mem := m, writeBuffer := wb } := by
  obtain ⟨m, wb, notes, hstore, hwritten, hm'⟩ :=
    storeBus_memory (s := s.noteAccess true) hm hw hwf (word_fits hpa v) a
  exact ⟨m, wb, notes, (storeBytes_bus hw hr hf hc pa _).trans hstore,
    BusWritten.wordStoredAt (t := { s with mem := m, writeBuffer := wb }) hwritten hm'⟩

end
end Sys2Proof.Machine

/-!
SUPPORT. Lines of the data caches: what a write leaves of a line, the line that an access finds, the line that a fill
brings in, and the write-back of the line in its place (21_mmu_caches_tlb.md R240 to R246, R250, R251, R260).
-/

namespace Sys2Proof.Machine
section

variable {s t u : State} {l l' : DLine} {mva pa : Word} {mini b : Bool} {slot off : Nat} {bs data : List Byte}
  {a : Attrs} {v : Word}

/-! ### The bytes of a line -/

theorem setAt_eq_set (bs : List Byte) (n : Nat) (b : Byte) : setAt bs n b = bs.set n b := by
  induction bs generalizing n with
  | nil => rfl
  | cons x bs ih =>
    cases n with
    | zero => rfl
    | succ n => exact congrArg (x :: ·) (ih n)

theorem write_data (l : DLine) (off : Nat) (bs : List Byte) (h : off + bs.length ≤ l.data.length) (i : Nat) :
    (l.write off bs).data[i]? = if off ≤ i ∧ i < off + bs.length then bs[i - off]? else l.data[i]? := by
  induction bs generalizing l off with
  | nil => simp [DLine.write, show ¬ (off ≤ i ∧ i < off) by omega]
  | cons b bs ih =>
    simp only [List.length_cons] at h ⊢
    rw [DLine.write, ih]
    · simp only [setAt_eq_set, List.getElem?_set]
      rcases Nat.lt_trichotomy i off with hi | rfl | hi
      · rw [if_neg (by omega), if_neg (by omega), if_neg (by omega)]
      · rw [if_neg (by omega), if_pos rfl, if_pos (by omega), if_pos (by omega), Nat.sub_self,
          List.getElem?_cons_zero]
      · rw [if_neg (show off ≠ i by omega), show i - off = i - (off + 1) + 1 by omega, List.getElem?_cons_succ]
        simp only [show off + 1 ≤ i ∧ i < off + 1 + bs.length ↔ off ≤ i ∧ i < off + (bs.length + 1) by omega]
    · simp only [setAt_eq_set, List.length_set]
      omega

/-- A write leaves a line's address, and which halves are dirty. -/
theorem write_rest (l : DLine) (off : Nat) (bs : List Byte) :
    (l.write off bs).tag = l.tag ∧ (l.write off bs).paLine = l.paLine ∧ (l.write off bs).dirtyLo = l.dirtyLo ∧
      (l.write off bs).dirtyHi = l.dirtyHi := by
  induction bs generalizing l off with
  | nil => exact ⟨rfl, rfl, rfl, rfl⟩
  | cons b bs ih => exact ih _ _

/-- A write spoils no parity. -/
theorem write_bad (h : l.bad = 0#32) (off : Nat) (bs : List Byte) : (l.write off bs).bad = 0#32 := by
  induction bs generalizing l off with
  | nil => exact h
  | cons b bs ih => exact ih (by rw [h, BitVec.zero_and]) _

/-- A word written into a line whose halves stay as they are. -/
theorem rewritten_write (hbad : l.bad = 0#32) (hlen : off + 4 ≤ l.data.length) (v : Word) :
    Rewritten l off v false (l.write off (bytesOf v 4)) := by
  obtain ⟨htag, hpa, hlo, hhi⟩ := write_rest l off (bytesOf v 4)
  refine ⟨fun i => ?_, by simp [hlo], by simp [hhi], write_bad hbad _ _, htag, hpa⟩
  rw [write_data _ _ _ (by rwa [bytesOf_length]), bytesOf_length]
  split
  · next hin => simp [bytesOf, show i - off < 4 by omega]
  · rfl

/-- A word written into a line whose half is dirty after it. -/
theorem rewritten_dirty (hbad : l.bad = 0#32) (hlen : off + 4 ≤ l.data.length) (v : Word) :
    Rewritten l off v true ((l.write off (bytesOf v 4)).dirty off) := by
  obtain ⟨hdata, hlo, hhi, hbad', htag, hpa⟩ := rewritten_write hbad hlen v
  simp only [Bool.false_and, Bool.or_false] at hlo hhi
  unfold DLine.dirty
  by_cases h : off < 16
  · rw [if_pos h]
    exact ⟨hdata, by simp [h], by simp [hhi, show ¬ 16 ≤ off by omega], hbad', htag, hpa⟩
  · rw [if_neg h]
    exact ⟨hdata, by simp [hlo, h], by simp [show 16 ≤ off by omega], hbad', htag, hpa⟩

theorem Rewritten.tag {stays : Bool} (h : Rewritten l off v stays l') : l'.tag = l.tag := by
  obtain ⟨-, -, -, -, htag, -⟩ := h
  exact htag

theorem parityError_of_good (h : l.bad = 0#32) (off n : Nat) : l.parityError off n = false := by
  simp [DLine.parityError, h]

/-! ### The line that an access finds -/

/-- Replacing the first entry that meets a predicate by another that meets it. -/
theorem find?_tblSet {α : Type} {p : Nat × α → Bool} {tbl : List (Nat × α)} {k : Nat} {x y : α}
    (h : tbl.find? p = some (k, x)) (hy : p (k, y) = true) : (tblSet tbl k y).find? p = some (k, y) := by
  induction tbl with
  | nil => cases h
  | cons q tbl ih =>
    obtain ⟨k', z⟩ := q
    rw [tblSet]
    split
    · exact List.find?_cons_of_pos hy
    · split
      · exact List.find?_cons_of_pos hy
      · next hne =>
        cases hq : p (k', z) with
        | true =>
          rw [List.find?_cons_of_pos hq] at h
          exact absurd (congrArg Prod.fst (Option.some.inj h)) hne
        | false =>
          rw [List.find?_cons_of_neg (by simp [hq])] at h ⊢
          exact ih h

theorem findDLine_eq_main (h : s.lineIn false mva = some (slot, l)) : s.findDLine mva = some (false, slot, l) := by
  simp only [State.findDLine, h]

theorem findDLine_eq_mini (hm : s.lineIn false mva = none) (h : s.lineIn true mva = some (slot, l)) :
    s.findDLine mva = some (true, slot, l) := by simp only [State.findDLine, hm, h, Option.map_some]

/-- Where an access finds a line, it finds the line that takes its place. -/
theorem findDLine_setDLine (h : s.findDLine mva = some (b, slot, l)) (ht : l'.tag = l.tag) :
    (s.setDLine b slot l').findDLine mva = some (b, slot, l') := by
  have replaced (ways : Nat) {ls : List (Nat × DLine)} (hl : ls.find? (isDLineOf ways mva) = some (slot, l)) :
      (tblSet ls slot l').find? (isDLineOf ways mva) = some (slot, l') := by
    refine find?_tblSet hl ?_
    have hp := List.find?_some hl
    rwa [isDLineOf, ← ht] at hp
  unfold State.findDLine at h
  cases hm : s.lineIn false mva with
  | some x =>
    rw [hm] at h
    cases h
    exact findDLine_eq_main (s := s.setDLine false x.1 l') (replaced 32 hm)
  | none =>
    rw [hm] at h
    obtain ⟨x, hx, he⟩ := Option.map_eq_some_iff.1 h
    cases he
    exact findDLine_eq_mini (s := s.setDLine true x.1 l') hm (replaced 2 hx)

/-- Replacing a line changes the data caches alone, and them as in any state with the same ones. -/
theorem setDLine_eq (hd : u.dcache = s.dcache) (hm : u.miniDc = s.miniDc) (b : Bool) (slot : Nat) (l : DLine) :
    u.setDLine b slot l =
      { u with dcache := (s.setDLine b slot l).dcache, miniDc := (s.setDLine b slot l).miniDc } := by
  cases b
  · rw [State.setDLine, State.setDLine, ← hd, ← hm]
    rfl
  · rw [State.setDLine, State.setDLine, ← hd, ← hm]
    rfl

theorem locked_setDLine (s : State) (b : Bool) (slot : Nat) (l : DLine) :
    (s.setDLine b slot l).dcache.locked = s.dcache.locked := by cases b <;> rfl

/-! ### Write-back (21_mmu_caches_tlb.md R244, R265) -/

theorem toNat_line (n : BitVec 27) : (n ++ 0#5 : Word).toNat = n.toNat * 32 := by
  refine (BitVec.toNat_append n 0#5).trans ?_
  simp [Nat.shiftLeft_eq]

/-- The bytes of one half of a line are where the line was filled from; every other byte reads as before. -/
def HalfWrittenBack (l : DLine) (hi : Bool) (s t : State) : Prop :=
  ∀ x, t.dataByte x =
    if x / 32 = l.paLine.toNat ∧ decide (16 ≤ x % 32) = hi then l.data.getD (x % 32) 0#8 else s.dataByte x

/-- Where a half of a line was filled from. -/
def DLine.halfAddress (l : DLine) (hi : Bool) : Word := (l.paLine ++ 0#5) + (if hi then 16#32 else 0#32)

theorem halfAddress_toNat (l : DLine) (hi : Bool) :
    (l.halfAddress hi).toNat = l.paLine.toNat * 32 + if hi then 16 else 0 := by
  have hline := l.paLine.isLt
  rw [DLine.halfAddress, BitVec.toNat_add, toNat_line]
  cases hi <;> simp only [Bool.false_eq_true, if_false, if_true, BitVec.toNat_ofNat] <;> omega

theorem halfWrittenBack_of_busWritten {hi : Bool}
    (h : BusWritten (l.halfAddress hi) (l.read (if hi then 16 else 0) 16) s t) :
    HalfWrittenBack l hi s t := by
  have hread (o i : Nat) (hi : i < 16) : (l.read o 16).getD i 0#8 = l.data.getD (o + i) 0#8 := by
    simp [DLine.read, List.getD_eq_getElem?_getD, hi]
  have hlen (o : Nat) : (l.read o 16).length = 16 := by simp [DLine.read]
  intro x
  have hrange : (l.halfAddress hi).toNat ≤ x ∧ x < (l.halfAddress hi).toNat + 16 ↔
      x / 32 = l.paLine.toNat ∧ decide (16 ≤ x % 32) = hi := by
    rw [halfAddress_toNat]
    cases hi <;> simp <;> omega
  rw [h x, hlen]
  by_cases hin : x / 32 = l.paLine.toNat ∧ decide (16 ≤ x % 32) = hi
  · have hx := hrange.2 hin
    have hoff : (if hi then 16 else 0) + (x - (l.halfAddress hi).toNat) = x % 32 := by
      rw [halfAddress_toNat] at hx ⊢
      omega
    rw [if_pos hx, if_pos hin, hread _ _ (by omega), hoff]
  · rw [if_neg fun hx => hin (hrange.1 hx), if_neg hin]

/-- Only the write buffer and the model's notes of the step differ. -/
def OnlyQueued (s t : State) : Prop := ∃ notes wb, t = { s with scratch := notes, writeBuffer := wb }

theorem OnlyQueued.physMap (h : OnlyQueued s t) : t.physMap = s.physMap := by
  obtain ⟨_, _, rfl⟩ := h
  rfl

theorem OnlyQueued.trans (h : OnlyQueued s t) (h' : OnlyQueued t u) : OnlyQueued s u := by
  obtain ⟨_, _, rfl⟩ := h
  obtain ⟨notes, wb, rfl⟩ := h'
  exact ⟨notes, wb, rfl⟩

/-- A half of a line goes into the write buffer, where it has room. -/
theorem writeBackHalf_memory (hm : s.physMap = []) (hroom : s.writeBuffer.length < 8) (l : DLine) (hi : Bool) :
    ∃ u, writeBackHalf l hi s = .ok () u ∧ OnlyQueued s u ∧ u.writeBuffer.length ≤ s.writeBuffer.length + 1 ∧
      HalfWrittenBack l hi s u := by
  have hfit : (l.halfAddress hi).toNat % 16 + (l.read (if hi then 16 else 0) 16).length ≤ 16 := by
    rw [halfAddress_toNat]
    cases hi <;> simp [DLine.read] <;> omega
  refine ⟨{ s.noteWriteBack with writeBuffer :=
      s.writeBuffer ++ [newEntry (l.halfAddress hi) (l.read (if hi then 16 else 0) 16) false] }, ?_, ⟨_, _, rfl⟩,
    by simp, halfWrittenBack_of_busWritten (busWritten_newEntry s.noteWriteBack hfit false)⟩
  simp only [writeBackHalf, get_bind_apply, regionAt_plain hm]
  exact congrArg (EStateM.Result.ok ()) (pushWrite_newEntry (s := s.noteWriteBack) rfl hroom)

/-- The dirty bytes of a line are where the line was filled from; every other byte reads as before. -/
def WrittenBack (l : DLine) (s t : State) : Prop :=
  ∀ x, t.dataByte x =
    if x / 32 = l.paLine.toNat ∧ (if x % 32 < 16 then l.dirtyLo else l.dirtyHi) = true then l.data.getD (x % 32) 0#8
    else s.dataByte x

/-- The dirty halves of a line go into the write buffer, where it has room for both. -/
theorem writeBack_memory (hm : s.physMap = []) (hroom : s.writeBuffer.length + 2 ≤ 8) (l : DLine) :
    ∃ u, writeBack l s = .ok () u ∧ OnlyQueued s u ∧ WrittenBack l s u := by
  obtain ⟨t, hlo, ht, hlen, wlo⟩ := writeBackHalf_memory hm (by omega) l false
  have lowHalf (x : Nat) : decide (16 ≤ x % 32) = false ↔ x % 32 < 16 := by simp
  have highHalf (x : Nat) : decide (16 ≤ x % 32) = true ↔ ¬ x % 32 < 16 := by simp
  unfold writeBack WrittenBack
  cases l.dirtyLo <;> cases l.dirtyHi
  · exact ⟨s, rfl, ⟨s.scratch, s.writeBuffer, rfl⟩, fun x => by simp⟩
  · obtain ⟨u, hhi, hu, -, whi⟩ := writeBackHalf_memory hm (by omega) l true
    refine ⟨u, hhi, hu, fun x => ?_⟩
    rw [whi x]
    by_cases hx : x % 32 < 16 <;> simp only [highHalf, hx] <;> simp
  · refine ⟨t, (bind_apply_of_ok hlo _).trans rfl, ht, fun x => ?_⟩
    rw [wlo x]
    by_cases hx : x % 32 < 16 <;> simp only [lowHalf, hx] <;> simp
  · obtain ⟨u, hhi, hu, -, whi⟩ := writeBackHalf_memory (ht.physMap.trans hm) (by omega) l true
    refine ⟨u, (bind_apply_of_ok hlo _).trans hhi, ht.trans hu, fun x => ?_⟩
    rw [whi x, wlo x]
    by_cases hx : x % 32 < 16 <;> simp only [lowHalf, highHalf, hx] <;> simp

end
end Sys2Proof.Machine

/-!
SUPPORT. The fill of a line, and the loads and stores that a line answers or brings in (21_mmu_caches_tlb.md R244 to
R246, R250, R251, R260).
-/

namespace Sys2Proof.Machine
section

variable {s t u : State} {l l' : DLine} {mva pa : Word} {mini b : Bool} {slot : Nat} {bs data : List Byte}
  {a : Attrs} {v : Word}

/-! ### Fills -/

theorem findDLine_of_mainLine (h : s.dcache.lines = [(slot, l)]) (hl : isDLineOf 32 mva (slot, l) = true) :
    s.findDLine mva = some (false, slot, l) :=
  findDLine_eq_main ((congrArg (·.find? (isDLineOf 32 mva)) h).trans (List.find?_cons_of_pos hl))

theorem findDLine_of_miniLine (hd : s.dcache.lines = []) (h : s.miniDc.lines = [(slot, l)])
    (hl : isDLineOf 2 mva (slot, l) = true) : s.findDLine mva = some (true, slot, l) :=
  findDLine_eq_mini (congrArg (·.find? (isDLineOf 32 mva)) hd)
    ((congrArg (·.find? (isDLineOf 2 mva)) h).trans (List.find?_cons_of_pos hl))

/-- The line that a fill brings in: clean and of good parity. -/
def freshLine (mva pa : Word) (data : List Byte) : DLine :=
  { tag := tagOf mva, paLine := pa.extractLsb' 5 27, data := data, dirtyLo := false, dirtyHi := false, bad := 0#32 }

theorem isDLineOf_fresh {ways way : Nat} (h : way < ways) (mva pa : Word) (data : List Byte) :
    isDLineOf ways mva (ways * setOf mva + way, freshLine mva pa data) = true := by
  have hset : (ways * setOf mva + way) / ways = setOf mva := by
    rw [Nat.mul_add_div (by omega), Nat.div_eq_of_lt h, Nat.add_zero]
  simp [isDLineOf, hset, freshLine]

/-- A fill of the main data cache, with the line in its place written back. -/
theorem allocateLine_main {way : Nat} {rr locked : List (Nat × Nat)}
    (hplace : placeLine s.dcache.rr s.dcache.locked (setOf mva) s.cp15.dcacheLock = (way, rr, locked))
    (hwb : (tblGet s.dcache.lines (32 * setOf mva + way)).elim (pure ()) writeBack s = .ok () u) :
    allocateLine false mva pa data s = .ok ()
      { u with dcache := { lines := tblSet u.dcache.lines (32 * setOf mva + way) (freshLine mva pa data), rr := rr,
                           locked := locked } } := by
  simp only [allocateLine, get_bind_apply, hplace, Bool.false_eq_true, if_false]
  revert hwb
  cases tblGet s.dcache.lines (32 * setOf mva + way) with
  | none =>
    intro hwb
    cases hwb
    rfl
  | some old => exact fun hwb => bind_apply_of_ok hwb _

/-- A fill of the mini-data cache where its place is free. -/
theorem allocateLine_mini (hlock : s.cp15.dcacheLock = false)
    (hfree : tblGet s.miniDc.lines (2 * setOf mva + (tblGet s.miniDc.rr (setOf mva)).getD 0) = none) :
    allocateLine true mva pa data s = .ok ()
      { s with miniDc :=
          { lines := tblSet s.miniDc.lines (2 * setOf mva + (tblGet s.miniDc.rr (setOf mva)).getD 0)
              (freshLine mva pa data),
            rr := tblPut s.miniDc.rr (setOf mva) (1 - (tblGet s.miniDc.rr (setOf mva)).getD 0) 0 } } := by
  simp only [allocateLine, get_bind_apply, hlock, hfree, Bool.false_eq_true, if_false, if_true]
  rfl

/-- Only the data caches differ. -/
def OnlyCached (s t : State) : Prop := ∃ d m, t = { s with dcache := d, miniDc := m }

/-- What a fill from a state without lines leaves. -/
structure FilledOnly (mini : Bool) (mva pa : Word) (data : List Byte) (s u : State) : Prop where
  line : ∃ slot, u.findDLine mva = some (mini, slot, freshLine mva pa data)
  locks : LocksKeptBut mini mva s u
  rest : OnlyCached s u

theorem lockedOf_tblPut (tbl : List (Nat × Nat)) (k n set : Nat) (h : n ≠ 0) :
    lockedOf (tblPut tbl k n 0) set = if set = k then n else lockedOf tbl set := by
  rw [lockedOf, lockedOf, tblPut, if_neg h]
  split
  · next he => rw [he, tblGet_tblSet_self, Option.getD_some]
  · next hne => rw [tblGet_tblSet_of_ne _ _ hne]

/-- Where a line goes in a main data cache that is as after reset. -/
theorem placeLine_reset (set : Nat) (lock : Bool) : ∃ way rr locked, way < 32 ∧
    placeLine State.reset.dcache.rr State.reset.dcache.locked set lock = (way, rr, locked) ∧
      ∀ set', lockedOf locked set' =
        lockedOf State.reset.dcache.locked set' + if lock && set' == set then 1 else 0 := by
  cases lock
  · exact ⟨31, _, _, by decide, rfl, fun _ => rfl⟩
  · refine ⟨0, _, _, by decide, rfl, fun set' => (lockedOf_tblPut _ _ _ _ (Nat.succ_ne_zero _)).trans ?_⟩
    by_cases h : set' = set
    · rw [if_pos h, h, Bool.true_and, beq_self_eq_true, if_pos rfl]
    · rw [if_neg h, Bool.true_and, beq_false_of_ne h, if_neg Bool.false_ne_true]
      rfl

theorem allocateLine_empty (h : s.emptyDCaches) (hlock : mini = true → s.cp15.dcacheLock = false) :
    ∃ u, allocateLine mini mva pa data s = .ok () u ∧ FilledOnly mini mva pa data s u := by
  obtain ⟨hd, hm⟩ := h
  cases mini with
  | false =>
    obtain ⟨way, rr, locked, hway, hplace, hlocks⟩ := placeLine_reset (setOf mva) s.cp15.dcacheLock
    rw [← hd] at hplace hlocks
    have hlines : s.dcache.lines = [] := by rw [hd]; rfl
    have hfresh : tblSet s.dcache.lines (32 * setOf mva + way) (freshLine mva pa data) =
        [(32 * setOf mva + way, freshLine mva pa data)] := by rw [hlines]; rfl
    refine ⟨_, allocateLine_main hplace (by rw [hlines]; rfl),
      ⟨_, findDLine_of_mainLine hfresh (isDLineOf_fresh hway mva pa data)⟩, fun set => ?_, _, _, rfl⟩
    rw [hlocks, Bool.not_false, Bool.and_true]
  | true =>
    have hlines : s.miniDc.lines = [] := by rw [hm]; rfl
    have hrr : s.miniDc.rr = [] := by rw [hm]; rfl
    have hfresh : tblSet s.miniDc.lines (2 * setOf mva + (tblGet s.miniDc.rr (setOf mva)).getD 0)
        (freshLine mva pa data) = [(2 * setOf mva + 0, freshLine mva pa data)] := by rw [hlines, hrr]; rfl
    refine ⟨_, allocateLine_mini (hlock rfl) (by rw [hlines]; rfl),
      ⟨_, findDLine_of_miniLine (congrArg DCache.lines hd) hfresh (isDLineOf_fresh (by decide) mva pa data)⟩,
      fun set => ?_, _, _, rfl⟩
    rw [Bool.not_true, Bool.and_false, Bool.false_and, if_neg Bool.false_ne_true, Nat.add_zero]

/-- A line that is filled from memory. -/
theorem fillLine_memory (hm : s.physMap = []) (hw : s.writeBuffer = []) {latch : Bool}
    (h : allocateLine mini mva pa (s.busBytes (lineBase pa) 32) s = .ok () u) :
    fillLine mini mva pa latch s = .ok true u := by
  rw [fillLine, bind_apply_of_ok (busRead_memory hm hw _ _)]
  dsimp only
  rw [bind_apply_of_ok h]
  rfl

/-- A fill of the main data cache, as after reset but for a line in the place that is filled: this line is written
back. -/
theorem fillLine_evict (hm : s.physMap = []) (hw : s.writeBuffer = []) (hlock : s.cp15.dcacheLock = false)
    (hd : s.dcache = { State.reset.dcache with lines := [(32 * setOf mva + 31, l)] }) (latch : Bool) :
    ∃ u, fillLine false mva pa latch s = .ok true u ∧
      u.dcache.lines = [(32 * setOf mva + 31, freshLine mva pa (s.busBytes (lineBase pa) 32))] ∧ WrittenBack l s u ∧
      ∃ notes wb d, u = { s with scratch := notes, writeBuffer := wb, dcache := d } := by
  obtain ⟨t, hwb, ⟨notes, wb, rfl⟩, hback⟩ := writeBack_memory hm (by rw [hw]; decide) l
  have hold : tblGet s.dcache.lines (32 * setOf mva + 31) = some l := by
    rw [hd]
    exact if_pos rfl
  have hplace : placeLine s.dcache.rr s.dcache.locked (setOf mva) s.cp15.dcacheLock =
      (31, tblPut [] (setOf mva) 0 31, []) := by
    rw [hlock, hd]
    rfl
  have hevict := (congrArg (Option.elim · (pure ()) writeBack s) hold).trans hwb
  refine ⟨_, fillLine_memory hm hw (allocateLine_main hplace hevict), ?_, hback, _, _, _, rfl⟩
  change tblSet s.dcache.lines (32 * setOf mva + 31) _ = _
  rw [hd]
  simp [tblSet]

theorem lineBase_toNat (a : Word) : (lineBase a).toNat = a.toNat / 32 * 32 := by
  have ha := a.isLt
  rw [lineBase, toNat_line, BitVec.extractLsb'_toNat, Nat.shiftRight_eq_div_pow]
  omega

/-- The bytes that a line is filled with. -/
theorem busBytes_lineBase (s : State) (pa : Word) {i : Nat} (hi : i < 32) :
    (s.busBytes (lineBase pa) 32)[i]? = some (s.dataByte (pa.toNat / 32 * 32 + i)) := by
  have hpa := pa.isLt
  have hlane : laneAddr (lineBase pa) i = pa.toNat / 32 * 32 + i := by
    rw [laneAddr, lineBase_toNat]
    omega
  simp [State.busBytes, hi, hlane, State.dataByte]

/-- A word of a line that was filled is the word of memory. -/
theorem wordOf_read_fresh (hw : s.writeBuffer = []) (hpa : pa.extractLsb' 0 2 = 0#2)
    (hoff : offsetOf mva = pa.toNat % 32) :
    wordOf ((freshLine mva pa (s.busBytes (lineBase pa) 32)).read (offsetOf mva) 4) = memWord s.mem pa := by
  have hmod : pa.toNat % 4 = 0 := by simpa using congrArg BitVec.toNat hpa
  rw [← wordOf_busBytes hw]
  congr 1
  refine List.map_congr_left fun i hi => ?_
  have hi := List.mem_range.1 hi
  have hlane : laneAddr pa i = pa.toNat / 32 * 32 + (pa.toNat % 32 + i) := by
    have hlt := pa.isLt
    rw [laneAddr]
    omega
  rw [hoff, hlane, List.getD_eq_getElem?_getD]
  change ((s.busBytes (lineBase pa) 32)[pa.toNat % 32 + i]?).getD 0#8 = _
  rw [busBytes_lineBase s pa (by omega)]
  rfl

/-! ### Loads -/

/-- A load that a line answers. -/
theorem loadBytes_hit (hw : s.writeBuffer = []) (hr : s.reservedAttrs a = false)
    (hf : s.findDLine mva = some (b, slot, l)) (hbad : l.bad = 0#32) (pa : Word) (n : Nat) :
    loadBytes mva pa a n s = .ok (some (l.read (offsetOf mva) n)) (s.noteAccess false) := by
  simp only [loadBytes, modify_bind_apply, get_bind_apply, fence_of_empty hw, hr, hf, set_bind_apply,
    Bool.false_eq_true, if_false, loadHit, parityError_of_good hbad]
  rfl

/-- A load that brings its line in. -/
theorem loadBytes_fill (hw : s.writeBuffer = []) (hr : s.reservedAttrs a = false) (hf : s.findDLine mva = none)
    (hc : s.cacheable a = true) (hfill : fillLine a.mini mva pa true (s.noteAccess true) = .ok true u)
    (hu : u.findDLine mva = some (b, slot, l)) (n : Nat) :
    loadBytes mva pa a n s = .ok (some (l.read (offsetOf mva) n)) u := by
  simp only [loadBytes, modify_bind_apply, get_bind_apply, fence_of_empty hw, hr, hf, hc, set_bind_apply,
    Bool.false_eq_true, if_false, if_true]
  rw [bind_apply_of_ok hfill]
  simp only [get_bind_apply, hu]
  rfl

/-! ### Stores -/

/-- A store that a line answers. -/
theorem storeBytes_hit (hw : s.writeBuffer = []) (hr : s.reservedAttrs a = false)
    (hf : s.findDLine mva = some (b, slot, l)) (pa : Word) (bs : List Byte) :
    storeBytes mva pa a bs s = storeHit b slot l mva pa a bs (s.noteAccess false) := by
  simp only [storeBytes, modify_bind_apply, get_bind_apply, fence_of_empty hw, hr, hf, set_bind_apply,
    Bool.false_eq_true, if_false]

/-- A store that brings its line in first. -/
theorem storeBytes_fill (hw : s.writeBuffer = []) (hr : s.reservedAttrs a = false) (hf : s.findDLine mva = none)
    (hc : (s.cacheable a && s.writeAllocates a) = true)
    (hfill : fillLine a.mini mva pa true (s.noteAccess true) = .ok true u)
    (hu : u.findDLine mva = some (b, slot, l)) (bs : List Byte) :
    storeBytes mva pa a bs s = storeHit b slot l mva pa a bs u := by
  simp only [storeBytes, modify_bind_apply, get_bind_apply, fence_of_empty hw, hr, hf, hc, set_bind_apply,
    Bool.false_eq_true, if_false, if_true]
  rw [bind_apply_of_ok hfill]
  simp only [get_bind_apply, hu]

/-- A store that stays in the line. -/
theorem storeHit_dirty (hd : u.dcache = s.dcache) (hm : u.miniDc = s.miniDc) (h : u.writesThrough a = false) :
    storeHit b slot l mva pa a bs u = .ok () { u.noteModified (l.paLine ++ mva.extractLsb' 0 5) bs with
      dcache := (s.setDLine b slot ((l.write (offsetOf mva) bs).dirty (offsetOf mva))).dcache,
      miniDc := (s.setDLine b slot ((l.write (offsetOf mva) bs).dirty (offsetOf mva))).miniDc } := by
  simp only [storeHit, get_bind_apply, h, Bool.false_eq_true, if_false]
  exact congrArg (EStateM.Result.ok ())
    (setDLine_eq (u := u.noteModified (l.paLine ++ mva.extractLsb' 0 5) bs) hd hm b slot _)

/-- A store that also goes to memory. -/
theorem storeHit_through (hd : u.dcache = s.dcache) (hm : u.miniDc = s.miniDc) (h : u.writesThrough a = true) :
    storeHit b slot l mva pa a bs u = storeBus pa a bs { u with
      dcache := (s.setDLine b slot (l.write (offsetOf mva) bs)).dcache,
      miniDc := (s.setDLine b slot (l.write (offsetOf mva) bs)).miniDc } := by
  simp only [storeHit, get_bind_apply, h, if_true, set_bind_apply]
  rw [setDLine_eq hd hm]

/-- No page both allocates for stores and writes through (21_mmu_caches_tlb.md R194, R195). -/
theorem writesThrough_of_writeAllocates (h : s.writeAllocates a = true) : s.writesThrough a = false := by
  obtain ⟨x, c, b⟩ := a
  revert h
  unfold State.writeAllocates State.writesThrough Attrs.mini
  generalize s.miniPolicy = policy
  revert x c b policy
  decide

end
end Sys2Proof.Machine

/-!
SUPPORT. LDR and STR through the table walk (21_mmu_caches_tlb.md R181 to R187, R192): each descriptor gives a
translation, and a granted access through it reaches the bus side. Settles O20.
-/

namespace Sys2Proof.Machine
section

variable {s : State} {cond : BitVec 4} {rn rd : RegNum} {am : Mode2} {e : TlbEntry} {d mva pa l1 l2 : Word}
  {domain : BitVec 4} {size : PageSize} {x : Bool} {ap : BitVec 2}

/-- What O20 asks beyond that: neither the data TLB nor a data cache holds anything of the access. -/
structure WalksToBus (s : State) (cond : BitVec 4) (rn rd : RegNum) (am : Mode2) (mva : Word) : Prop extends
    WordAccess s cond rn rd am mva where
  dcacheOff : s.dcacheOn = false
  noEntries : s.dtlb.entries = []
  noLine : s.findDLine mva = none

/-- The data TLB holds the translation of an MVA to a physical address. -/
def HoldsTranslation (mva pa : Word) (t : State) : Prop :=
  ∃ e, t.dtlb.lookup mva = some e ∧ e.physical mva = pa

/-- What O20 says of LDR and STR through a descriptor d with this domain and permission: the word at pa is read or
stored, and the TLB holds the translation. -/
def ReachesWord (s : State) (cond : BitVec 4) (rn rd : RegNum) (am : Mode2) (mva : Word) (domain : BitVec 4)
    (pa d : Word) (x : Bool) (ap : BitVec 2) : Prop :=
  s.reservedAttrs { x := x, c := d.getLsbD 3, b := d.getLsbD 2 } = false →
    (s.granted domain ap s.privileged false = true →
      Completes (.ldr cond rn rd am) s fun t =>
        t.reg rd = memWord s.mem pa ∧ HoldsTranslation mva pa t ∧ BaseIs rn (s.mode2 rn am) t ∧
          Advances s t ∧ FlagsKept s t ∧ RegsKept (rd :: (s.mode2 rn am).base rn) s t ∧ BytesKept s t ∧
          RestKept s { t with dtlb := s.dtlb }) ∧
    (s.granted domain ap s.privileged true = true →
      Completes (.str cond rn rd am) s fun t =>
        WordStoredAt pa (s.reg rd) s t ∧ HoldsTranslation mva pa t ∧
          BaseIs rn (s.mode2 rn am) t ∧ Advances s t ∧ FlagsKept s t ∧ RegsKept ((s.mode2 rn am).base rn) s t ∧
          RestKept s { t with dtlb := s.dtlb, mem := s.mem, writeBuffer := s.writeBuffer })

/-- An access through a translation that the walk finds. -/
theorem reachesWord_of_walk (h : WalksToBus s cond rn rd am mva)
    (hw : walk mva (s.noteTlbMiss false) = .ok e (s.noteTlbMiss false)) {sec : Bool}
    (hg : e.Grants mva sec domain ap) (hpage : e.IsPageOf size d mva x)
    (hpa : ∀ i, i < 32 →
      pa.getLsbD i = if i < size.bits then mva.getLsbD i else d.getLsbD i) :
    ReachesWord s cond rn rd am mva domain pa d x ap := by
  intro hres
  have hphys : e.physical mva = pa := hpage.physical hpa
  have held : HoldsTranslation mva pa (s.walked e) :=
    ⟨e, lookup_walked h.noEntries hpage.covers, hphys⟩
  have place (write : Bool) (hgrant : s.granted domain ap s.privileged write = true) :
      Placed s (s.mode2 rn am).at_ mva pa e.attrs write (s.walked e) := by
    rw [← hg.domain, ← hg.ap] at hgrant
    exact hphys ▸ placed_walked h.debugOn h.mmuOn h.address h.aligned h.noEntries hw hgrant
  have hattrs : (s.walked e).reservedAttrs e.attrs = false := by
    rw [hpage.attrs]
    exact hres
  have huncached : (s.walked e).cacheable e.attrs = false := by
    rw [State.cacheable, show (s.walked e).dcacheOn = false from h.dcacheOff, Bool.and_false]
  have hnone : (s.walked e).findDLine mva = none := h.noLine
  refine ⟨fun hgrant => ?_, fun hgrant => ?_⟩
  · have hload := loadBytes_bus (s := s.walked e) h.physMap h.writeBuffer hattrs hnone huncached pa 4
    have hread := memReadWord_of_placed (place false hgrant) hload
    refine (ldr_completes h.passes h.notPc h.inDebug h.refusal hread).mono ?_
    rintro t ⟨⟨regs, pc, rfl⟩, hreg, ht⟩
    exact ⟨hreg.trans (wordOf_busBytes (s := s.walked e) h.writeBuffer pa), held, ht.base, ht.pc, ht.flags,
      ht.regs, fun _ => rfl, rfl⟩
  · have hword : pa.extractLsb' 0 2 = 0#2 := by
      rw [← hphys, extract_physical e _ (by decide)]
      exact h.aligned
    obtain ⟨m, wb, notes, hstore, hstored⟩ := storeBytes_bus_word (s := s.walked e) h.physMap h.writeBuffer h.wf hattrs
      hnone (by rw [huncached, Bool.false_and]) hword (s.reg rd)
    refine (str_completes h.passes h.refusal (memWrite_of_placed (place true hgrant) hstore)).mono ?_
    rintro t ⟨⟨regs, pc, rfl⟩, ht⟩
    exact ⟨hstored, held, ht.base, ht.pc, ht.flags, ht.regs, rfl⟩

/-- With every address memory the walk goes on from the first-level descriptor in memory. -/
theorem walk_firstLevel (hm : s.physMap = []) (mva : Word) :
    walk mva (s.noteTlbMiss false) = walkFrom (s.firstLevel mva) mva (s.noteTlbMiss false) :=
  walk_memory (s := s.noteTlbMiss false) (regionAt_plain hm _ _)

/-- Through a section. -/
theorem reachesWord_section (h : WalksToBus s cond rn rd am mva)
    (hl1 : s.firstLevel mva = l1) (h9 : l1.getLsbD 9 = false) (hkind : l1.extractLsb' 0 2 = 2#2) :
    ReachesWord s cond rn rd am mva (l1.extractLsb' 5 4)
      (l1.extractLsb' 20 12 ++ mva.extractLsb' 0 20) l1 (l1.getLsbD 12)
      (l1.extractLsb' 10 2) := by
  obtain ⟨e, he, hg⟩ := walkFrom_section (s := s.noteTlbMiss false) (mva := mva) hkind h9
  exact reachesWord_of_walk h ((walk_firstLevel h.physMap _).trans (hl1 ▸ he)) hg (walkFrom_section_page hkind h9 he)
    fun i hi => getLsbD_splice l1 _ 20 12 hi

/-- Through a table: what the second-level descriptor gives. -/
theorem reachesWord_table {fine : Bool} (h : WalksToBus s cond rn rd am mva)
    (hl1 : s.firstLevel mva = l1) (h9 : l1.getLsbD 9 = false)
    (hkind : l1.extractLsb' 0 2 = 1#2 ∨ l1.extractLsb' 0 2 = 3#2) (hfine : (l1.extractLsb' 0 2 == 3#2) = fine)
    (hl2 : memWord s.mem (secondAddress l1 mva) = l2)
    (hgives : ∃ e, secondLevel l2 fine (l1.extractLsb' 5 4) mva = .ok e ∧
      e.Grants mva false (l1.extractLsb' 5 4) ap)
    (hpage : ∀ e, secondLevel l2 fine (l1.extractLsb' 5 4) mva = .ok e →
      e.IsPageOf size l2 mva x)
    (hpa : ∀ i, i < 32 →
      pa.getLsbD i = if i < size.bits then mva.getLsbD i else l2.getLsbD i) :
    ReachesWord s cond rn rd am mva (l1.extractLsb' 5 4) pa l2 x ap := by
  obtain ⟨e, he, hg⟩ := hgives
  have htable := walkFrom_tableMemory (s := s.noteTlbMiss false) (mva := mva) hkind h9
    (regionAt_plain (s := s.noteTlbMiss false) h.physMap _ _)
  have hsecond : walkFrom l1 mva (s.noteTlbMiss false) = .ok e (s.noteTlbMiss false) := by
    rw [htable, hfine, show (s.noteTlbMiss false).mem = s.mem from rfl, hl2, he]
    rfl
  exact reachesWord_of_walk h ((walk_firstLevel h.physMap _).trans (hl1 ▸ hsecond)) hg (hpage e he) hpa

end

/-- Settles O20: a section (`reachesWord_section`), or the page that a table's descriptor gives
(`reachesWord_table`). -/
theorem translatedAccess : Obligations.TranslatedAccess := by
  intro s cond rn rd am hp hrd hb hd hr hm hc he hmap hw hwf ad mva l1 l2 quarter reaches hu hf h9
  have h : WalksToBus s cond rn rd am mva := ⟨⟨hp, hrd, hb, hd, hr, hm, hmap, hw, hwf, rfl, hu⟩, hc, he, hf⟩
  refine ⟨reachesWord_section h rfl h9, fun hkind => ⟨fun hlarge => ?_, fun hsmall => ?_, fun huniform =>
    ⟨fun hcoarse => ?_, fun hfine => ?_⟩⟩⟩
  · exact reachesWord_table h rfl h9 hkind rfl rfl (secondLevel_large hlarge _ _ mva)
      (fun _ => secondLevel_large_page hlarge) fun i hi => getLsbD_splice l2 mva 16 16 hi
  · exact reachesWord_table h rfl h9 hkind rfl rfl (secondLevel_small hsmall _ _ mva)
      (fun _ => secondLevel_small_page hsmall) fun i hi => getLsbD_splice l2 mva 12 20 hi
  · exact reachesWord_table (fine := false) h rfl h9 hkind (by rw [hcoarse]; rfl) rfl
      (secondLevel_uniform huniform _ _ mva) (fun _ => secondLevel_uniform_page huniform)
      fun i hi => getLsbD_splice l2 mva 12 20 hi
  · exact reachesWord_table (fine := true) h rfl h9 hkind (by rw [hfine]; rfl) rfl
      (secondLevel_uniform huniform _ _ mva) (fun _ => secondLevel_uniform_page huniform)
      fun i hi => getLsbD_splice l2 mva 10 22 hi

end Sys2Proof.Machine

/-!
SUPPORT. LDR and STR of a page that the data TLB holds (21_mmu_caches_tlb.md R187, R241 to R251, R260): an access that a
line answers, one that goes to the bus side, and one that brings its line in. Settles O21.
-/

namespace Sys2Proof.Machine
section

variable {s t u : State} {cond : BitVec 4} {rn rd : RegNum} {am : Mode2} {e : TlbEntry} {mva pa : Word} {b : Bool}
  {slot : Nat} {l : DLine} {bs : List Byte} {P : State → Prop} {undo : State → State}

/-- What O21 asks of a word access beyond that: the data TLB holds its page, whose attributes are not reserved. -/
structure HitsTlb (s : State) (cond : BitVec 4) (rn rd : RegNum) (am : Mode2) (e : TlbEntry) (mva pa : Word) : Prop
    extends WordAccess s cond rn rd am mva where
  entry : s.dtlb.lookup mva = some e
  attrs : s.reservedAttrs e.attrs = false
  physical : e.physical mva = pa

/-- What O21 says of a load that is granted: P afterwards, and beside the registers nothing but what `undo` takes back
has changed. -/
def LoadsWord (s : State) (cond : BitVec 4) (rn rd : RegNum) (am : Mode2) (e : TlbEntry) (mva : Word) (P : State → Prop)
    (undo : State → State) : Prop :=
  s.granted e.domain (e.apFor mva) s.privileged false = true →
    Completes (.ldr cond rn rd am) s fun t => P t ∧ BaseIs rn (s.mode2 rn am) t ∧ Advances s t ∧ FlagsKept s t ∧
      RegsKept (rd :: (s.mode2 rn am).base rn) s t ∧ RestKept s (undo t)

/-- What O21 says of a store that is granted. -/
def StoresWord (s : State) (cond : BitVec 4) (rn rd : RegNum) (am : Mode2) (e : TlbEntry) (mva : Word)
    (P : State → Prop) (undo : State → State) : Prop :=
  s.granted e.domain (e.apFor mva) s.privileged true = true →
    Completes (.str cond rn rd am) s fun t => P t ∧ BaseIs rn (s.mode2 rn am) t ∧ Advances s t ∧ FlagsKept s t ∧
      RegsKept ((s.mode2 rn am).base rn) s t ∧ RestKept s (undo t)

/-! ### From the access to the instruction -/

theorem loadsWord_of_loadBytes (h : HitsTlb s cond rn rd am e mva pa)
    (hload : loadBytes mva pa e.attrs 4 s = .ok (some bs) u)
    (hP : ∀ t, DiffersInRegs u t → t.reg rd = wordOf bs → P t ∧ RestKept s (undo t)) :
    LoadsWord s cond rn rd am e mva P undo := by
  intro hg
  have hplace := placed_hit h.debugOn h.mmuOn h.address h.aligned h.entry hg
  rw [h.physical] at hplace
  refine (ldr_completes h.passes h.notPc h.inDebug h.refusal (memReadWord_of_placed hplace hload)).mono ?_
  rintro t ⟨hu, hreg, ht⟩
  obtain ⟨hp, hrest⟩ := hP t hu hreg
  exact ⟨hp, ht.base, ht.pc, ht.flags, ht.regs, hrest⟩

theorem storesWord_of_storeBytes (h : HitsTlb s cond rn rd am e mva pa)
    (hstore : storeBytes mva pa e.attrs (bytesOf (s.reg rd) 4) s = .ok () u)
    (hP : ∀ t, DiffersInRegs u t → P t ∧ RestKept s (undo t)) :
    StoresWord s cond rn rd am e mva P undo := by
  intro hg
  have hplace := placed_hit h.debugOn h.mmuOn h.address h.aligned h.entry hg
  rw [h.physical] at hplace
  refine (str_completes h.passes h.refusal (memWrite_of_placed hplace hstore)).mono ?_
  rintro t ⟨hu, ht⟩
  obtain ⟨hp, hrest⟩ := hP t hu
  exact ⟨hp, ht.base, ht.pc, ht.flags, ht.regs, hrest⟩

/-! ### Where the word is in its line -/

theorem HitsTlb.word (h : HitsTlb s cond rn rd am e mva pa) : pa.extractLsb' 0 2 = 0#2 := by
  rw [← h.physical, extract_physical e mva (by decide)]
  exact h.aligned

theorem HitsTlb.offset (h : HitsTlb s cond rn rd am e mva pa) : offsetOf mva = pa.toNat % 32 := by
  rw [offsetOf, ← extract_physical e mva (by decide), h.physical]
  simp

/-- A word does not leave its line. -/
theorem HitsTlb.offset_le (h : HitsTlb s cond rn rd am e mva pa) : offsetOf mva + 4 ≤ 32 := by
  have hmod : pa.toNat % 4 = 0 := by simpa using congrArg BitVec.toNat h.word
  rw [h.offset]
  omega

/-! ### A line answers (21_mmu_caches_tlb.md R250, R251) -/

/-- The data caches of t are put back to those of s. -/
def State.withCaches (s t : State) : State := { t with dcache := s.dcache, miniDc := s.miniDc }

/-- Memory and write buffer of t are put back to those of s. -/
def State.withBus (s t : State) : State := { t with mem := s.mem, writeBuffer := s.writeBuffer }

theorem loadsWord_hit (h : HitsTlb s cond rn rd am e mva pa) (hf : s.findDLine mva = some (b, slot, l))
    (hbad : l.bad = 0#32) :
    LoadsWord s cond rn rd am e mva (fun t => t.reg rd = wordOf (l.read (offsetOf mva) 4) ∧ BytesKept s t) id := by
  refine loadsWord_of_loadBytes h (loadBytes_hit h.writeBuffer h.attrs hf hbad pa 4) ?_
  rintro t ⟨regs, pc, rfl⟩ hreg
  exact ⟨⟨hreg, fun _ => rfl⟩, rfl⟩

/-- The line that a store leaves where another answered it. -/
def LineStored (s : State) (mva v : Word) (b : Bool) (slot : Nat) (l : DLine) (stays : Bool) (t : State) : Prop :=
  ∃ l', Rewritten l (offsetOf mva) v stays l' ∧ t.dcache = (s.setDLine b slot l').dcache ∧
    t.miniDc = (s.setDLine b slot l').miniDc ∧ t.findDLine mva = some (b, slot, l')

theorem storesWord_hit_dirty (h : HitsTlb s cond rn rd am e mva pa) (hf : s.findDLine mva = some (b, slot, l))
    (hbad : l.bad = 0#32) (hlen : l.data.length = 32) (hthrough : s.writesThrough e.attrs = false) :
    StoresWord s cond rn rd am e mva
      (fun t => LineStored s mva (s.reg rd) b slot l true t ∧ BytesKept s t) s.withCaches := by
  have hline := rewritten_dirty (off := offsetOf mva) hbad (by rw [hlen]; exact h.offset_le) (s.reg rd)
  have hstore := (storeBytes_hit h.writeBuffer h.attrs hf pa (bytesOf (s.reg rd) 4)).trans
    (storeHit_dirty (s := s) (u := s.noteAccess false) rfl rfl hthrough)
  refine storesWord_of_storeBytes h hstore ?_
  rintro t ⟨regs, pc, rfl⟩
  exact ⟨⟨⟨_, hline, rfl, rfl, findDLine_setDLine hf hline.tag⟩, fun _ => rfl⟩, rfl⟩

theorem storesWord_hit_through (h : HitsTlb s cond rn rd am e mva pa) (hf : s.findDLine mva = some (b, slot, l))
    (hbad : l.bad = 0#32) (hlen : l.data.length = 32) (hthrough : s.writesThrough e.attrs = true) :
    StoresWord s cond rn rd am e mva
      (fun t => LineStored s mva (s.reg rd) b slot l false t ∧ WordStoredAt pa (s.reg rd) s t)
      (fun t => s.withCaches (s.withBus t)) := by
  have hline := rewritten_write (off := offsetOf mva) hbad (by rw [hlen]; exact h.offset_le) (s.reg rd)
  have hstore := (storeBytes_hit h.writeBuffer h.attrs hf pa (bytesOf (s.reg rd) 4)).trans
    (storeHit_through (s := s) (u := s.noteAccess false) rfl rfl hthrough)
  obtain ⟨m, wb, notes, hbus, hwritten, hwf⟩ := storeBus_memory
    (s := { s.noteAccess false with
      dcache := (s.setDLine b slot (l.write (offsetOf mva) (bytesOf (s.reg rd) 4))).dcache,
      miniDc := (s.setDLine b slot (l.write (offsetOf mva) (bytesOf (s.reg rd) 4))).miniDc })
    h.physMap h.writeBuffer h.wf (word_fits h.word (s.reg rd)) e.attrs
  refine storesWord_of_storeBytes h (hstore.trans hbus) ?_
  rintro t ⟨regs, pc, rfl⟩
  exact ⟨⟨⟨_, hline, rfl, rfl, findDLine_setDLine hf hline.tag⟩,
    BusWritten.wordStoredAt (s := s) hwritten hwf⟩, rfl⟩

/-! ### The bus side answers (21_mmu_caches_tlb.md R250, R251) -/

theorem loadsWord_bus (h : HitsTlb s cond rn rd am e mva pa) (hf : s.findDLine mva = none)
    (hc : s.cacheable e.attrs = false) :
    LoadsWord s cond rn rd am e mva (fun t => t.reg rd = memWord s.mem pa ∧ BytesKept s t) id := by
  refine loadsWord_of_loadBytes h (loadBytes_bus h.physMap h.writeBuffer h.attrs hf hc pa 4) ?_
  rintro t ⟨regs, pc, rfl⟩ hreg
  exact ⟨⟨hreg.trans (wordOf_busBytes h.writeBuffer pa), fun _ => rfl⟩, rfl⟩

theorem storesWord_bus (h : HitsTlb s cond rn rd am e mva pa) (hf : s.findDLine mva = none)
    (hc : s.cacheable e.attrs = false ∨ s.writeAllocates e.attrs = false) :
    StoresWord s cond rn rd am e mva (fun t => WordStoredAt pa (s.reg rd) s t) s.withBus := by
  obtain ⟨m, wb, notes, hstore, hstored⟩ := storeBytes_bus_word h.physMap h.writeBuffer h.wf h.attrs hf
    (Bool.and_eq_false_iff.2 hc) h.word (s.reg rd)
  refine storesWord_of_storeBytes h hstore ?_
  rintro t ⟨regs, pc, rfl⟩
  exact ⟨hstored, rfl⟩

/-! ### A line is brought in (21_mmu_caches_tlb.md R244 to R246, R260) -/

/-- The fill from a state without lines. -/
theorem fillLine_empty (h : HitsTlb s cond rn rd am e mva pa) (hempty : s.emptyDCaches)
    (hlock : e.attrs.mini = true → s.cp15.dcacheLock = false) :
    ∃ u, fillLine e.attrs.mini mva pa true (s.noteAccess true) = .ok true u ∧
      FilledOnly e.attrs.mini mva pa (s.busBytes (lineBase pa) 32) (s.noteAccess true) u := by
  obtain ⟨u, halloc, hu⟩ := allocateLine_empty (s := s.noteAccess true) (mva := mva) (pa := pa)
    (data := s.busBytes (lineBase pa) 32) hempty hlock
  exact ⟨u, fillLine_memory (s := s.noteAccess true) h.physMap h.writeBuffer halloc, hu⟩

theorem loadsWord_fill (h : HitsTlb s cond rn rd am e mva pa) (hf : s.findDLine mva = none)
    (hc : s.cacheable e.attrs = true) (hempty : s.emptyDCaches)
    (hlock : e.attrs.mini = true → s.cp15.dcacheLock = false) :
    LoadsWord s cond rn rd am e mva (fun t => t.reg rd = memWord s.mem pa ∧ Filled e.attrs.mini mva pa s t ∧
      LocksKeptBut e.attrs.mini mva s t ∧ BytesKept s t) s.withCaches := by
  obtain ⟨u, hfill, ⟨slot, hline⟩, hlocks, d, m, rfl⟩ := fillLine_empty h hempty hlock
  refine loadsWord_of_loadBytes h (loadBytes_fill h.writeBuffer h.attrs hf hc hfill hline 4) ?_
  rintro t ⟨regs, pc, rfl⟩ hreg
  exact ⟨⟨hreg.trans (wordOf_read_fresh h.writeBuffer h.word h.offset),
    ⟨slot, _, hline, rfl, rfl, rfl, rfl, fun i hi => busBytes_lineBase s pa hi⟩, hlocks, fun _ => rfl⟩, rfl⟩

/-- The line after a store that brought it in first: the word in it, its half dirty, the other bytes as the bus side
held them. -/
def FilledAndStored (mini : Bool) (mva pa v : Word) (s t : State) : Prop :=
  ∃ slot l, t.findDLine mva = some (mini, slot, l) ∧ l.paLine = pa.extractLsb' 5 27 ∧ l.bad = 0#32 ∧
    l.dirtyLo = decide (offsetOf mva < 16) ∧ l.dirtyHi = decide (16 ≤ offsetOf mva) ∧
    ∀ i, i < 32 → l.data[i]? = some (if offsetOf mva ≤ i ∧ i < offsetOf mva + 4 then byteOf v (i - offsetOf mva)
      else s.dataByte (pa.toNat / 32 * 32 + i))

theorem storesWord_fill (h : HitsTlb s cond rn rd am e mva pa) (hf : s.findDLine mva = none)
    (hc : s.cacheable e.attrs = true) (hempty : s.emptyDCaches)
    (hlock : e.attrs.mini = true → s.cp15.dcacheLock = false) (hwa : s.writeAllocates e.attrs = true) :
    StoresWord s cond rn rd am e mva (fun t => FilledAndStored e.attrs.mini mva pa (s.reg rd) s t ∧
      LocksKeptBut e.attrs.mini mva s t ∧ BytesKept s t) s.withCaches := by
  obtain ⟨u, hfill, ⟨slot, hline⟩, hlocks, d, m, rfl⟩ := fillLine_empty h hempty hlock
  have hlen : (s.busBytes (lineBase pa) 32).length = 32 := by simp [State.busBytes]
  have hstored := rewritten_dirty (off := offsetOf mva) (l := freshLine mva pa (s.busBytes (lineBase pa) 32)) rfl
    (by rw [freshLine, hlen]; exact h.offset_le) (s.reg rd)
  have hstore := (storeBytes_fill h.writeBuffer h.attrs hf (by rw [hc, hwa]; rfl) hfill hline
    (bytesOf (s.reg rd) 4)).trans (storeHit_dirty rfl rfl (writesThrough_of_writeAllocates (a := e.attrs) hwa))
  refine storesWord_of_storeBytes h hstore ?_
  obtain ⟨hdata, hlo, hhi, hbad, htag, hpa⟩ := hstored
  rintro t ⟨regs, pc, rfl⟩
  refine ⟨⟨⟨slot, _, findDLine_setDLine hline htag, hpa, hbad, ?_, ?_, fun i hi => ?_⟩, fun set => ?_,
    fun _ => rfl⟩, rfl⟩
  · exact hlo.trans (by simp [freshLine])
  · exact hhi.trans (by simp [freshLine])
  · rw [hdata]
    split
    · rfl
    · exact busBytes_lineBase s pa hi
  · exact (congrArg (lockedOf · set) (locked_setDLine _ _ _ _)).trans (hlocks set)

/-- A load whose line takes the place of a dirty one. -/
theorem loadsWord_evict (h : HitsTlb s cond rn rd am e mva pa) (hf : s.findDLine mva = none)
    (hc : s.cacheable e.attrs = true) (hmini : e.attrs.mini = false) (hlock : s.cp15.dcacheLock = false)
    (hlo : l.dirtyLo = true)
    (hd : s.dcache = { State.reset.dcache with lines := [(32 * setOf mva + 31, l)] }) :
    LoadsWord s cond rn rd am e mva (fun t => t.reg rd = memWord s.mem pa ∧
      (∀ i, i < 32 → t.dataByte (l.paLine.toNat * 32 + i) =
        if i < 16 ∨ l.dirtyHi = true then l.data.getD i 0#8 else s.dataByte (l.paLine.toNat * 32 + i)) ∧
      (∀ a, a / 32 ≠ l.paLine.toNat → t.dataByte a = s.dataByte a) ∧
      ∃ l', t.dcache.lines = [(32 * setOf mva + 31, l')] ∧ t.findDLine mva = some (false, 32 * setOf mva + 31, l') ∧
        l'.paLine = pa.extractLsb' 5 27 ∧ l'.dirtyLo = false ∧ l'.dirtyHi = false)
      (fun t => s.withCaches (s.withBus t)) := by
  obtain ⟨u, hfill, hlines, hback, notes, wb, d, hu⟩ :=
    fillLine_evict (s := s.noteAccess true) (pa := pa) h.physMap h.writeBuffer hlock hd true
  have hfound := findDLine_of_mainLine hlines (isDLineOf_fresh (by decide) mva pa _)
  refine loadsWord_of_loadBytes h
    (loadBytes_fill h.writeBuffer h.attrs hf hc (by rw [hmini]; exact hfill) hfound 4) ?_
  rintro t ⟨regs, pc, rfl⟩ hreg
  refine ⟨⟨hreg.trans (wordOf_read_fresh h.writeBuffer h.word h.offset), fun i hi => ?_, fun a ha => ?_,
    _, hlines, hfound, rfl, rfl, rfl⟩, by rw [hu]; rfl⟩
  · refine (hback _).trans ?_
    have hdiv : (l.paLine.toNat * 32 + i) / 32 = l.paLine.toNat := by omega
    have hmod : (l.paLine.toNat * 32 + i) % 32 = i := by omega
    rw [hdiv, hmod, hlo]
    by_cases h16 : i < 16
    · simp [h16]
    · simp only [h16, if_false, true_and, false_or]
      rfl
  · exact (hback a).trans (if_neg fun hin => ha hin.1)

end

/-- Settles O21: the access is answered by a line (`loadsWord_hit`, `storesWord_hit_dirty`, `storesWord_hit_through`),
by the bus side (`loadsWord_bus`, `storesWord_bus`), or brings its line in (`loadsWord_fill`, `storesWord_fill`,
`loadsWord_evict`). -/
theorem cachedAccess : Obligations.CachedAccess := by
  intro s cond rn rd am e hp hrd hb hd hr hm hmap hw hwf ad mva low pa off mini v loads stores noCaches noBus hu hl hres
  have h : HitsTlb s cond rn rd am e mva pa :=
    ⟨⟨hp, hrd, hb, hd, hr, hm, hmap, hw, hwf, rfl, hu⟩, hl, hres, physical_eq_masked e mva⟩
  refine ⟨?_, fun hf => ⟨loadsWord_bus h hf, storesWord_bus h hf, fun hc hempty hlock =>
    ⟨loadsWord_fill h hf hc hempty hlock, storesWord_fill h hf hc hempty hlock⟩,
    fun l hc hmini hlock _ _ hlo _ => loadsWord_evict h hf hc hmini hlock hlo⟩⟩
  intro b slot l hf _ hbad hlen through
  refine ⟨loadsWord_hit h hf hbad, ?_⟩
  cases hthrough : s.writesThrough e.attrs with
  | true =>
    intro hg
    refine (storesWord_hit_through h hf hbad hlen hthrough hg).mono ?_
    rintro t ⟨⟨⟨l', hline, hdc, hmc, hfound⟩, hstored⟩, hbase, hpc, hflags, hregs, hrest⟩
    simp only [through, hthrough]
    exact ⟨⟨l', hline, hdc, hmc, hfound, hstored⟩, hbase, hpc, hflags, hregs, hrest⟩
  | false =>
    intro hg
    refine (storesWord_hit_dirty h hf hbad hlen hthrough hg).mono ?_
    rintro t ⟨⟨⟨l', hline, hdc, hmc, hfound⟩, hkept⟩, hbase, hpc, hflags, hregs, hrest⟩
    simp only [through, hthrough]
    exact ⟨⟨l', hline, hdc, hmc, hfound, hkept⟩, hbase, hpc, hflags, hregs, hrest⟩

end Sys2Proof.Machine

/-!
SUPPORT. Decoding what was encoded (30_encoding.md R284 to R303; 46_thumb.md R660, R750). The decoder reads no bit
beyond the 32 of a word or the 16 of a halfword; a word that was put together field by field has those fields again
where the decoder cuts them out, one lemma for each layout of the encoding tables; and the decoder finds the row of
the fields. Settles O59.
-/

namespace Sys2Proof
section

variable (n : Nat) (c : BitVec 4)

/-! ### The decoder reads only the bits of the word -/

theorem bits_mod_two_pow {k lo len : Nat} (h : lo + len ≤ k) : bits (n % 2 ^ k) lo len = bits n lo len := by
  apply BitVec.eq_of_getLsbD_eq
  intro i hi
  simp [bits, BitVec.getLsbD_ofNat, Nat.testBit_shiftRight, Nat.testBit_mod_two_pow, show lo + i < k by omega,
    -BitVec.getLsbD_eq_getElem]

theorem flag_mod_two_pow {k i : Nat} (h : i < k) : flag (n % 2 ^ k) i = flag n i := by
  simp [flag, Nat.testBit_mod_two_pow, h]

theorem decodeDpImm_mod : decodeDpImm c (n % 2 ^ 32) = decodeDpImm c n := by
  simp (disch := decide) only [decodeDpImm, bits_mod_two_pow, flag_mod_two_pow]

theorem decodeDpShift_mod : decodeDpShift c (n % 2 ^ 32) = decodeDpShift c n := by
  simp (disch := decide) only [decodeDpShift, bits_mod_two_pow, flag_mod_two_pow]

theorem decodeDpReg_mod : decodeDpReg c (n % 2 ^ 32) = decodeDpReg c n := by
  simp (disch := decide) only [decodeDpReg, bits_mod_two_pow, flag_mod_two_pow]

theorem decodeMisc_mod : decodeMisc c (n % 2 ^ 32) = decodeMisc c n := by
  simp (disch := decide) only [decodeMisc, bits_mod_two_pow, flag_mod_two_pow]

theorem decodeDsp_mod : decodeDsp c (n % 2 ^ 32) = decodeDsp c n := by
  simp (disch := decide) only [decodeDsp, bits_mod_two_pow, flag_mod_two_pow]

theorem decodeMul_mod : decodeMul c (n % 2 ^ 32) = decodeMul c n := by
  simp (disch := decide) only [decodeMul, bits_mod_two_pow, flag_mod_two_pow]

theorem decodeExtra_mod : decodeExtra c (n % 2 ^ 32) = decodeExtra c n := by
  simp (disch := decide) only [decodeExtra, bits_mod_two_pow, flag_mod_two_pow]

theorem decode000_mod : decode000 c (n % 2 ^ 32) = decode000 c n := by
  simp (disch := decide) only [decode000, flag_mod_two_pow, decodeExtra_mod, decodeMul_mod, decodeDsp_mod,
    decodeMisc_mod, decodeDpReg_mod, decodeDpShift_mod]

theorem decode001_mod : decode001 c (n % 2 ^ 32) = decode001 c n := by
  simp (disch := decide) only [decode001, bits_mod_two_pow, flag_mod_two_pow, decodeDpImm_mod]

theorem decodeLdStImm_mod : decodeLdStImm c (n % 2 ^ 32) = decodeLdStImm c n := by
  simp (disch := decide) only [decodeLdStImm, bits_mod_two_pow, flag_mod_two_pow]

theorem decodeLdStReg_mod : decodeLdStReg c (n % 2 ^ 32) = decodeLdStReg c n := by
  simp (disch := decide) only [decodeLdStReg, bits_mod_two_pow, flag_mod_two_pow]

theorem decodeMultiple_mod : decodeMultiple c (n % 2 ^ 32) = decodeMultiple c n := by
  simp (disch := decide) only [decodeMultiple, bits_mod_two_pow, flag_mod_two_pow]

theorem decode110_mod : decode110 c (n % 2 ^ 32) = decode110 c n := by
  simp (disch := decide) only [decode110, bits_mod_two_pow, flag_mod_two_pow]

theorem decode111_mod : decode111 c (n % 2 ^ 32) = decode111 c n := by
  simp (disch := decide) only [decode111, bits_mod_two_pow, flag_mod_two_pow]

theorem decodeUncond_mod : decodeUncond (n % 2 ^ 32) = decodeUncond n := by
  simp (disch := decide) only [decodeUncond, bits_mod_two_pow, flag_mod_two_pow]

theorem decodeArm_encodeArm (i : Instr) : decodeArm (encodeArm i) = decodeArmNat (encodeNat i) := by
  rw [decodeArm, encodeArm, BitVec.toNat_ofNat]
  simp (disch := decide) only [decodeArmNat, bits_mod_two_pow, flag_mod_two_pow, decodeUncond_mod, decode000_mod,
    decode001_mod, decodeLdStImm_mod, decodeLdStReg_mod, decodeMultiple_mod, decode110_mod, decode111_mod]

theorem decodeThumbDp_mod : decodeThumbDp (n % 2 ^ 16) = decodeThumbDp n := by
  simp (disch := decide) only [decodeThumbDp, bits_mod_two_pow]

theorem decodeThumbHigh_mod : decodeThumbHigh (n % 2 ^ 16) = decodeThumbHigh n := by
  simp (disch := decide) only [decodeThumbHigh, bits_mod_two_pow, flag_mod_two_pow]

theorem decodeThumb10110_mod : decodeThumb10110 (n % 2 ^ 16) = decodeThumb10110 n := by
  simp (disch := decide) only [decodeThumb10110, bits_mod_two_pow, flag_mod_two_pow]

theorem decodeThumb10111_mod : decodeThumb10111 (n % 2 ^ 16) = decodeThumb10111 n := by
  simp (disch := decide) only [decodeThumb10111, bits_mod_two_pow, flag_mod_two_pow]

theorem decodeThumb11011_mod : decodeThumb11011 (n % 2 ^ 16) = decodeThumb11011 n := by
  simp (disch := decide) only [decodeThumb11011, bits_mod_two_pow, flag_mod_two_pow]

theorem decodeThumb_encodeThumb (i : Instr) : decodeThumb (encodeThumb i) = decodeThumbNat (encodeNat i) := by
  rw [decodeThumb, encodeThumb, BitVec.toNat_ofNat]
  simp (disch := decide) only [decodeThumbNat, bits_mod_two_pow, flag_mod_two_pow, decodeThumbDp_mod,
    decodeThumbHigh_mod, decodeThumb10110_mod, decodeThumb10111_mod, decodeThumb11011_mod]

/-! ### Fields of a word -/

/-- The last field put. -/
@[simp] theorem bits_put_self {m : Nat} (x : BitVec m) (h : Nat) : bits (put x h) 0 m = x := by
  rw [bits_put_low x h 0 m (by omega), bits_toNat]

@[simp] theorem bits_putBit_high (b : Bool) (h lo len : Nat) (hl : 1 ≤ lo) :
    bits (putBit b h) lo len = bits h (lo - 1) len := bits_put_high _ _ _ _ hl

@[simp] theorem flag_putBit (b : Bool) (h i : Nat) : flag (putBit b h) i = if i = 0 then b else flag h (i - 1) := by
  rw [putBit, flag_put]
  rcases i with _ | i <;> simp

/-- Two neighbouring fields are one. -/
theorem put_put {m k : Nat} (y : BitVec k) (x : BitVec m) (h : Nat) : put y (put x h) = put (x ++ y) h := by
  rw [put, put, put, BitVec.toNat_append, ← Nat.shiftLeft_add_eq_or_of_lt y.isLt, Nat.shiftLeft_eq]
  ring

/-- The first field, where the tables give it as a number. -/
@[simp] theorem bits_literal (k len : Nat) : bits (no_index (OfNat.ofNat k)) 0 len = BitVec.ofNat len k :=
  rfl

end

/-! ### The classes of the ARM decoder (30_encoding.md R284) -/

section

variable {c : BitVec 4} {w : Nat} (hc : c ≠ 15#4) (h28 : bits w 28 4 = c)
include hc h28

theorem decodeArmNat_000 (h : bits w 25 3 = 0b000#3) : decodeArmNat w = decode000 c w := by
  simp [decodeArmNat, h28, hc, h]

theorem decodeArmNat_001 (h : bits w 25 3 = 0b001#3) : decodeArmNat w = decode001 c w := by
  simp [decodeArmNat, h28, hc, h]

theorem decodeArmNat_010 (h : bits w 25 3 = 0b010#3) : decodeArmNat w = decodeLdStImm c w := by
  simp [decodeArmNat, h28, hc, h]

theorem decodeArmNat_011 (h : bits w 25 3 = 0b011#3) (h4 : flag w 4 = false) : decodeArmNat w = decodeLdStReg c w := by
  simp [decodeArmNat, h28, hc, h, h4]

theorem decodeArmNat_100 (h : bits w 25 3 = 0b100#3) : decodeArmNat w = decodeMultiple c w := by
  simp [decodeArmNat, h28, hc, h]

theorem decodeArmNat_110 (h : bits w 25 3 = 0b110#3) : decodeArmNat w = decode110 c w := by
  simp [decodeArmNat, h28, hc, h]

theorem decodeArmNat_111 (h : bits w 25 3 = 0b111#3) : decodeArmNat w = decode111 c w := by
  simp [decodeArmNat, h28, hc, h]

end

section

variable {c : BitVec 4} {w : Nat}

theorem decode000_extra (h74 : (flag w 7 && flag w 4) = true) (h65 : (flag w 6 || flag w 5) = true) :
    decode000 c w = decodeExtra c w := by
  rw [decode000, if_pos h74, if_pos h65]

theorem decode000_mul (h74 : (flag w 7 && flag w 4) = true) (h65 : (flag w 6 || flag w 5) = false) :
    decode000 c w = decodeMul c w := by
  rw [decode000, if_pos h74, h65]; rfl

theorem decode000_dsp (h7 : flag w 7 = true) (h4 : flag w 4 = false)
    (hop : (flag w 24 && !flag w 23 && !flag w 20) = true) : decode000 c w = decodeDsp c w := by
  rw [decode000, h7, h4, if_pos hop]; rfl

theorem decode000_misc (h7 : flag w 7 = false) (hop : (flag w 24 && !flag w 23 && !flag w 20) = true) :
    decode000 c w = decodeMisc c w := by
  rw [decode000, h7, if_pos hop]; rfl

theorem decode000_dpReg (h7 : flag w 7 = false) (h4 : flag w 4 = true)
    (hop : (flag w 24 && !flag w 23 && !flag w 20) = false) : decode000 c w = decodeDpReg c w := by
  rw [decode000, h7, h4, hop]; rfl

theorem decode000_dpShift (h4 : flag w 4 = false) (hop : (flag w 24 && !flag w 23 && !flag w 20) = false) :
    decode000 c w = decodeDpShift c w := by
  rw [decode000, h4, hop, Bool.and_false]; rfl

theorem decode001_dpImm (hop : (flag w 24 && !flag w 23 && !flag w 20) = false) :
    decode001 c w = decodeDpImm c w := by
  rw [decode001, hop]; rfl

end

/-! ### The layouts of the ARM tables

A word put together along a layout decodes to `r` where the decoder of its class reads `r` from every word with these
fields. A field of one bit is a `BitVec 1`, so that the layout meets a row's constant and a row's argument alike. -/

section

variable {c : BitVec 4} {r : Decoded} (hc : c ≠ 15#4)
include hc

/-- Data processing, rotated immediate (R285). -/
theorem decode_dpImm {opc rn rd rot : BitVec 4} {s : BitVec 1} {imm8 : BitVec 8}
    (hop : (opc.getLsbD 3 && !opc.getLsbD 2 && !s.getLsbD 0) = false)
    (h : ∀ w, bits w 21 4 = opc → flag w 20 = s.getLsbD 0 → bits w 16 4 = rn → bits w 12 4 = rd → bits w 8 4 = rot →
      bits w 0 8 = imm8 → decodeDpImm c w = r) :
    decodeArmNat (c.toNat |> put 0b001#3 |> put opc |> put s |> put rn |> put rd |> put rot |> put imm8) = r := by
  refine (decodeArmNat_001 hc ?_ ?_).trans ((decode001_dpImm (.trans ?_ hop)).trans (h _ ?_ ?_ ?_ ?_ ?_ ?_)) <;>
    simp [bits_put_high, bits_toNat, flag_put]

/-- Data processing, register shifted by immediate (R285). -/
theorem decode_dpShift {opc rn rd rm : BitVec 4} {s : BitVec 1} {amt : BitVec 5} {sh : BitVec 2}
    (hop : (opc.getLsbD 3 && !opc.getLsbD 2 && !s.getLsbD 0) = false)
    (h : ∀ w, bits w 21 4 = opc → flag w 20 = s.getLsbD 0 → bits w 16 4 = rn → bits w 12 4 = rd → bits w 7 5 = amt →
      bits w 5 2 = sh → bits w 0 4 = rm → decodeDpShift c w = r) :
    decodeArmNat (c.toNat |> put 0b000#3 |> put opc |> put s |> put rn |> put rd |> put amt |> put sh |> put 0b0#1 |>
      put rm) = r := by
  refine (decodeArmNat_000 hc ?_ ?_).trans ((decode000_dpShift ?_ (.trans ?_ hop)).trans (h _ ?_ ?_ ?_ ?_ ?_ ?_ ?_)) <;>
    simp [bits_put_high, bits_toNat, flag_put]

/-- Data processing, register shifted by register (R285). -/
theorem decode_dpReg {opc rn rd rs rm : BitVec 4} {s : BitVec 1} {sh : BitVec 2}
    (hop : (opc.getLsbD 3 && !opc.getLsbD 2 && !s.getLsbD 0) = false)
    (h : ∀ w, bits w 21 4 = opc → flag w 20 = s.getLsbD 0 → bits w 16 4 = rn → bits w 12 4 = rd → bits w 8 4 = rs →
      bits w 5 2 = sh → bits w 0 4 = rm → decodeDpReg c w = r) :
    decodeArmNat (c.toNat |> put 0b000#3 |> put opc |> put s |> put rn |> put rd |> put rs |> put 0b0#1 |> put sh |>
      put 0b1#1 |> put rm) = r := by
  refine (decodeArmNat_000 hc ?_ ?_).trans
    ((decode000_dpReg ?_ ?_ (.trans ?_ hop)).trans (h _ ?_ ?_ ?_ ?_ ?_ ?_ ?_)) <;>
    simp [bits_put_high, bits_toNat, flag_put]

/-- The miscellaneous space (R292). -/
theorem decode_misc {opc rn rd rs k rm : BitVec 4} (hop : opc.extractLsb' 2 2 = 0b10#2) (hk : k.getLsbD 3 = false)
    (h : ∀ w, bits w 4 4 = k → flag w 22 = opc.getLsbD 1 → flag w 21 = opc.getLsbD 0 → bits w 16 4 = rn →
      bits w 12 4 = rd → bits w 8 4 = rs → bits w 0 4 = rm → decodeMisc c w = r) :
    decodeArmNat (c.toNat |> put 0b000#3 |> put opc |> put 0b0#1 |> put rn |> put rd |> put rs |> put k |> put rm) =
      r := by
  have h3 : opc[3] = true := by simpa using congrArg (·.getLsbD 1) hop
  have h2 : opc[2] = false := by simpa using congrArg (·.getLsbD 0) hop
  refine (decodeArmNat_000 hc ?_ ?_).trans ((decode000_misc (.trans ?_ hk) ?_).trans (h _ ?_ ?_ ?_ ?_ ?_ ?_ ?_)) <;>
    simp [bits_put_high, bits_toNat, flag_put, h3, h2]

/-- The DSP multiplies (R292). -/
theorem decode_dsp {opc hi lo rs rm : BitVec 4} {y x : BitVec 1} (hop : opc.extractLsb' 2 2 = 0b10#2)
    (h : ∀ w, flag w 22 = opc.getLsbD 1 → flag w 21 = opc.getLsbD 0 → bits w 16 4 = hi → bits w 12 4 = lo →
      bits w 8 4 = rs → flag w 6 = y.getLsbD 0 → flag w 5 = x.getLsbD 0 → bits w 0 4 = rm → decodeDsp c w = r) :
    decodeArmNat (c.toNat |> put 0b000#3 |> put opc |> put 0b0#1 |> put hi |> put lo |> put rs |> put 0b1#1 |> put y |>
      put x |> put 0b0#1 |> put rm) = r := by
  have h3 : opc[3] = true := by simpa using congrArg (·.getLsbD 1) hop
  have h2 : opc[2] = false := by simpa using congrArg (·.getLsbD 0) hop
  refine (decodeArmNat_000 hc ?_ ?_).trans ((decode000_dsp ?_ ?_ ?_).trans (h _ ?_ ?_ ?_ ?_ ?_ ?_ ?_ ?_)) <;>
    simp [bits_put_high, bits_toNat, flag_put, h3, h2]

/-- Multiplies and swaps (R293). -/
theorem decode_mul {opc hi lo rs rm : BitVec 4} {s : BitVec 1}
    (h : ∀ w, bits w 21 4 = opc → flag w 20 = s.getLsbD 0 → bits w 16 4 = hi → bits w 12 4 = lo → bits w 8 4 = rs →
      bits w 0 4 = rm → decodeMul c w = r) :
    decodeArmNat (c.toNat |> put 0b000#3 |> put opc |> put s |> put hi |> put lo |> put rs |> put 0b1#1 |> put 0b0#1 |>
      put 0b0#1 |> put 0b1#1 |> put rm) = r := by
  refine (decodeArmNat_000 hc ?_ ?_).trans ((decode000_mul ?_ ?_).trans (h _ ?_ ?_ ?_ ?_ ?_ ?_)) <;>
    simp [bits_put_high, bits_toNat, flag_put]

/-- Halfword, signed byte and doubleword transfers (R297). -/
theorem decode_extra {rn rd hi lo : BitVec 4} {p u i wb l sg hw : BitVec 1}
    (hsh : (sg.getLsbD 0 || hw.getLsbD 0) = true)
    (h : ∀ w, flag w 24 = p.getLsbD 0 → flag w 23 = u.getLsbD 0 → flag w 22 = i.getLsbD 0 → flag w 21 = wb.getLsbD 0 →
      flag w 20 = l.getLsbD 0 → bits w 16 4 = rn → bits w 12 4 = rd → bits w 8 4 = hi → flag w 6 = sg.getLsbD 0 →
      flag w 5 = hw.getLsbD 0 → bits w 0 4 = lo → decodeExtra c w = r) :
    decodeArmNat (c.toNat |> put 0b000#3 |> put p |> put u |> put i |> put wb |> put l |> put rn |> put rd |> put hi |>
      put 0b1#1 |> put sg |> put hw |> put 0b1#1 |> put lo) = r := by
  refine (decodeArmNat_000 hc ?_ ?_).trans ((decode000_extra ?_ (.trans ?_ hsh)).trans
    (h _ ?_ ?_ ?_ ?_ ?_ ?_ ?_ ?_ ?_ ?_ ?_)) <;> simp [bits_put_high, bits_toNat, flag_put]

/-- Load/store word or byte, immediate offset (R295). -/
theorem decode_ldStImm {rn rd : BitVec 4} {p u b wb l : BitVec 1} {off12 : BitVec 12}
    (h : ∀ w, flag w 24 = p.getLsbD 0 → flag w 23 = u.getLsbD 0 → flag w 22 = b.getLsbD 0 → flag w 21 = wb.getLsbD 0 →
      flag w 20 = l.getLsbD 0 → bits w 16 4 = rn → bits w 12 4 = rd → bits w 0 12 = off12 → decodeLdStImm c w = r) :
    decodeArmNat (c.toNat |> put 0b010#3 |> put p |> put u |> put b |> put wb |> put l |> put rn |> put rd |>
      put off12) = r := by
  refine (decodeArmNat_010 hc ?_ ?_).trans (h _ ?_ ?_ ?_ ?_ ?_ ?_ ?_ ?_) <;> simp [bits_put_high, bits_toNat, flag_put]

/-- Load/store word or byte, scaled register offset (R295). -/
theorem decode_ldStReg {rn rd rm : BitVec 4} {p u b wb l : BitVec 1} {amt : BitVec 5} {sh : BitVec 2}
    (h : ∀ w, flag w 24 = p.getLsbD 0 → flag w 23 = u.getLsbD 0 → flag w 22 = b.getLsbD 0 → flag w 21 = wb.getLsbD 0 →
      flag w 20 = l.getLsbD 0 → bits w 16 4 = rn → bits w 12 4 = rd → bits w 7 5 = amt → bits w 5 2 = sh →
      bits w 0 4 = rm → decodeLdStReg c w = r) :
    decodeArmNat (c.toNat |> put 0b011#3 |> put p |> put u |> put b |> put wb |> put l |> put rn |> put rd |> put amt |>
      put sh |> put 0b0#1 |> put rm) = r := by
  refine (decodeArmNat_011 hc ?_ ?_ ?_).trans (h _ ?_ ?_ ?_ ?_ ?_ ?_ ?_ ?_ ?_ ?_) <;>
    simp [bits_put_high, bits_toNat, flag_put]

/-- Coprocessor loads and stores (R301). -/
theorem decode_ldc {rn crd cp : BitVec 4} {p u n wb l : BitVec 1} {x : BitVec 8}
    (h : ∀ w, flag w 24 = p.getLsbD 0 → flag w 23 = u.getLsbD 0 → flag w 22 = n.getLsbD 0 → flag w 21 = wb.getLsbD 0 →
      flag w 20 = l.getLsbD 0 → bits w 16 4 = rn → bits w 12 4 = crd → bits w 8 4 = cp → bits w 0 8 = x →
      decode110 c w = r) :
    decodeArmNat (c.toNat |> put 0b110#3 |> put p |> put u |> put n |> put wb |> put l |> put rn |> put crd |> put cp |>
      put x) = r := by
  refine (decodeArmNat_110 hc ?_ ?_).trans (h _ ?_ ?_ ?_ ?_ ?_ ?_ ?_ ?_ ?_) <;>
    simp [bits_put_high, bits_toNat, flag_put]

/-- MCRR and MRRC (R301). -/
theorem decode_pair {rn rd cp opc crm : BitVec 4} {l : BitVec 1} (ha : isAccumulatorTransfer cp opc crm = false) :
    decodeArmNat (c.toNat |> put 0b110#3 |> put 0b0#1 |> put 0b0#1 |> put 0b1#1 |> put 0b0#1 |> put l |> put rn |>
      put rd |> put cp |> put opc |> put crm) =
    .instr (if l.getLsbD 0 then .mrrc c rn rd cp opc crm else .mcrr c rn rd cp opc crm) := by
  have ha : ¬ ((cp = 0#4 ∧ opc = 0#4) ∧ crm[3] = false) := by simpa [isAccumulatorTransfer] using ha
  refine (decodeArmNat_110 hc ?_ ?_).trans ?_ <;> simp [decode110, bits_put_high, bits_toNat, flag_put]
  rw [if_neg ha]
  split <;> rfl

/-- Moves between a register and a coprocessor (R301) that have a row of their own. -/
theorem decode_special {op1 op2 : BitVec 3} {crn rd cp crm : BitVec 4} {l : BitVec 1} {i : Instr}
    (h : specialTransfer (l.getLsbD 0) c op1 crn rd cp op2 crm = some i) :
    decodeArmNat (c.toNat |> put 0b111#3 |> put 0b0#1 |> put op1 |> put l |> put crn |> put rd |> put cp |> put op2 |>
      put 0b1#1 |> put crm) = .instr i := by
  rw [BitVec.getLsbD_eq_getElem (by decide)] at h
  refine (decodeArmNat_111 hc ?_ ?_).trans ?_ <;> simp [decode111, bits_put_high, bits_toNat, flag_put, h]

/-- MCR and MRC (R301). -/
theorem decode_generic {op1 op2 : BitVec 3} {crn rd cp crm : BitVec 4} {l : BitVec 1}
    (h : specialTransfer (l.getLsbD 0) c op1 crn rd cp op2 crm = none) :
    decodeArmNat (c.toNat |> put 0b111#3 |> put 0b0#1 |> put op1 |> put l |> put crn |> put rd |> put cp |> put op2 |>
      put 0b1#1 |> put crm) =
    .instr (if l.getLsbD 0 then .mrc c op1 crn rd cp op2 crm else .mcr c op1 crn rd cp op2 crm) := by
  rw [BitVec.getLsbD_eq_getElem (by decide)] at h
  refine (decodeArmNat_111 hc ?_ ?_).trans ?_ <;> simp [decode111, bits_put_high, bits_toNat, flag_put, h]
  split <;> rfl

end

/-! ### Register transfers without a row of their own -/

section

variable {c rd crn crm : BitVec 4} {op2 : BitVec 3}

theorem decodeMrcCp15_eq_none (h : listedMrcCp15.contains (crn.toNat, crm.toNat, op2.toNat) = false) :
    decodeMrcCp15 c rd crn crm op2 = none := by
  unfold decodeMrcCp15
  split
  case h_17 => rfl
  all_goals exact absurd h (by decide)

theorem decodeMcrCp15_eq_none (h : listedMcrCp15.contains (crn.toNat, crm.toNat, op2.toNat) = false) :
    decodeMcrCp15 c rd crn crm op2 = none := by
  unfold decodeMcrCp15
  split
  case h_38 => rfl
  all_goals exact absurd h (by decide)

theorem decodeMrcCp14_eq_none (h : (crm == 0#4 && op2 == 0#3 && listedCp14.contains crn.toNat) = false) :
    decodeMrcCp14 c rd crn crm op2 = none := by
  unfold decodeMrcCp14
  split
  case h_14 => rfl
  all_goals exact absurd h (by decide)

theorem decodeMcrCp14_eq_none (h : (crm == 0#4 && op2 == 0#3 && listedCp14.contains crn.toNat) = false) :
    decodeMcrCp14 c rd crn crm op2 = none := by
  unfold decodeMcrCp14
  split
  case h_14 => rfl
  all_goals exact absurd h (by decide)

theorem decodeMia_eq_none {op3 rs rm : BitVec 4} {acc : BitVec 3} (h : miaOpcodes.contains op3.toNat = false) :
    decodeMia c op3 rs acc rm = none := by
  unfold decodeMia
  split
  case h_7 => rfl
  all_goals exact absurd h (by decide)

theorem specialTransfer_eq_none {load : Bool} {op1 : BitVec 3} {cp : BitVec 4}
    (h : isSpecialTransfer load op1 crn cp op2 crm = false) : specialTransfer load c op1 crn rd cp op2 crm = none := by
  unfold specialTransfer
  split
  case h_1 =>
    by_cases h1 : op1 = 0#3
    · cases load
      · simpa [h1] using decodeMcrCp15_eq_none (by simpa [isSpecialTransfer, h1] using h)
      · simpa [h1] using decodeMrcCp15_eq_none (by simpa [isSpecialTransfer, h1] using h)
    · simp [h1]
  case h_2 =>
    by_cases h1 : op1 = 0#3
    · cases load
      · simpa [h1] using decodeMcrCp14_eq_none (by simpa [isSpecialTransfer, h1] using h)
      · simpa [h1] using decodeMrcCp14_eq_none (by simpa [isSpecialTransfer, h1] using h)
    · simp [h1]
  case h_3 =>
    by_cases h1 : (op1 == 1#3 && !load) = true
    · rw [if_pos h1]
      simp only [Bool.and_eq_true, beq_iff_eq, Bool.not_eq_true'] at h1
      exact decodeMia_eq_none (by simpa [isSpecialTransfer, h1] using h)
    · rw [if_neg h1]
  case h_4 => rfl

end

/-! ### The layouts of the Thumb tables (46_thumb.md R660)

The five bits that select the format are a number in the tables' rows. -/

section

variable {k w : Nat} {r : Decoded}

theorem decodeThumbNat_dp (h : bits w 11 5 = 0b01000#5) (h10 : flag w 10 = false) :
    decodeThumbNat w = decodeThumbDp w := by
  simp [decodeThumbNat, h, h10]

theorem decodeThumbNat_high (h : bits w 11 5 = 0b01000#5) (h10 : flag w 10 = true) :
    decodeThumbNat w = decodeThumbHigh w := by
  simp [decodeThumbNat, h, h10]

/-- A shift by an immediate, or a load or store with an offset of five bits. -/
theorem decode_thumbImm5 {a : BitVec 5} {m d : BitVec 3}
    (h : ∀ w, bits w 11 5 = bits k 0 5 → bits w 6 5 = a → bits w 3 3 = m → bits w 0 3 = d → decodeThumbNat w = r) :
    decodeThumbNat (k |> put a |> put m |> put d) = r := by
  apply h <;> simp [bits_put_high]

/-- Three registers, or two and an immediate of three bits. -/
theorem decode_thumbReg3 {b10 b9 : BitVec 1} {x m d : BitVec 3}
    (h : ∀ w, bits w 11 5 = bits k 0 5 → flag w 10 = b10.getLsbD 0 → flag w 9 = b9.getLsbD 0 → bits w 6 3 = x →
      bits w 3 3 = m → bits w 0 3 = d → decodeThumbNat w = r) :
    decodeThumbNat (k |> put b10 |> put b9 |> put x |> put m |> put d) = r := by
  apply h <;> simp [bits_put_high, flag_put]

/-- A register, or a condition, and eight bits. -/
theorem decode_thumbImm8 {d : BitVec 3} {x : BitVec 8}
    (h : ∀ w, bits w 11 5 = bits k 0 5 → bits w 8 3 = d → bits w 0 8 = x → decodeThumbNat w = r) :
    decodeThumbNat (k |> put d |> put x) = r := by
  apply h <;> simp [bits_put_high]

/-- Three bits that select the row, and eight bits. -/
theorem decode_thumbByte {b10 b9 b8 : BitVec 1} {x : BitVec 8}
    (h : ∀ w, bits w 11 5 = bits k 0 5 → flag w 10 = b10.getLsbD 0 → flag w 9 = b9.getLsbD 0 →
      flag w 8 = b8.getLsbD 0 → bits w 0 8 = x → decodeThumbNat w = r) :
    decodeThumbNat (k |> put b10 |> put b9 |> put b8 |> put x) = r := by
  apply h <;> simp [bits_put_high, flag_put]

/-- Data processing between two low registers (R681 to R696). -/
theorem decode_thumbDp {op : BitVec 4} {m d : BitVec 3}
    (h : ∀ w, bits w 6 4 = op → bits w 3 3 = m → bits w 0 3 = d → decodeThumbDp w = r) :
    decodeThumbNat (8 |> put 0b0#1 |> put op |> put m |> put d) = r := by
  refine (decodeThumbNat_dp ?_ ?_).trans (h _ ?_ ?_ ?_) <;> simp [bits_put_high, flag_put]

/-- High registers (R700 to R702). -/
theorem decode_thumbHigh {b9 b8 h1 h2 : BitVec 1} {m d : BitVec 3}
    (h : ∀ w, flag w 9 = b9.getLsbD 0 → flag w 8 = b8.getLsbD 0 → flag w 7 = h1.getLsbD 0 → flag w 6 = h2.getLsbD 0 →
      bits w 3 3 = m → bits w 0 3 = d → decodeThumbHigh w = r) :
    decodeThumbNat (8 |> put 0b1#1 |> put b9 |> put b8 |> put h1 |> put h2 |> put m |> put d) = r := by
  refine (decodeThumbNat_high ?_ ?_).trans (h _ ?_ ?_ ?_ ?_ ?_ ?_) <;> simp [bits_put_high, flag_put]

/-- BX and BLX (2) (R703, R704), whose three low bits are written as two fields. -/
theorem decode_thumbBx {h1 h2 : BitVec 1} {m : BitVec 3}
    (h : ∀ w, flag w 9 = true → flag w 8 = true → flag w 7 = h1.getLsbD 0 → flag w 6 = h2.getLsbD 0 →
      bits w 3 3 = m → bits w 0 3 = 0b000#3 → decodeThumbHigh w = r) :
    decodeThumbNat (8 |> put 0b1#1 |> put 0b1#1 |> put 0b1#1 |> put h1 |> put h2 |> put m |> put 0b00#2 |> put 0b0#1) =
      r := by
  rw [put_put]
  exact decode_thumbHigh h

/-- Eleven bits (R740 to R742). -/
theorem decode_thumbLong {x : BitVec 11}
    (h : ∀ w, bits w 11 5 = bits k 0 5 → bits w 0 11 = x → decodeThumbNat w = r) :
    decodeThumbNat (k |> put x) = r := by
  apply h <;> simp [bits_put_high]

end

/-! ### Every instruction -/

section

theorem cond_ne_of_wf {i : Instr} {c : BitVec 4} (hi : i.cond? = some c) (h : i.wf = true) : c ≠ 15#4 := by
  simp only [Instr.wf, hi, Bool.and_eq_true, bne_iff_ne] at h
  exact h.1

theorem decodeArmNat_encodeNat (i : Instr) (h : i.isa = .arm) (hw : i.wf = true) :
    decodeArmNat (encodeNat i) = .instr i := by
  cases i
  case and op2 | eor op2 | sub op2 | rsb op2 | add op2 | adc op2 | sbc op2 | rsc op2 | tst op2 | teq op2 | cmp op2 |
      cmn op2 | orr op2 | mov op2 | bic op2 | mvn op2 =>
    have hc := cond_ne_of_wf rfl hw
    cases op2 with
    | imm => exact decode_dpImm hc rfl (by intros; simp [decodeDpImm, shouldBe, *])
    | shift => exact decode_dpShift hc rfl (by intros; simp [decodeDpShift, shouldBe, *])
    | reg => exact decode_dpReg hc rfl (by intros; simp [decodeDpReg, shouldBe, *])
  case clz | blx2 | bx | qadd | qsub | qdadd | qdsub =>
    exact decode_misc (cond_ne_of_wf rfl hw) rfl rfl (by intros; simp [decodeMisc, shouldBe, *])
  case mul | mla | umull | umlal | smull | smlal | swp | swpb =>
    exact decode_mul (cond_ne_of_wf rfl hw) (by intros; simp [decodeMul, shouldBe, *])
  case smulXY | smulWY | smlaXY | smlaWY | smlalXY =>
    exact decode_dsp (cond_ne_of_wf rfl hw) rfl (by intros; simp [decodeDsp, shouldBe, *])
  case ldr am | str am | ldrb am | strb am =>
    have hc := cond_ne_of_wf rfl hw
    cases am with
    | imm | immPost => exact decode_ldStImm hc (by intros; simp [decodeLdStImm, *])
    | reg | regPost => exact decode_ldStReg hc (by intros; simp [decodeLdStReg, *])
  case ldrt off | ldrbt off | strt off | strbt off =>
    have hc := cond_ne_of_wf rfl hw
    cases off with
    | imm => exact decode_ldStImm hc (by intros; simp [decodeLdStImm, *])
    | reg => exact decode_ldStReg hc (by intros; simp [decodeLdStReg, *])
  case strh off | ldrh off | ldrsb off | ldrsh off | ldrd off | strd off =>
    have hc := cond_ne_of_wf rfl hw
    cases off with
    | imm | reg => exact decode_extra hc rfl (by intros; simp [decodeExtra, shouldBe, *])
  case ldcOffset | ldcPost | ldcUnindexed | stcOffset | stcPost | stcUnindexed =>
    exact decode_ldc (cond_ne_of_wf rfl hw) (by intros; simp [decode110, *])
  case mia | miaph | miabb | miabt | miatb | miatt | mrcId | mcrId | mrcCacheType | mcrCacheType | mrcControl |
      mcrControl | mrcAuxControl | mcrAuxControl | mrcTtb | mcrTtb | mrcDacr | mcrDacr | mrcFsr | mcrFsr | mrcFar |
      mcrFar | mcrInvIDCacheBtb | mcrInvICacheBtb | mcrInvICacheLine | mcrInvDCache | mcrInvDCacheLine |
      mcrCleanDCacheLine | mcrDrainWriteBuffer | mcrInvBtb | mcrAllocateDLine | mcrInvIDTlb | mcrInvITlb |
      mcrInvITlbEntry | mcrInvDTlb | mcrInvDTlbEntry | mcrLockILine | mcrUnlockICache | mrcDCacheLock |
      mcrDCacheLock | mcrUnlockDCache | mcrLockITlbEntry | mcrLockDTlbEntry | mcrUnlockITlb | mcrUnlockDTlb |
      mrcPid | mcrPid | mrcIbcr0 | mcrIbcr0 | mrcIbcr1 | mcrIbcr1 | mrcDbr0 | mcrDbr0 | mrcDbr1 | mcrDbr1 |
      mrcDbcon | mcrDbcon | mrcCpar | mcrCpar | mrcPmnc | mcrPmnc | mrcCcnt | mcrCcnt | mrcPmn0 | mcrPmn0 | mrcPmn1 |
      mcrPmn1 | mrcCclkcfg | mcrCclkcfg | mrcPwrmode | mcrPwrmode | mrcTx | mcrTx | mrcRx | mcrRx | mrcDcsr |
      mcrDcsr | mrcTbreg | mcrTbreg | mrcChkpt0 | mcrChkpt0 | mrcChkpt1 | mcrChkpt1 | mrcTxrxctrl | mcrTxrxctrl =>
    exact decode_special (cond_ne_of_wf rfl hw) rfl
  case mcr | mrc =>
    obtain ⟨hc, hs⟩ := Bool.and_eq_true_iff.1 hw
    exact decode_generic (bne_iff_ne.1 hc) (specialTransfer_eq_none (Bool.eq_false_of_not_eq_true' hs))
  case cdp | swi =>
    have hc := cond_ne_of_wf rfl hw
    unfold encodeNat
    simp [decodeArmNat, decode111, bits_put_high, bits_toNat, flag_put, hc]
  case b | bl | undefMedia =>
    have hc := cond_ne_of_wf rfl hw
    unfold encodeNat
    simp [decodeArmNat, bits_put_high, bits_toNat, flag_put, hc]
  case mrs | msrReg =>
    have hc := cond_ne_of_wf rfl hw
    unfold encodeNat
    simp [decodeArmNat, decode000, decodeMisc, shouldBe, bits_put_high, bits_toNat, flag_put, hc]
  case bkpt =>
    unfold encodeNat
    simp [decodeArmNat, decode000, decodeMisc, bits_put_high, flag_put]
  case msrImm | undefMsrImm =>
    have hc := cond_ne_of_wf rfl hw
    unfold encodeNat
    simp [decodeArmNat, decode001, shouldBe, bits_put_high, bits_toNat, flag_put, hc]
  case ldm1 | ldm2 | ldm3 | stm1 | stm2 =>
    have hc := cond_ne_of_wf rfl hw
    unfold encodeNat
    simp [decodeArmNat, decodeMultiple, bits_put_high, bits_toNat, flag_put, hc]
  case mar | mra =>
    have hc := cond_ne_of_wf rfl hw
    unfold encodeNat
    simp [decodeArmNat, decode110, bits_put_high, bits_toNat, flag_put, hc]
  case mcrr | mrrc =>
    obtain ⟨hc, hs⟩ := Bool.and_eq_true_iff.1 hw
    exact decode_pair (bne_iff_ne.1 hc) (Bool.eq_false_of_not_eq_true' hs)
  case pldImm | pldReg | blx1 =>
    unfold encodeNat
    simp [decodeArmNat, decodeUncond, bits_put_high, flag_put]
  all_goals cases h

theorem decodeThumbNat_encodeNat (i : Instr) (h : i.isa = .thumb) : decodeThumbNat (encodeNat i) = .instr i := by
  cases i
  case tLsl1 | tLsr1 | tAsr1 | tStr1 | tLdr1 | tStrb1 | tLdrb1 | tStrh1 | tLdrh1 =>
    exact decode_thumbImm5 (by intros; simp [decodeThumbNat, *])
  case tAdd3 | tSub3 | tAdd1 | tSub1 | tStr2 | tStrh2 | tStrb2 | tLdrsb | tLdr2 | tLdrh2 | tLdrb2 | tLdrsh =>
    exact decode_thumbReg3 (by intros; simp [decodeThumbNat, *])
  case tMov1 | tCmp1 | tAdd2 | tSub2 | tLdr3 | tStr3 | tLdr4 | tAdd5 | tAdd6 | tStmia | tLdmia | tB1Low =>
    exact decode_thumbImm8 (by intros; simp [decodeThumbNat, *])
  case tAnd | tEor | tLsl2 | tLsr2 | tAsr2 | tAdc | tSbc | tRor | tTst | tNeg | tCmp2 | tCmn | tOrr | tMul | tBic |
      tMvn =>
    exact decode_thumbDp (by intros; simp [decodeThumbDp, *])
  case tAdd4 | tCmp3 | tMov3 => exact decode_thumbHigh (by intros; simp [decodeThumbHigh, *])
  case tPush | tUndefB1 | tUndefB2 | tUndefB3 | tUndefB6 | tUndefB7 =>
    exact decode_thumbByte (by intros; simp [decodeThumbNat, decodeThumb10110, *])
  case tPop | tBkpt | tUndefBF => exact decode_thumbByte (by intros; simp [decodeThumbNat, decodeThumb10111, *])
  case tB1High | tUndefDE | tSwi => exact decode_thumbByte (by intros; simp [decodeThumbNat, decodeThumb11011, *])
  case tB2 | tBlPrefix | tBlSuffix => exact decode_thumbLong (by intros; simp [decodeThumbNat, *])
  case tBx | tBlx2 => exact decode_thumbBx (by intros; simp [decodeThumbHigh, shouldBe, *])
  case tAdd7 | tSub4 =>
    unfold encodeNat
    simp [decodeThumbNat, decodeThumb10110, bits_put_high, flag_put]
  case tUndefB8 =>
    unfold encodeNat
    simp [decodeThumbNat, decodeThumb10111, bits_put_high, flag_put]
  case tB1Mid =>
    unfold encodeNat
    simp [decodeThumbNat, decodeThumb11011, bits_put_high, flag_put]
  case tBlxSuffix | tUndefE801 =>
    unfold encodeNat
    simp [decodeThumbNat, bits_put_high, flag_put]
  all_goals cases h

/-- A word is the instruction whose row of the tables gives it. -/
theorem decodeArm_eq_instr {i : Instr} {w : Word} (h : i.isa = .arm) (hw : i.wf = true) (he : encodeArm i = w) :
    decodeArm w = .instr i := by
  rw [← he, decodeArm_encodeArm, decodeArmNat_encodeNat i h hw]

/-- A halfword is the instruction whose row of the tables gives it. -/
theorem decodeThumb_eq_instr {i : Instr} {v : Half} (h : i.isa = .thumb) (he : encodeThumb i = v) :
    decodeThumb v = .instr i := by
  rw [← he, decodeThumb_encodeThumb, decodeThumbNat_encodeNat i h]

end

/-- Settles O59, layout by layout of the encoding tables (`decodeArmNat_encodeNat`, `decodeThumbNat_encodeNat`). -/
theorem decodeEncode : Obligations.DecodeEncode := by
  intro i hw
  cases h : i.isa with
  | arm => exact decodeArm_eq_instr h hw rfl
  | thumb => exact decodeThumb_eq_instr h rfl

/-- Settles O60: each word is what the encoding of its instruction gives. -/
theorem decodedWords : Obligations.DecodedWords := by
  refine ⟨?_, ?_, ?_, ?_, ?_, ?_, ?_, ?_, ?_, ?_, ?_, ?_, ?_⟩
  case refine_11 | refine_12 | refine_13 => exact decodeThumb_eq_instr rfl rfl
  all_goals exact decodeArm_eq_instr rfl rfl rfl

end Sys2Proof

/-!
SUPPORT. The shifter operand (30_encoding.md R287 to R291): each shift function bit by bit, then each operand form as
the shift that it is, with its carry. Settles O4.
-/

namespace Sys2Proof.Machine
section

variable (x : Word) (c : Bool) (n : Nat)

/-! ### The shift functions, bit by bit (30_encoding.md R291) -/

section

variable {i : Nat} (hi : i < 32)
include hi

theorem getLsbD_lsl : (lsl x n).getLsbD i = (decide (n ≤ i) && x.getLsbD (i - n)) := by
  rw [lsl, BitVec.getLsbD_shiftLeft, decide_eq_true hi, Bool.true_and, ← decide_not, decide_eq_decide.2 Nat.not_lt]

omit hi in
theorem getLsbD_lsr : (lsr x n).getLsbD i = x.getLsbD (i + n) := by
  rw [lsr, BitVec.getLsbD_ushiftRight, Nat.add_comm]

theorem getLsbD_asr : (asr x n).getLsbD i = x.getLsbD (min (i + n) 31) := by
  rw [asr, BitVec.getLsbD_sshiftRight, decide_eq_false (by omega), Nat.add_comm n i]
  split
  · rw [Nat.min_eq_left (by omega)]; rfl
  · rw [Nat.min_eq_right (by omega), BitVec.msb_eq_getLsbD_last]; rfl

theorem getLsbD_ror : (ror x n).getLsbD i = x.getLsbD ((i + n) % 32) := by
  rw [ror, BitVec.getLsbD_rotateRight, Nat.mod_mod, decide_eq_true hi, Bool.true_and]
  by_cases h : i < 32 - n % 32
  · rw [decide_eq_true h, show (i + n) % 32 = n % 32 + i by omega]; rfl
  · rw [decide_eq_false h, show (i + n) % 32 = i - (32 - n % 32) by omega]; rfl

theorem getLsbD_rrx : (rrx x c).getLsbD i = if i = 31 then c else x.getLsbD (i + 1) := by
  rw [rrx, BitVec.getLsbD_append, BitVec.getLsbD_extractLsb', Nat.add_comm 1 i]
  by_cases h : i = 31
  · subst h; simp
  · simp [h, show i < 31 by omega]

end

variable {x n} in
theorem ror_of_mod (h : n % 32 = 0) : ror x n = x := by
  apply BitVec.eq_of_getLsbD_eq
  intro i hi
  rw [getLsbD_ror x n hi, show (i + n) % 32 = i by omega]

/-! ### What an operand is, and its carry out -/

/-- The operand is x shifted left by n. -/
def IsLsl (o : Shifted) : Prop :=
  (∀ i, i < 32 → o.value.getLsbD i = (decide (n ≤ i) && x.getLsbD (i - n))) ∧
    o.carry = if n = 0 then c else decide (n ≤ 32) && x.getLsbD (32 - n)

/-- The operand is x shifted right by n, zeros coming in. -/
def IsLsr (o : Shifted) : Prop :=
  (∀ i, i < 32 → o.value.getLsbD i = x.getLsbD (i + n)) ∧ o.carry = if n = 0 then c else x.getLsbD (n - 1)

/-- The operand is x shifted right by n, the sign coming in. -/
def IsAsr (o : Shifted) : Prop :=
  (∀ i, i < 32 → o.value.getLsbD i = x.getLsbD (min (i + n) 31)) ∧
    o.carry = if n = 0 then c else x.getLsbD (min (n - 1) 31)

/-- The operand is x rotated right by n. -/
def IsRor (o : Shifted) : Prop :=
  (∀ i, i < 32 → o.value.getLsbD i = x.getLsbD ((i + n) % 32)) ∧
    o.carry = if n = 0 then c else x.getLsbD ((n - 1) % 32)

variable {x c n} {o : Shifted}

theorem isLsl_zero (hv : o.value = x) (hc : o.carry = c) : IsLsl x c 0 o := ⟨by simp [hv], by simp [hc]⟩
theorem isLsr_zero (hv : o.value = x) (hc : o.carry = c) : IsLsr x c 0 o := ⟨by simp [hv], by simp [hc]⟩

theorem isAsr_zero (hv : o.value = x) (hc : o.carry = c) : IsAsr x c 0 o :=
  ⟨fun i hi => by rw [hv, Nat.min_eq_left (by omega), Nat.add_zero], by simp [hc]⟩

theorem isRor_zero (hv : o.value = x) (hc : o.carry = c) : IsRor x c 0 o :=
  ⟨fun i hi => by rw [hv, Nat.add_zero, Nat.mod_eq_of_lt hi], by simp [hc]⟩

variable (hn : n ≠ 0)
include hn

theorem isLsl_of_lt (h : n < 32) (hv : o.value = lsl x n) (hc : o.carry = x.getLsbD (32 - n)) : IsLsl x c n o :=
  ⟨fun i hi => by rw [hv, getLsbD_lsl x n hi], by rw [hc, if_neg hn, decide_eq_true (by omega), Bool.true_and]⟩

theorem isLsl_of_ge (h : 32 ≤ n) (hv : o.value = 0#32) (hc : o.carry = (decide (n = 32) && x.getLsbD 0)) :
    IsLsl x c n o := by
  refine ⟨fun i hi => by simp [hv, show ¬ n ≤ i by omega], ?_⟩
  rw [hc, if_neg hn, Nat.sub_eq_zero_of_le h, decide_eq_decide.2 (show n = 32 ↔ n ≤ 32 by omega)]

theorem isLsr_of_lt (hv : o.value = lsr x n) (hc : o.carry = x.getLsbD (n - 1)) : IsLsr x c n o :=
  ⟨fun i hi => by rw [hv, getLsbD_lsr x n], by rw [hc, if_neg hn]⟩

theorem isLsr_of_ge (h : 32 ≤ n) (hv : o.value = 0#32) (hc : o.carry = (decide (n = 32) && x.msb)) :
    IsLsr x c n o := by
  refine ⟨fun i _ => by rw [hv, BitVec.getLsbD_of_ge x (i + n) (by omega), BitVec.getLsbD_zero], ?_⟩
  rw [hc, if_neg hn, BitVec.msb_eq_getLsbD_last]
  by_cases h32 : n = 32
  · rw [h32]; rfl
  · rw [decide_eq_false h32, Bool.false_and, BitVec.getLsbD_of_ge x (n - 1) (by omega)]

theorem isAsr_of_lt (h : n < 32) (hv : o.value = asr x n) (hc : o.carry = x.getLsbD (n - 1)) : IsAsr x c n o :=
  ⟨fun i hi => by rw [hv, getLsbD_asr x n hi], by rw [hc, if_neg hn, Nat.min_eq_left (by omega)]⟩

theorem isAsr_of_ge (h : 32 ≤ n) (hv : o.value = asr x 31) (hc : o.carry = x.msb) : IsAsr x c n o := by
  refine ⟨fun i hi => ?_, ?_⟩
  · rw [hv, getLsbD_asr x 31 hi, Nat.min_eq_right (by omega), Nat.min_eq_right (by omega)]
  · rw [hc, if_neg hn, Nat.min_eq_right (by omega), BitVec.msb_eq_getLsbD_last]

theorem isRor_of_value (hv : o.value = ror x n) (hc : o.carry = x.getLsbD ((n - 1) % 32)) : IsRor x c n o :=
  ⟨fun i hi => by rw [hv, getLsbD_ror x n hi], by rw [hc, if_neg hn]⟩

end

/-! ### The operand forms -/

section

variable (x : Word) (c : Bool) (n : Nat)

/-- A shift by a register (30_encoding.md R289). -/
theorem regShift_lsl : IsLsl x c n (regShift 0#2 n x c) := by
  unfold regShift
  split
  next h => subst h; exact isLsl_zero rfl rfl
  next h =>
    by_cases h32 : n < 32
    · exact isLsl_of_lt h h32 (by simp [h32]) (by simp [h32])
    · exact isLsl_of_ge h (by omega) (by simp [h32]) (by simp [h32])

theorem regShift_lsr : IsLsr x c n (regShift 1#2 n x c) := by
  unfold regShift
  split
  next h => subst h; exact isLsr_zero rfl rfl
  next h =>
    by_cases h32 : n < 32
    · exact isLsr_of_lt h (by simp [h32]) (by simp [h32])
    · exact isLsr_of_ge h (by omega) (by simp [h32]) (by simp [h32])

theorem regShift_asr : IsAsr x c n (regShift 2#2 n x c) := by
  unfold regShift
  split
  next h => subst h; exact isAsr_zero rfl rfl
  next h =>
    by_cases h32 : n < 32
    · exact isAsr_of_lt h h32 (by simp [h32]) (by simp [h32])
    · exact isAsr_of_ge h (by omega) (by simp [h32]) (by simp [h32])

theorem regShift_ror : IsRor x c n (regShift 3#2 n x c) := by
  unfold regShift
  split
  next h => subst h; exact isRor_zero rfl rfl
  next h =>
    by_cases h32 : n % 32 = 0
    · refine isRor_of_value h ?_ ?_
      · simpa [h32] using (ror_of_mod h32).symm
      · simp [h32, BitVec.msb_eq_getLsbD_last, show (n - 1) % 32 = 31 by omega]
    · exact isRor_of_value h (by simp [h32, ror]) (by simp [h32, show (n - 1) % 32 = n % 32 - 1 by omega])

/-- A shift by an immediate (30_encoding.md R288): LSR and ASR read the amount 0 as 32, ROR as RRX. -/
theorem immShift_lsl (amt : BitVec 5) : IsLsl x c amt.toNat (immShift 0#2 amt x c) := by
  by_cases h : amt.toNat = 0
  · rw [h]; exact isLsl_zero (by simp [immShift, h]) (by simp [immShift, h])
  · exact isLsl_of_lt h (by omega) (by simp [immShift, h]) (by simp [immShift, h])

theorem immShift_lsr (amt : BitVec 5) : IsLsr x c (if amt = 0#5 then 32 else amt.toNat) (immShift 1#2 amt x c) := by
  split
  next h => subst h; exact isLsr_of_ge (by decide) (Nat.le_refl _) rfl rfl
  next h =>
    have h : amt.toNat ≠ 0 := fun h0 => h (BitVec.eq_of_toNat_eq h0)
    exact isLsr_of_lt h (by simp [immShift, h]) (by simp [immShift, h])

theorem immShift_asr (amt : BitVec 5) : IsAsr x c (if amt = 0#5 then 32 else amt.toNat) (immShift 2#2 amt x c) := by
  split
  next h => subst h; exact isAsr_of_ge (by decide) (Nat.le_refl _) rfl rfl
  next h =>
    have h : amt.toNat ≠ 0 := fun h0 => h (BitVec.eq_of_toNat_eq h0)
    exact isAsr_of_lt h (by omega) (by simp [immShift, h]) (by simp [immShift, h])

theorem immShift_ror {amt : BitVec 5} (h : amt ≠ 0#5) : IsRor x c amt.toNat (immShift 3#2 amt x c) := by
  have h : amt.toNat ≠ 0 := fun h0 => h (BitVec.eq_of_toNat_eq h0)
  refine isRor_of_value h (by simp [immShift, h]) ?_
  simp [immShift, h, show (amt.toNat - 1) % 32 = amt.toNat - 1 by omega]

/-- The rotated immediate (30_encoding.md R287). -/
theorem immOperand_ror (rot : BitVec 4) (imm8 : BitVec 8) :
    IsRor (imm8.zeroExtend 32) c (2 * rot.toNat) (immOperand rot imm8 c) := by
  refine ⟨fun i hi => getLsbD_ror _ _ hi, ?_⟩
  by_cases h : rot = 0#4
  · subst h; rfl
  · have h0 : rot.toNat ≠ 0 := fun h0 => h (BitVec.eq_of_toNat_eq h0)
    simp only [immOperand, if_neg h, if_neg (show 2 * rot.toNat ≠ 0 by omega)]
    rw [BitVec.msb_eq_getLsbD_last, getLsbD_ror _ _ (by decide),
      show (32 - 1 + 2 * rot.toNat) % 32 = (2 * rot.toNat - 1) % 32 by omega]

end

/-- Settles O4: each operand form is the shift that its fields name. -/
theorem shifterOperand : Obligations.ShifterOperand := by
  intro s rs rm amt rot imm8 x n lslIs lsrIs asrIs rorIs right
  refine ⟨regShift_lsl x s.flagC n, regShift_lsr x s.flagC n, regShift_asr x s.flagC n, regShift_ror x s.flagC n,
    immShift_lsl x s.flagC amt, immShift_lsr x s.flagC amt, immShift_asr x s.flagC amt, ?_,
    immOperand_ror s.flagC rot imm8⟩
  split
  next h =>
    subst h
    exact ⟨rfl, fun i hi => getLsbD_rrx x s.flagC hi⟩
  next h => exact immShift_ror x s.flagC h

end Sys2Proof.Machine

/-!
SUPPORT. An instruction whose condition fails (30_encoding.md R283): it moves the PC on and takes a note, whatever its
meaning; B and BL also train the branch target buffer. Settles O7.
-/

namespace Sys2Proof.Machine
section

variable {s : State} {c : BitVec 4}

theorem when_fail (h : s.passes c = false) (b : Result) : s.when c b = .next s.skip := by simp [State.when, h]

/-- The next instruction, with other notes about this one. -/
def State.movedOn (s : State) (n : Scratch) : State := { s with pc := s.pc + s.instrBytes, scratch := n }

/-- A meaning may take notes before it looks at the condition (48_debug_jtag.md R813; 60_exceptions.md R904). -/
theorem when_fail_noted (n : Scratch) (h : s.passes c = false) (b : Result) :
    ∃ m, State.when { s with scratch := n } c b = .next (s.movedOn m) :=
  ⟨_, when_fail (s := { s with scratch := n }) h b⟩

theorem when_fail_dpBegin (o : Op2) (h : s.passes c = false) (b : Result) :
    ∃ m, (s.dpBegin o).when c b = .next (s.movedOn m) := by
  unfold State.dpBegin
  split
  · exact when_fail_noted s.scratch h b
  · exact when_fail_noted _ h b

/-- The branch target buffer's update changes nothing else. -/
theorem btbUpdate_eq (target : Word) (taken : Bool) (suffix : Option (BitVec 11)) :
    ∃ b, s.btbUpdate target taken suffix = { s with btb := b } := by
  unfold State.btbUpdate
  repeat' split
  all_goals exact ⟨_, rfl⟩

theorem directBranch_fail (target : Word) (link : State → State) :
    ∃ m b, directBranch false target none link s = .next { s.movedOn m with btb := b } := by
  obtain ⟨b, hb⟩ := btbUpdate_eq (s := s.noteBranch) target false none
  refine ⟨{ s.noteBranch.scratch with skipped := true }, b, ?_⟩
  rw [directBranch, hb]
  rfl

theorem exec_of_fail {i : Instr} (hi : i.cond? = some c) (h : s.passes c = false) :
    (∃ m, exec i s = .next (s.movedOn m)) ∨
      (∃ imm, i = .b c imm ∨ i = .bl c imm) ∧ ∃ m b, exec i s = .next { s.movedOn m with btb := b } := by
  cases i <;> cases hi
  case and | eor | sub | rsb | add | adc | sbc | rsc | tst | teq | cmp | cmn | orr | mov | bic | mvn =>
    exact .inl (when_fail_dpBegin _ h _)
  case b imm =>
    refine .inr ⟨⟨imm, .inl rfl⟩, ?_⟩
    simpa only [exec, execB, h] using directBranch_fail _ _
  case bl imm =>
    refine .inr ⟨⟨imm, .inr rfl⟩, ?_⟩
    simpa only [exec, execBl, h] using directBranch_fail _ _
  all_goals exact .inl (when_fail_noted _ h _)

/-- The condition table (30_encoding.md R282). -/
theorem condHolds_table : ∀ (c : BitVec 4) (n z k v : Bool), c ≠ 15#4 →
    condHolds c n z k v = [z, !z, k, !k, n, !n, v, !v, k && !z, !k || z, n == v, n != v, !z && (n == v), z || (n != v),
      true].getD c.toNat true := by decide

end

/-- Settles O7: the table by evaluation, the failed condition by `exec_of_fail`. -/
theorem conditionFails : Obligations.ConditionFails := by
  refine ⟨fun s c hc => condHolds_table c s.flagN s.flagZ s.flagC s.flagV hc, fun s i c hi h => ?_⟩
  rcases exec_of_fail hi h with ⟨m, he⟩ | ⟨⟨imm, hb⟩, m, b, he⟩
  · exact ⟨_, he, rfl, rfl, .of_eq rfl rfl, .inl rfl⟩
  · exact ⟨_, he, rfl, rfl, .of_eq rfl rfl, .inr ⟨c, imm, hb⟩⟩

end Sys2Proof.Machine

/-!
SUPPORT. Operands without a meaning (30_encoding.md R305): each shape of meaning answers its refusal before it does
anything else. Settles O42.
-/

namespace Sys2Proof.Machine
section

theorem anyR15_iff {used : List RegNum} : anyR15 used = true ↔ 15#4 ∈ used := by
  simp [anyR15]

variable {s : State} {cond : BitVec 4} (h : s.passes cond = true)
include h

/-- A meaning that takes a note first still looks at the same flags. -/
theorem when_pass_noted (n : Scratch) (b : Result) : State.when { s with scratch := n } cond b = b :=
  when_pass (s := { s with scratch := n }) h b

theorem when_orRefuse_of_some {o : Option Refusal} {r : Refusal} (ho : o = some r) (b : Result) :
    s.when cond (orRefuse o b) = .refused r := by rw [when_pass h, ho]; rfl

/-! ### Data processing and multiplies -/

theorem dpBegin_when_refused {op2 : Op2} {rn rd : RegNum} (ha : op2Allowed op2 rn rd = false) (b : Result) :
    (s.dpBegin op2).when cond (if op2Allowed op2 rn rd then b else .refused .r15Operand) = .refused .r15Operand := by
  have hp : (s.dpBegin op2).passes cond = true := by
    simpa only [State.passes, State.flagN, State.flagZ, State.flagC, State.flagV, cpsr_dpBegin] using h
  rw [when_pass hp, ha]
  rfl

theorem when_anyR15 {used : List RegNum} (hu : 15#4 ∈ used) (b : Result) :
    s.when cond (if anyR15 used then .refused .r15Operand else b) = .refused .r15Operand := by
  rw [when_pass h, if_pos (anyR15_iff.2 hu)]

theorem mulLongOp_refused_overlap {rdHi rdLo rs rm : RegNum} (hu : 15#4 ∉ [rdHi, rdLo, rs, rm]) (he : rdHi = rdLo)
    (sf : Bool) (p : BitVec 64) : mulLongOp cond sf rdHi rdLo rs rm p s = .refused .registerOverlap := by
  rw [mulLongOp, when_pass h, if_neg fun ha => hu (anyR15_iff.1 ha), if_pos he]

/-! ### Transfers of several words -/

/-- The checks of a doubleword transfer come after the test that Rd is even. -/
theorem when_double_refused {p w : Bool} {rn rd : RegNum} {off : Offset3} {r : Refusal} (he : rd.getLsbD 0 = false)
    (hr : doubleRefusal p w rn rd off = some r) (b : Result) :
    s.when cond (if rd.getLsbD 0 then undefinedInstr s else orRefuse (doubleRefusal p w rn rd off) b) = .refused r := by
  rw [when_pass h, he, hr]
  rfl

theorem stm2_refused {p u w : Bool} {rn : RegNum} {list : BitVec 16} (hl : listRefusal rn (listRegs list) = none)
    (hw : w = true ∨ s.lacksSpsr = true) : exec (.stm2 cond p u w rn list) s = .refused .userBankTransfer := by
  refine (when_pass h _).trans ?_
  rw [hl, if_pos ((Bool.or_eq_true _ _).mpr hw)]
  rfl

theorem ldm1_refused {p u w : Bool} {rn : RegNum} {list : BitVec 16} (hl : listRefusal rn (listRegs list) = none)
    (hw : w = true) (hb : (listRegs list).contains rn = true) :
    exec (.ldm1 cond p u w rn list) s = .refused .registerOverlap := by
  refine (when_pass h _).trans ?_
  rw [hl, hw, hb]
  rfl

/-! ### Coprocessors -/

theorem noSuchTransfer_cp0 (hc : s.cp0Allowed = true) : s.when cond (noSuchTransfer 0#4 s) = .refused .cp0Encoding := by
  rw [when_pass h, noSuchTransfer, if_pos ⟨rfl, hc⟩]

theorem unlistedMove_cp0 (hc : s.cp0Allowed = true) (n : Scratch) (why : Refusal) :
    State.when { s with scratch := n } cond (unlistedMove 0#4 why s) = .refused .cp0Encoding := by
  rw [when_pass_noted h, unlistedMove, if_pos rfl, if_pos hc]

theorem unlistedMove_system {cp : BitVec 4} (hp : s.privileged = true) (hcp : cp = 14#4 ∨ cp = 15#4) (n : Scratch)
    (why : Refusal) : State.when { s with scratch := n } cond (unlistedMove cp why s) = .refused why := by
  have h0 : cp ≠ 0#4 := by rcases hcp with rfl | rfl <;> decide
  rw [when_pass_noted h, unlistedMove, if_neg h0, if_pos ⟨hcp, hp⟩]

/-- A move to a system register, before it looks at the word it would write (`moveTo`). -/
theorem when_moveTo_r15 (hp : s.privileged = true) (b : Result) :
    s.keepR13Dbg.when cond
      (if s.privileged then if (15#4 : RegNum) = 15#4 then .refused .r15Operand else b else undefinedInstr s) =
    .refused .r15Operand := by
  refine (when_pass_noted h _ _).trans ?_
  rw [if_pos hp, if_pos rfl]

end

/-- Settles O42: the clauses in their order, each by the lemma about its shape. -/
theorem operandStops : Obligations.OperandStops := by
  intro s cond p u w rn rd am off off3 list r rs rm rdHi rdLo sf x y op2 op1 op2' cp h
  refine ⟨fun hr => ?_, fun hr => ?_, fun hr => ?_, fun hr => ?_, fun he hr => ?_, fun hr => ?_, stm2_refused h,
    ldm1_refused h, fun ha => ?_, fun ha => ?_, fun ha => ?_, fun hu => ?_, fun hu => ?_,
    ⟨fun hu => ?_, fun hu he => ?_⟩, fun hc => ?_, fun hp hcp => ?_, fun hp => ?_⟩
  · exact ⟨when_orRefuse_of_some h hr _, when_orRefuse_of_some h hr _⟩
  · exact ⟨when_orRefuse_of_some h hr _, when_orRefuse_of_some h hr _⟩
  · exact ⟨when_orRefuse_of_some h hr _, when_orRefuse_of_some h hr _, when_orRefuse_of_some h hr _,
      when_orRefuse_of_some h hr _⟩
  · exact ⟨when_orRefuse_of_some h hr _, when_orRefuse_of_some h hr _, when_orRefuse_of_some h hr _,
      when_orRefuse_of_some h hr _⟩
  · exact ⟨when_double_refused h he hr _, when_double_refused h he hr _⟩
  · exact ⟨when_orRefuse_of_some h hr _, when_orRefuse_of_some h hr _, when_orRefuse_of_some h hr _⟩
  · repeat' refine List.forall_mem_cons.2 ⟨dpBegin_when_refused h ha _, ?_⟩
    exact List.forall_mem_nil _
  · repeat' refine List.forall_mem_cons.2 ⟨dpBegin_when_refused h ha _, ?_⟩
    exact List.forall_mem_nil _
  · repeat' refine List.forall_mem_cons.2 ⟨dpBegin_when_refused h ha _, ?_⟩
    exact List.forall_mem_nil _
  · have hq : 15#4 ∈ [rs, rd, rm] := (List.Perm.swap _ _ _).mem_iff.1 hu
    refine List.forall_mem_cons.2 ⟨when_anyR15 h hu _, List.forall_mem_cons.2 ⟨when_anyR15 h hu _,
      List.forall_mem_cons.2 ⟨when_anyR15 h hu _, ?_⟩⟩⟩
    repeat' refine List.forall_mem_cons.2 ⟨when_anyR15 h hq _, ?_⟩
    exact List.forall_mem_nil _
  · repeat' refine List.forall_mem_cons.2 ⟨when_anyR15 h hu _, ?_⟩
    exact List.forall_mem_nil _
  · repeat' refine List.forall_mem_cons.2 ⟨when_anyR15 h hu _, ?_⟩
    exact List.forall_mem_nil _
  · repeat' refine List.forall_mem_cons.2 ⟨mulLongOp_refused_overlap h hu he _ _, ?_⟩
    exact List.forall_mem_nil _
  · simp only [List.forall_mem_cons]
    exact ⟨noSuchTransfer_cp0 h hc, unlistedMove_cp0 h hc _ _, unlistedMove_cp0 h hc _ _, noSuchTransfer_cp0 h hc,
      noSuchTransfer_cp0 h hc, List.forall_mem_nil _⟩
  · refine ⟨unlistedMove_system h hp hcp _ _, fun h14 => ?_, unlistedMove_system h hp (.inr rfl) _ .writeOnlyRegister⟩
    subst h14
    exact unlistedMove_system h hp (.inl rfl) _ .reservedCoprocessorRegister
  · dsimp only
    repeat' refine List.forall_mem_cons.2 ⟨when_moveTo_r15 h hp _, ?_⟩
    exact List.forall_mem_nil _

end Sys2Proof.Machine

/-!
SUPPORT. The data-processing instructions (40_data_processing.md R350, R351): AddWithCarry in the terms of sums and
differences, then what the four shapes of meaning answer where the condition passes. Settles O1, O2 and O3.
-/

namespace Sys2Proof.Machine
section

/-! ### AddWithCarry (R351) -/

/-- What AddWithCarry gives for x, y and a carry in: the wrapped sum, the carry out and the exact signed sum. -/
structure AddsTo (x y : Word) (c : Bool) (r : Word) (carry : Bool) (total : Int) : Prop where
  value : BitVec.ofNat 32 (x.toNat + y.toNat + bit c) = r
  carry : decide (2 ^ 32 ≤ x.toNat + y.toNat + bit c) = carry
  total : x.toInt + y.toInt + bit c = total

variable {x y r : Word} {c carry : Bool} {total : Int}

theorem AddsTo.symm (h : AddsTo x y c r carry total) : AddsTo y x c r carry total where
  value := Nat.add_comm x.toNat y.toNat ▸ h.value
  carry := Nat.add_comm x.toNat y.toNat ▸ h.carry
  total := Int.add_comm x.toInt y.toInt ▸ h.total

theorem setSum_of_addsTo (h : AddsTo x y c r carry total) (s : State) :
    s.setSum (addWithCarry x y c) = s.setNzcv r.msb (decide (r = 0#32)) carry (decide (r.toInt ≠ total)) := by
  obtain ⟨rfl, rfl, rfl⟩ := h
  rfl

variable (x y c)

theorem addsTo_add_carry : AddsTo x y c (x + y + BitVec.ofNat 32 (bit c))
    (decide (2 ^ 32 ≤ x.toNat + y.toNat + bit c)) (x.toInt + y.toInt + bit c) where
  value := by simp [BitVec.ofNat_add]
  carry := rfl
  total := rfl

theorem addsTo_add : AddsTo x y false (x + y) (decide (2 ^ 32 ≤ x.toNat + y.toNat)) (x.toInt + y.toInt) := by
  simpa [bit] using addsTo_add_carry x y false

theorem addsTo_sub_borrow : AddsTo x (~~~y) c (x - y - BitVec.ofNat 32 (1 - bit c))
    (decide (y.toNat + (1 - bit c) ≤ x.toNat)) (x.toInt - y.toInt - ((1 - bit c : Nat) : Int)) where
  value := sum_not_eq_sub x y c
  carry := carry_not_eq_noBorrow x y c
  total := exact_not_eq_sub x y c

theorem addsTo_sub : AddsTo x (~~~y) true (x - y) (decide (y.toNat ≤ x.toNat)) (x.toInt - y.toInt) := by
  simpa [bit] using addsTo_sub_borrow x y true

end

/-! ### The meanings, by their shapes (R360 to R375) -/

section

variable (cond : BitVec 4) (sf : Bool) (rn rd : RegNum) (op2 : Op2) (s : State)

theorem exec_and : exec (.and cond sf rn rd op2) s = logicalOp cond sf rn rd op2 (fun a b => a &&& b) s := rfl
theorem exec_eor : exec (.eor cond sf rn rd op2) s = logicalOp cond sf rn rd op2 (fun a b => a ^^^ b) s := rfl
theorem exec_orr : exec (.orr cond sf rn rd op2) s = logicalOp cond sf rn rd op2 (fun a b => a ||| b) s := rfl
theorem exec_bic : exec (.bic cond sf rn rd op2) s = logicalOp cond sf rn rd op2 (fun a b => a &&& ~~~b) s := rfl
theorem exec_mov : exec (.mov cond sf rd op2) s = logicalOp cond sf 0#4 rd op2 (fun _ b => b) s := rfl
theorem exec_mvn : exec (.mvn cond sf rd op2) s = logicalOp cond sf 0#4 rd op2 (fun _ b => ~~~b) s := rfl

theorem exec_add : exec (.add cond sf rn rd op2) s =
    arithOp cond sf rn rd op2 (fun a b _ => addWithCarry a b false) s := rfl
theorem exec_adc : exec (.adc cond sf rn rd op2) s =
    arithOp cond sf rn rd op2 (fun a b c => addWithCarry a b c) s := rfl
theorem exec_sub : exec (.sub cond sf rn rd op2) s =
    arithOp cond sf rn rd op2 (fun a b _ => addWithCarry a (~~~b) true) s := rfl
theorem exec_sbc : exec (.sbc cond sf rn rd op2) s =
    arithOp cond sf rn rd op2 (fun a b c => addWithCarry a (~~~b) c) s := rfl
theorem exec_rsb : exec (.rsb cond sf rn rd op2) s =
    arithOp cond sf rn rd op2 (fun a b _ => addWithCarry (~~~a) b true) s := rfl
theorem exec_rsc : exec (.rsc cond sf rn rd op2) s =
    arithOp cond sf rn rd op2 (fun a b c => addWithCarry (~~~a) b c) s := rfl

theorem exec_tst : exec (.tst cond rn op2) s = logicalTest cond rn op2 (fun a b => a &&& b) s := rfl
theorem exec_teq : exec (.teq cond rn op2) s = logicalTest cond rn op2 (fun a b => a ^^^ b) s := rfl
theorem exec_cmp : exec (.cmp cond rn op2) s =
    arithTest cond rn op2 (fun a b => addWithCarry a (~~~b) true) s := rfl
theorem exec_cmn : exec (.cmn cond rn op2) s = arithTest cond rn op2 (fun a b => addWithCarry a b false) s := rfl

end

/-! ### What the shapes of meaning do where the condition passes -/

section

variable {s : State} {cond : BitVec 4} {sf : Bool} {rn rd : RegNum} {op2 : Op2} {i : Instr}

/-- Only a note of the step differs (48_debug_jtag.md R813). -/
theorem dpBegin_eq (s : State) (op2 : Op2) : ∃ n, s.dpBegin op2 = { s with scratch := n } := by
  unfold State.dpBegin
  split
  · exact ⟨s.scratch, rfl⟩
  · exact ⟨_, rfl⟩

theorem dpBegin_when_allowed (h : s.passes cond = true) (ha : op2Allowed op2 rn rd = true) (b b' : Result) :
    (s.dpBegin op2).when cond (if op2Allowed op2 rn rd then b else b') = b := by
  obtain ⟨n, hn⟩ := dpBegin_eq s op2
  rw [hn, when_pass_noted h, if_pos ha]

/-- A comparison: new flags, the next instruction, nothing else. -/
theorem completes_flags {n z c v : Bool} (hi : exec i s = .next ((s.dpBegin op2).setNzcv n z c v).advance) :
    Completes i s fun t => Advances s t ∧ Frame [] s t ∧ FlagsAre n z c v s t := by
  refine ⟨_, hi, ?_, ?_, ?_⟩
  · simp [Advances, State.advance]
  · exact ((frame_dpBegin s op2).trans (by simp) (frame_setNzcv _ n z c v)).trans (by simp) (frame_advance _)
  · exact (flagsAre_setNzcv (s := s.dpBegin op2) n z c v rfl).congr (by simp) (by simp)

variable (h : s.passes cond = true)
include h

theorem completes_arith {f : Word → Word → Bool → Sum} {x y r : Word} {c carry : Bool} {total : Int}
    (ha : op2Allowed op2 rn rd = true) (h15 : rd ≠ 15#4) (hi : exec i s = arithOp cond sf rn rd op2 f s)
    (hf : f (s.reg rn) (s.operand2 op2).value s.flagC = addWithCarry x y c) (hs : AddsTo x y c r carry total) :
    Completes i s fun t => t.reg rd = r ∧ Advances s t ∧ Frame [rd] s t ∧
      if sf then FlagsAre r.msb (decide (r = 0#32)) carry (decide (r.toInt ≠ total)) s t else FlagsKept s t := by
  rw [Completes, hi, arithOp, dpBegin_when_allowed h ha, hf]
  exact dpWrite_sum x y c r carry total hs.value hs.carry hs.total sf s rd op2 h15

theorem completes_logical {f : Word → Word → Word} (ha : op2Allowed op2 rn rd = true) (h15 : rd ≠ 15#4)
    (hi : exec i s = logicalOp cond sf rn rd op2 f s) {r : Word}
    (hr : f (s.reg rn) (s.operand2 op2).value = r) :
    Completes i s fun t => t.reg rd = r ∧ Advances s t ∧ Frame [rd] s t ∧
      if sf then FlagsAre r.msb (decide (r = 0#32)) (s.operand2 op2).carry s.flagV s t else FlagsKept s t := by
  subst hr
  rw [Completes, hi, logicalOp, dpBegin_when_allowed h ha]
  refine dpWrite_spec sf s rd op2 _ _ _ _ _ h15 _ fun t ht => ?_
  simp only [State.setLogical, State.setNzc, State.flagV, ht]
  rfl

theorem completes_arithTest {f : Word → Word → Sum} {x y r : Word} {c carry : Bool} {total : Int}
    (ha : op2Allowed op2 rn 0#4 = true) (hi : exec i s = arithTest cond rn op2 f s)
    (hf : f (s.reg rn) (s.operand2 op2).value = addWithCarry x y c) (hs : AddsTo x y c r carry total) :
    Completes i s fun t => Advances s t ∧ Frame [] s t ∧
      FlagsAre r.msb (decide (r = 0#32)) carry (decide (r.toInt ≠ total)) s t := by
  refine completes_flags (op2 := op2) ?_
  rw [hi, arithTest, dpBegin_when_allowed h ha, hf, setSum_of_addsTo hs]

theorem completes_logicalTest {f : Word → Word → Word} (ha : op2Allowed op2 rn 0#4 = true)
    (hi : exec i s = logicalTest cond rn op2 f s) {r : Word} (hr : f (s.reg rn) (s.operand2 op2).value = r) :
    Completes i s fun t => Advances s t ∧ Frame [] s t ∧
      FlagsAre r.msb (decide (r = 0#32)) (s.operand2 op2).carry s.flagV s t := by
  refine completes_flags (op2 := op2) ?_
  rw [hi, logicalTest, dpBegin_when_allowed h ha, hr]
  simp only [State.setLogical, State.setNzc, State.flagV, cpsr_dpBegin]
  rfl

end


/-- Settles O1: each instruction is an AddWithCarry, whose operands are inverted for a difference. -/
theorem arithmeticResult : Obligations.ArithmeticResult := by
  intro s cond sf rn rd op2 h ha h15 x y c b gives
  exact ⟨completes_arith h ha h15 (exec_add ..) rfl (addsTo_add x y),
    completes_arith h ha h15 (exec_adc ..) rfl (addsTo_add_carry x y s.flagC),
    completes_arith h ha h15 (exec_sub ..) rfl (addsTo_sub x y),
    completes_arith h ha h15 (exec_sbc ..) rfl (addsTo_sub_borrow x y s.flagC),
    completes_arith h ha h15 (exec_rsb ..) rfl (addsTo_sub y x).symm,
    completes_arith h ha h15 (exec_rsc ..) rfl (addsTo_sub_borrow y x s.flagC).symm⟩

/-- The rule on R15 in the form shifted by a register asks less of an instruction without Rn (30_encoding.md R289). -/
theorem op2Allowed_zero {op2 : Op2} {rn rd : RegNum} (ha : op2Allowed op2 rn rd = true) :
    op2Allowed op2 0#4 rd = true := by
  cases op2 with
  | reg rs sh rm =>
    simp only [op2Allowed, Bool.and_eq_true] at ha ⊢
    obtain ⟨⟨hshift, -⟩, hrd⟩ := ha
    exact ⟨⟨hshift, rfl⟩, hrd⟩
  | imm | shift => rfl

/-- Settles O2; MOV and MVN have R0 in the Rn field, which they do not use. -/
theorem logicalResult : Obligations.LogicalResult := by
  intro s cond sf rn rd op2 h ha h15 x y gives
  have ha0 := op2Allowed_zero ha
  exact ⟨completes_logical h ha h15 (exec_and ..) rfl, completes_logical h ha h15 (exec_eor ..) rfl,
    completes_logical h ha h15 (exec_orr ..) rfl, completes_logical h ha h15 (exec_bic ..) rfl,
    completes_logical h ha0 h15 (exec_mov ..) rfl, completes_logical h ha0 h15 (exec_mvn ..) rfl⟩

/-- Settles O3: the comparisons are the tests of AND, EOR, SUB and ADD. -/
theorem comparisons : Obligations.Comparisons := by
  intro s cond rn op2 h ha x y sets
  exact ⟨completes_logicalTest h ha (exec_tst ..) rfl, completes_logicalTest h ha (exec_teq ..) rfl,
    completes_arithTest h ha (exec_cmp ..) rfl (addsTo_sub x y),
    completes_arithTest h ha (exec_cmn ..) rfl (addsTo_add x y)⟩

end Sys2Proof.Machine

/-!
SUPPORT. A data-processing result into R15 (40_data_processing.md R352): a branch, or with S the return from an
exception (43_branch_status_system.md R520; 60_exceptions.md R885). Settles O5.
-/

namespace Sys2Proof.Machine

/-- The state once CPSR <- SPSR is done, outside Special Debug State (60_exceptions.md R885; 48_debug_jtag.md R766). -/
def State.restored (s : State) (w : Word) : State := { s with cpsr := w, dbgUnit := { s.dbgUnit with sds := false } }

section

/-! ### The return from an exception, answer by answer -/

variable {s : State} {w : Word} (v : Word)

theorem exceptionReturn_noSpsr (hw : s.spsrOf = none) : s.exceptionReturn v = .refused .noSpsr := by
  simp only [State.exceptionReturn, State.restoreCpsr, hw]

theorem exceptionReturn_illegalMode (hw : s.spsrOf = some w) (hm : (modeOf (w.extractLsb' 0 5)).isSome = false) :
    s.exceptionReturn v = .refused .illegalMode := by
  have hnone : modeOf (w.extractLsb' 0 5) = none := by simpa using hm
  simp [State.exceptionReturn, State.restoreCpsr, hw, hnone]

variable (hw : s.spsrOf = some w) (hm : (modeOf (w.extractLsb' 0 5)).isSome = true)
include hw hm

theorem restoreCpsr_legal : s.restoreCpsr = .ok (s.restored w) := by
  obtain ⟨_, hsome⟩ := Option.isSome_iff_exists.1 hm
  simp [State.restoreCpsr, hw, hsome, State.restored]

theorem exceptionReturn_legal : s.exceptionReturn v =
    if w.getLsbD 5 then .next ((s.restored w).jump (v &&& 0xFFFFFFFE#32) true)
    else if v.extractLsb' 0 2 ≠ 0#2 then .refused .unalignedTarget
    else .next ((s.restored w).jump v true) := by
  rw [State.exceptionReturn, restoreCpsr_legal hw hm]
  rfl

end

section

/-! ### A result into R15 -/

variable {s : State} {cond : BitVec 4} {sf : Bool} {rn : RegNum} {op2 : Op2} (h : s.passes cond = true)
  (ha : op2Allowed op2 rn 15#4 = true)
include h ha

/-- The flags of the instruction are not written, so any function stands for them. -/
theorem logicalOp_pc (f : Word → Word → Word) : logicalOp cond sf rn 15#4 op2 f s =
    dpWrite sf 15#4 (f (s.reg rn) (s.operand2 op2).value) id (s.dpBegin op2) :=
  dpBegin_when_allowed h ha _ _

theorem arithOp_pc {f : Word → Word → Bool → Sum} {x y r : Word} {c carry : Bool} {total : Int}
    (hf : f (s.reg rn) (s.operand2 op2).value s.flagC = addWithCarry x y c) (hs : AddsTo x y c r carry total) :
    arithOp cond sf rn 15#4 op2 f s = dpWrite sf 15#4 r id (s.dpBegin op2) := by
  rw [arithOp, dpBegin_when_allowed h ha, hf, ← hs.value]
  rfl

omit h ha
variable {v w : Word}

theorem dpWrite_branch (hv : v.extractLsb' 0 2 = 0#2) :
    ∃ t, dpWrite false 15#4 v id (s.dpBegin op2) = .next t ∧ t.pc = v ∧ FlagsKept s t ∧ Frame [] s t := by
  obtain ⟨n, hn⟩ := dpBegin_eq s op2
  refine ⟨_, if_neg (not_not_intro hv), rfl, ?_, ?_⟩
  · rw [hn]; rfl
  · rw [hn]; exact .of_eq rfl rfl

theorem dpWrite_branch_unaligned (hv : v.extractLsb' 0 2 ≠ 0#2) (t : State) :
    dpWrite false 15#4 v id t = .refused .unalignedTarget := if_pos hv

theorem dpWrite_return (t : State) : dpWrite true 15#4 v id t = t.exceptionReturn v := rfl

theorem spsrOf_dpBegin (s : State) (op2 : Op2) : (s.dpBegin op2).spsrOf = s.spsrOf := by
  obtain ⟨n, hn⟩ := dpBegin_eq s op2
  rw [hn]; rfl

/-- The PC of a return: the new T bit selects its alignment. -/
theorem exceptionReturn_completes (hw : s.spsrOf = some w) (hm : (modeOf (w.extractLsb' 0 5)).isSome = true)
    (hv : v.extractLsb' 0 2 = 0#2 ∨ w.getLsbD 5 = true) :
    s.exceptionReturn v =
      .next ((s.restored w).jump (if w.getLsbD 5 then v &&& 0xFFFFFFFE#32 else v) true) := by
  rw [exceptionReturn_legal v hw hm]
  cases ht : w.getLsbD 5
  · have ha : v.extractLsb' 0 2 = 0#2 := hv.resolve_right fun e => Bool.false_ne_true (ht.symm.trans e)
    exact if_neg (not_not_intro ha)
  · rfl

theorem frame_restored_jump (s : State) (op2 : Op2) (w v : Word) :
    Frame [] s { ((s.dpBegin op2).restored w).jump v true with dbgUnit := s.dbgUnit } := by
  obtain ⟨n, hn⟩ := dpBegin_eq s op2
  rw [hn]
  exact .of_eq rfl rfl

end

/-- Settles O5: every instruction of the list writes its result to R15 in one way, whose answers the clauses are. -/
theorem resultToPc : Obligations.ResultToPc := by
  intro s cond rn op2 w h ha x y c results
  have ha0 := op2Allowed_zero ha
  have hexec : ∀ sf, ∀ p ∈ results sf, exec p.1 s = dpWrite sf 15#4 p.2 id (s.dpBegin op2) := by
    intro sf
    simp only [results, List.forall_mem_cons]
    exact ⟨(exec_and ..).trans (logicalOp_pc h ha _), (exec_eor ..).trans (logicalOp_pc h ha _),
      (exec_sub ..).trans (arithOp_pc h ha rfl (addsTo_sub x y)),
      (exec_rsb ..).trans (arithOp_pc h ha rfl (addsTo_sub y x).symm),
      (exec_add ..).trans (arithOp_pc h ha rfl (addsTo_add x y)),
      (exec_adc ..).trans (arithOp_pc h ha rfl (addsTo_add_carry x y s.flagC)),
      (exec_sbc ..).trans (arithOp_pc h ha rfl (addsTo_add_carry x (~~~y) s.flagC)),
      (exec_rsc ..).trans (arithOp_pc h ha rfl (addsTo_add_carry (~~~x) y s.flagC)),
      (exec_orr ..).trans (logicalOp_pc h ha _), (exec_mov ..).trans (logicalOp_pc h ha0 _),
      (exec_bic ..).trans (logicalOp_pc h ha _), (exec_mvn ..).trans (logicalOp_pc h ha0 _),
      List.forall_mem_nil _⟩
  have hreturn : ∀ p ∈ results true, exec p.1 s = (s.dpBegin op2).exceptionReturn p.2 := hexec true
  rw [← spsrOf_dpBegin s op2]
  refine ⟨fun p hp hv => ?_, fun hw hm p hp hv => ?_, fun p hp hv => ?_, fun hw p hp => ?_, fun hw hm p hp => ?_,
    fun hw hm ht p hp hv => ?_⟩
  · rw [Completes, hexec false p hp]
    exact dpWrite_branch hv
  · refine ⟨_, (hreturn p hp).trans (exceptionReturn_completes hw hm hv), rfl, rfl, rfl, ?_⟩
    exact frame_restored_jump s op2 w _
  · exact (hexec false p hp).trans (dpWrite_branch_unaligned hv _)
  · exact (hreturn p hp).trans (exceptionReturn_noSpsr p.2 hw)
  · exact (hreturn p hp).trans (exceptionReturn_illegalMode p.2 hw hm)
  · rw [hreturn p hp, exceptionReturn_legal p.2 hw hm, ht]
    exact if_pos hv

end Sys2Proof.Machine

/-!
SUPPORT. CLZ (40_data_processing.md R380): the leading zeros end at the most significant 1 bit. Settles O6.
-/

namespace Sys2Proof.Machine
section

/-- The number of leading zeros of a word that is not zero is 31 minus the index of the most significant 1 bit. -/
theorem leadingZeros_toNat {v : Word} (hv : v ≠ 0#32) :
    v.toNat.log2 ≤ 31 ∧ (leadingZeros v).toNat = 31 - v.toNat.log2 := by
  have h0 : v.toNat ≠ 0 := fun e => hv (BitVec.eq_of_toNat_eq e)
  have hlog : v.toNat.log2 < 32 := (Nat.log2_lt h0).2 v.isLt
  rw [leadingZeros, if_neg hv, BitVec.toNat_ofNat]
  omega

theorem getLsbD_log2 {v : Word} (hv : v ≠ 0#32) : v.getLsbD v.toNat.log2 = true :=
  Nat.testBit_log2 fun e => hv (BitVec.eq_of_toNat_eq e)

theorem getLsbD_above_log2 {v : Word} {i : Nat} (hi : v.toNat.log2 < i) : v.getLsbD i = false :=
  Nat.testBit_lt_two_pow (Nat.lt_log2_self.trans_le (Nat.pow_le_pow_right (by decide) hi))

theorem leadingZeros_spec {v : Word} (hv : v ≠ 0#32) :
    (leadingZeros v).toNat < 32 ∧ v.getLsbD (31 - (leadingZeros v).toNat) = true ∧
      ∀ j, j < (leadingZeros v).toNat → v.getLsbD (31 - j) = false := by
  obtain ⟨hlog, hz⟩ := leadingZeros_toNat hv
  rw [hz]
  refine ⟨by omega, ?_, fun j hj => getLsbD_above_log2 (by omega)⟩
  rw [Nat.sub_sub_self hlog]
  exact getLsbD_log2 hv

end

/-- Settles O6: the count by `leadingZeros_spec`, the rest as for any register write. -/
theorem countLeadingZeros : Obligations.CountLeadingZeros := by
  intro s cond rd rm h
  refine ⟨fun hd hm => ?_, fun h15 => (when_pass h _).trans (if_pos h15)⟩
  have hreg : (s.setReg rd (leadingZeros (s.reg rm))).advance.reg rd = leadingZeros (s.reg rm) := by
    rw [reg_advance _ _ hd, reg_setReg_self _ _ _ hd]
  refine ⟨_, (when_pass h _).trans (if_neg (not_or.2 ⟨hd, hm⟩)), ?_, ?_, frame_setReg_advance s rd _,
    setReg_cpsr s rd _⟩
  · rw [hreg]
    split
    next h0 => rw [leadingZeros, if_pos h0]
    next h0 => exact leadingZeros_spec h0
  · simp [Advances, State.advance]

end Sys2Proof.Machine

/-!
SUPPORT. The multiplies (41_multiply_dsp.md R400, R405 to R410, R419): registers are written, then the flags. What
such an instruction answers, once for one destination and once for a pair. Settles O8.
-/

namespace Sys2Proof.Machine

/-- From s to u registers were written, of these numbers only; neither the CPSR nor the PC changed. -/
structure WritesRegs (rs : List RegNum) (s u : State) : Prop where
  frame : Frame rs s u
  cpsr : u.cpsr = s.cpsr
  pc : u.pc = s.pc

section

/-! ### Registers written, then the flags -/

variable {s u : State} {rs : List RegNum} {i : Instr}

theorem writesRegs_setReg (s : State) (rd : RegNum) (v : Word) : WritesRegs [rd] s (s.setReg rd v) :=
  ⟨frame_setReg s rd v, setReg_cpsr s rd v, setReg_pc s rd v⟩

theorem writesRegs_setPair (s : State) (rdHi rdLo : RegNum) (p : BitVec 64) :
    WritesRegs [rdHi, rdLo] s (s.setPair rdHi rdLo p) :=
  ⟨frame_setReg_setReg s rdHi rdLo _ _, by simp [State.setPair], by simp [State.setPair]⟩

theorem pair_setPair {rdHi rdLo : RegNum} (hHi : rdHi ≠ 15#4) (hLo : rdLo ≠ 15#4) (hne : rdHi ≠ rdLo) (s : State)
    (p : BitVec 64) : (s.setPair rdHi rdLo p).pair rdHi rdLo = p := by
  rw [State.pair, State.setPair, reg_setReg_of_ne _ _ _ _ hne, reg_setReg_self _ _ _ hHi, reg_setReg_self _ _ _ hLo,
    BitVec.extractLsb'_append_extractLsb'_eq_extractLsb' (by rfl), BitVec.extractLsb'_eq_self]

theorem WritesRegs.instrBytes (h : WritesRegs rs s u) : u.instrBytes = s.instrBytes := by
  unfold State.instrBytes State.thumb
  rw [h.cpsr]

theorem WritesRegs.mode (h : WritesRegs rs s u) : u.mode = s.mode := mode_of_cpsr _ _ h.cpsr

/-- A multiply: registers, with S the flags, the next instruction, nothing else. -/
theorem completes_flagged {sf : Bool} {n z c v : Bool} (h : WritesRegs rs s u)
    (hi : exec i s = .next (if sf then u.setNzcv n z c v else u).advance) :
    Completes i s fun t => (∀ r, r ≠ 15#4 → t.reg r = u.reg r) ∧ Advances s t ∧ Frame rs s t ∧
      if sf then FlagsAre n z c v s t else FlagsKept s t := by
  refine ⟨_, hi, ?_⟩
  cases sf
  · refine ⟨fun r hr => reg_advance _ r hr, ?_, h.frame.trans h.mode (frame_advance _), h.cpsr⟩
    simp [Advances, h.pc, h.instrBytes]
  · refine ⟨fun r hr => by simp [hr], ?_, ?_, (flagsAre_setNzcv n z c v rfl).congr h.cpsr.symm rfl⟩
    · simp [Advances, h.pc, h.instrBytes]
    · exact (h.frame.trans h.mode (frame_setNzcv u n z c v)).trans (by simp [h.mode]) (frame_advance _)

/-! ### The meanings, by their shapes (R405 to R410, R419) -/

section

variable (cond : BitVec 4) (sf y x : Bool) (rd rn rs rm rdHi rdLo : RegNum) (s : State)

theorem exec_mul : exec (.mul cond sf rd rs rm) s = mulOp cond sf rd [rs, rm] (s.reg rm * s.reg rs) s := rfl
theorem exec_mla : exec (.mla cond sf rd rn rs rm) s =
    mulOp cond sf rd [rn, rs, rm] (s.reg rm * s.reg rs + s.reg rn) s := rfl

theorem exec_umull : exec (.umull cond sf rdHi rdLo rs rm) s =
    mulLongOp cond sf rdHi rdLo rs rm (umul64 (s.reg rm) (s.reg rs)) s := rfl
theorem exec_umlal : exec (.umlal cond sf rdHi rdLo rs rm) s =
    mulLongOp cond sf rdHi rdLo rs rm (umul64 (s.reg rm) (s.reg rs) + s.pair rdHi rdLo) s := rfl
theorem exec_smull : exec (.smull cond sf rdHi rdLo rs rm) s =
    mulLongOp cond sf rdHi rdLo rs rm (smul64 (s.reg rm) (s.reg rs)) s := rfl
theorem exec_smlal : exec (.smlal cond sf rdHi rdLo rs rm) s =
    mulLongOp cond sf rdHi rdLo rs rm (smul64 (s.reg rm) (s.reg rs) + s.pair rdHi rdLo) s := rfl
theorem exec_smlalXY : exec (.smlalXY cond rdHi rdLo rs y x rm) s = mulLongOp cond false rdHi rdLo rs rm
    (s.pair rdHi rdLo + BitVec.ofInt 64 (halfInt (s.reg rm) x * halfInt (s.reg rs) y)) s := rfl

end

/-! ### The meanings of the multiplies, where the condition passes and no operand is R15 -/

variable {cond : BitVec 4} {sf : Bool} (h : s.passes cond = true)
include h

theorem regOp_next {used : List RegNum} (hu : 15#4 ∉ used) (body : State → State) :
    regOp cond used body s = .next (body s).advance :=
  (when_pass h _).trans (if_neg fun ha => hu (anyR15_iff.1 ha))

/-- One register written, no flag. -/
theorem completes_regOp_setReg {rd : RegNum} {used : List RegNum} {v : State → Word} (hd : rd ≠ 15#4)
    (hu : 15#4 ∉ used) (hi : exec i s = regOp cond used (fun s => s.setReg rd (v s)) s) :
    Completes i s fun t => t.reg rd = v s ∧ Advances s t ∧ Frame [rd] s t ∧ FlagsKept s t :=
  (completes_flagged (sf := false) (n := false) (z := false) (c := false) (v := false)
    (writesRegs_setReg s rd (v s)) (hi.trans (regOp_next h hu _))).mono
    fun _ ⟨hreg, hrest⟩ => ⟨(hreg rd hd).trans (reg_setReg_self s rd (v s) hd), hrest⟩

theorem completes_mulOp {rd : RegNum} {used : List RegNum} {r : Word} (hd : rd ≠ 15#4) (hu : 15#4 ∉ used)
    (hi : exec i s = mulOp cond sf rd used r s) :
    Completes i s fun t => t.reg rd = r ∧ Advances s t ∧ Frame [rd] s t ∧
      if sf then FlagsAre r.msb (decide (r = 0#32)) s.flagC s.flagV s t else FlagsKept s t := by
  have hnext := hi.trans (regOp_next h (List.not_mem_cons_of_ne_of_not_mem hd.symm hu) _)
  simp only [State.setNz, flagC_setReg, flagV_setReg] at hnext
  exact (completes_flagged (writesRegs_setReg s rd r) hnext).mono
    fun _ ⟨hreg, hrest⟩ => ⟨(hreg rd hd).trans (reg_setReg_self s rd r hd), hrest⟩

theorem completes_mulLongOp {rdHi rdLo rs rm : RegNum} {p : BitVec 64} (hHi : rdHi ≠ 15#4) (hLo : rdLo ≠ 15#4)
    (hs : rs ≠ 15#4) (hm : rm ≠ 15#4) (hne : rdHi ≠ rdLo) (hi : exec i s = mulLongOp cond sf rdHi rdLo rs rm p s) :
    Completes i s fun t => (t.reg rdHi ++ t.reg rdLo : BitVec 64) = p ∧ Advances s t ∧ Frame [rdHi, rdLo] s t ∧
      if sf then FlagsAre p.msb (decide (p = 0#64)) s.flagC s.flagV s t else FlagsKept s t := by
  have hu : 15#4 ∉ [rdHi, rdLo, rs, rm] := by simp [hHi.symm, hLo.symm, hs.symm, hm.symm]
  rw [mulLongOp, when_pass h, if_neg fun ha => hu (anyR15_iff.1 ha), if_neg hne] at hi
  simp only [State.setNzLong, State.setPair, flagC_setReg, flagV_setReg] at hi
  refine (completes_flagged (writesRegs_setPair s rdHi rdLo p) hi).mono fun t ⟨hreg, hrest⟩ => ⟨?_, hrest⟩
  rw [hreg rdHi hHi, hreg rdLo hLo]
  exact pair_setPair hHi hLo hne s p

end

/-- Settles O8: both are one shape of meaning, `completes_mulOp`. -/
theorem multiply : Obligations.Multiply := by
  intro s cond sf rd rn rs rm h hd hs hm gives
  exact ⟨completes_mulOp h hd (by simp [hs.symm, hm.symm]) (exec_mul ..),
    fun hn => completes_mulOp h hd (by simp [hn.symm, hs.symm, hm.symm]) (exec_mla ..)⟩

end Sys2Proof.Machine

/-!
SUPPORT. The products of the long multiplies and of the halfword multiplies (41_multiply_dsp.md R407 to R410, R415 to
R419), as bit vectors and as signed numbers. Settles O9.
-/

namespace Sys2Proof.Machine
section

/-! ### Products of 64 bits -/

theorem umul64_eq (x y : Word) : umul64 x y = x.zeroExtend 64 * y.zeroExtend 64 := by
  simp [umul64, BitVec.ofNat_mul]

theorem smul64_eq (x y : Word) : smul64 x y = x.signExtend 64 * y.signExtend 64 := BitVec.ofInt_mul _ _

/-! ### Signed halves -/

/-- The half of a word that a DSP multiply takes, as a halfword (R415). -/
def halfOf (w : Word) (top : Bool) : BitVec 16 := (w >>> (if top then 16 else 0)).truncate 16

theorem halfInt_eq_toInt (w : Word) (top : Bool) : halfInt w top = (halfOf w top).toInt := by
  refine congrArg BitVec.toInt (BitVec.eq_of_toNat_eq ?_)
  cases top <;> simp [halfOf]

theorem ofInt_half_mul_half (v w : Word) (x y : Bool) : BitVec.ofInt 64 (halfInt v x * halfInt w y) =
    (halfOf v x).signExtend 64 * (halfOf w y).signExtend 64 := by
  rw [halfInt_eq_toInt, halfInt_eq_toInt]
  exact BitVec.ofInt_mul _ _

theorem abs_toInt_word_le (x : Word) : |x.toInt| ≤ 2 ^ 31 := by
  have := toInt_bound x
  rw [abs_le]
  omega

theorem abs_toInt_half_le (w : Word) (top : Bool) : |(halfOf w top).toInt| ≤ 2 ^ 15 :=
  abs_le.2 ⟨BitVec.le_toInt _, (BitVec.toInt_lt (x := halfOf w top)).le⟩

theorem abs_mul_le_of_le {a b m n : Int} (ha : |a| ≤ m) (hb : |b| ≤ n) : |a * b| ≤ m * n :=
  abs_mul a b ▸ mul_le_mul ha hb (abs_nonneg b) ((abs_nonneg a).trans ha)

/-- The product of two signed halves fits 32 bits (R415). -/
theorem toInt_half_product (v w : Word) (x y : Bool) :
    (BitVec.ofInt 32 (halfInt v x * halfInt w y)).toInt = (halfOf v x).toInt * (halfOf w y).toInt := by
  have h := abs_le.1 (abs_mul_le_of_le (abs_toInt_half_le v x) (abs_toInt_half_le w y))
  rw [halfInt_eq_toInt, halfInt_eq_toInt, BitVec.toInt_ofInt_eq_self] <;> omega

/-- Bits 47 to 16 of a number that fits 48 bits are its quotient by 2 to the 16. -/
theorem toInt_extract_top (p : BitVec 48) : (p.extractLsb' 16 32).toInt = p.toInt / 2 ^ 16 := by
  have hp := p.isLt
  rw [BitVec.toInt_eq_toNat_cond, BitVec.toInt_eq_toNat_cond, BitVec.extractLsb'_toNat, Nat.shiftRight_eq_div_pow]
  split <;> split <;> omega

/-- The top 32 of the 48 bits of a product of a word and a half (R416). -/
theorem toInt_mulWide (v w : Word) (top : Bool) :
    (mulWide v (halfInt w top)).toInt = v.toInt * (halfOf w top).toInt / 2 ^ 16 := by
  have h := abs_le.1 (abs_mul_le_of_le (abs_toInt_word_le v) (abs_toInt_half_le w top))
  rw [mulWide, toInt_extract_top, halfInt_eq_toInt, BitVec.toInt_ofInt_eq_self] <;> omega

end

/-- Settles O9: one shape of meaning, `completes_mulLongOp`, for five 64-bit values. -/
theorem longMultiply : Obligations.LongMultiply := by
  intro s cond sf y x rdHi rdLo rs rm h hHi hLo hs hm hne acc unsigned signed half gives
  have hgives {i : Instr} {sf : Bool} {p q : BitVec 64} (hp : p = q)
      (hi : exec i s = mulLongOp cond sf rdHi rdLo rs rm p s) : gives i sf q :=
    completes_mulLongOp h hHi hLo hs hm hne (hp ▸ hi)
  have humul : umul64 (s.reg rm) (s.reg rs) = unsigned := umul64_eq _ _
  have hsmul : smul64 (s.reg rm) (s.reg rs) = signed := smul64_eq _ _
  have hhalf : BitVec.ofInt 64 (halfInt (s.reg rm) x * halfInt (s.reg rs) y) = half (s.reg rm) x * half (s.reg rs) y :=
    ofInt_half_mul_half _ _ x y
  exact ⟨hgives humul (exec_umull ..), hgives (congrArg (· + acc) humul) (exec_umlal ..),
    hgives hsmul (exec_smull ..), hgives (congrArg (· + acc) hsmul) (exec_smlal ..),
    hgives ((BitVec.add_comm acc _).trans (congrArg (· + acc) hhalf)) (exec_smlalXY ..)⟩

end Sys2Proof.Machine

/-!
SUPPORT. The DSP instructions on one register (41_multiply_dsp.md R415 to R418, R425 to R429; 10_state.md R26): the
register is written, and Q is set where the exact value did not fit. Settles O10 and O11.
-/

namespace Sys2Proof.Machine
/-- A value clamped to the signed words (R425). -/
def clamp32 (v : Int) : Int := max (-2 ^ 31) (min (2 ^ 31 - 1) v)

/-- The second saturation of QDADD and QDSUB, on the clamped double; Q is set by either (R428, R429). -/
def addClamped (d : Word × Bool) (f : Int → Int) : Word × Bool :=
  ((signedSat32 (f d.1.toInt)).1, d.2 || (signedSat32 (f d.1.toInt)).2)

section

/-! ### The meanings, by their shapes (R415 to R418, R426 to R429) -/

section

variable (cond : BitVec 4) (y x : Bool) (rd rn rs rm : RegNum) (s : State)

theorem exec_smulXY : exec (.smulXY cond rd rs y x rm) s = regOp cond [rd, rs, rm]
    (fun s => s.setReg rd (BitVec.ofInt 32 (halfInt (s.reg rm) x * halfInt (s.reg rs) y))) s := rfl
theorem exec_smulWY : exec (.smulWY cond rd rs y rm) s = regOp cond [rd, rs, rm]
    (fun s => s.setReg rd (mulWide (s.reg rm) (halfInt (s.reg rs) y))) s := rfl
theorem exec_smlaXY : exec (.smlaXY cond rd rn rs y x rm) s = regOp cond [rd, rn, rs, rm]
    (fun s => s.setRegQ rd (wrapSum (halfInt (s.reg rm) x * halfInt (s.reg rs) y + (s.reg rn).toInt))) s := rfl
theorem exec_smlaWY : exec (.smlaWY cond rd rn rs y rm) s = regOp cond [rd, rn, rs, rm]
    (fun s => s.setRegQ rd (wrapSum ((mulWide (s.reg rm) (halfInt (s.reg rs) y)).toInt + (s.reg rn).toInt))) s := rfl

theorem exec_qadd : exec (.qadd cond rn rd rm) s = regOp cond [rn, rd, rm]
    (fun s => s.setRegQ rd (signedSat32 ((s.reg rm).toInt + (s.reg rn).toInt))) s := rfl
theorem exec_qsub : exec (.qsub cond rn rd rm) s = regOp cond [rn, rd, rm]
    (fun s => s.setRegQ rd (signedSat32 ((s.reg rm).toInt - (s.reg rn).toInt))) s := rfl
theorem exec_qdadd : exec (.qdadd cond rn rd rm) s = regOp cond [rn, rd, rm] (fun s => s.setRegQ rd
    (addClamped (signedSat32 (2 * (s.reg rn).toInt)) ((s.reg rm).toInt + ·))) s := rfl
theorem exec_qdsub : exec (.qdsub cond rn rd rm) s = regOp cond [rn, rd, rm] (fun s => s.setRegQ rd
    (addClamped (signedSat32 (2 * (s.reg rn).toInt)) ((s.reg rm).toInt - ·))) s := rfl

end

/-! ### A register written, and Q -/

variable {s : State} (q : Bool)

/-- Q is bit 27: every bit below it is as before. -/
theorem getLsbD_orQ {i : Nat} (hi : i < 27) : (s.orQ q).cpsr.getLsbD i = s.cpsr.getLsbD i := by
  have hbit : ∀ j < 27, (0x08000000#32).getLsbD j = false := by decide
  cases q
  · rfl
  · exact (BitVec.getLsbD_or ..).trans (by rw [hbit i hi, Bool.or_false])

@[simp] theorem thumb_orQ : (s.orQ q).thumb = s.thumb := getLsbD_orQ q (by decide)

@[simp] theorem instrBytes_orQ : (s.orQ q).instrBytes = s.instrBytes := by simp [State.instrBytes]

@[simp] theorem mode_orQ : (s.orQ q).mode = s.mode := by
  have h : (s.orQ q).cpsr.extractLsb' 0 5 = s.cpsr.extractLsb' 0 5 := by
    apply BitVec.eq_of_getLsbD_eq
    intro j hj
    simp only [BitVec.getLsbD_extractLsb', Nat.zero_add, getLsbD_orQ (s := s) q (i := j) (by omega)]
  simp only [State.mode, modeBits, h]

@[simp] theorem reg_orQ {r : RegNum} (hr : r ≠ 15#4) : (s.orQ q).reg r = s.reg r :=
  reg_congr _ _ r hr rfl (mode_orQ q)

variable {i : Instr} {cond : BitVec 4} {rd : RegNum} {used : List RegNum} {r : State → Word × Bool}

theorem completes_regOp_setRegQ (h : s.passes cond = true) (hd : rd ≠ 15#4) (hu : 15#4 ∉ used)
    (hi : exec i s = regOp cond used (fun s => s.setRegQ rd (r s)) s) :
    Completes i s fun t => t.reg rd = (r s).1 ∧ Advances s t ∧ Frame [rd] s t ∧
      t.cpsr = if (r s).2 then s.cpsr ||| 0x08000000#32 else s.cpsr := by
  have hframe : Frame [rd] s (s.setRegQ rd (r s)) := (frame_setReg s rd _).trans (by simp) (frame_orQ _ _)
  refine ⟨_, hi.trans (regOp_next h hu _), ?_, ?_, hframe.trans (by simp [State.setRegQ]) (frame_advance _), ?_⟩
  · rw [reg_advance _ _ hd, State.setRegQ, reg_orQ _ hd, reg_setReg_self s rd _ hd]
  · simp [Advances, State.setRegQ]
  · simp [State.setRegQ, State.orQ]

/-! ### Wrapped and clamped values -/

theorem wrapSum_value (v : Int) : (wrapSum v).1 = BitVec.ofInt 32 v := rfl

/-- A wrapped sum overflows exactly where it does not fit 32 signed bits (R417, R418). -/
theorem wrapSum_overflow_iff (v : Int) : (wrapSum v).2 = true ↔ v < -2 ^ 31 ∨ 2 ^ 31 ≤ v := by
  rw [wrapSum, decide_eq_true_iff]
  constructor
  · contrapose!
    exact fun ⟨hlo, hhi⟩ => BitVec.toInt_ofInt_eq_self (by decide) hlo hhi
  · intro hout heq
    have := toInt_bound (BitVec.ofInt 32 v)
    omega

/-- An accumulating instruction, which wraps (R417, R418). -/
theorem completes_wrapped {v : State → Int} (h : s.passes cond = true) (hd : rd ≠ 15#4) (hu : 15#4 ∉ used)
    (hi : exec i s = regOp cond used (fun s => s.setRegQ rd (wrapSum (v s))) s) :
    Completes i s fun t => t.reg rd = BitVec.ofInt 32 (v s) ∧ Advances s t ∧ Frame [rd] s t ∧
      t.cpsr = if v s < -2 ^ 31 ∨ 2 ^ 31 ≤ v s then s.cpsr ||| 0x08000000#32 else s.cpsr := by
  simpa only [wrapSum_value, wrapSum_overflow_iff] using completes_regOp_setRegQ h hd hu hi

theorem signedSat32_spec (v : Int) :
    (signedSat32 v).1.toInt = clamp32 v ∧ ((signedSat32 v).2 = true ↔ clamp32 v ≠ v) := by
  unfold signedSat32 clamp32
  split
  next hover =>
    rw [show (0x7FFFFFFF#32).toInt = 2 ^ 31 - 1 from rfl, eq_self_iff_true, true_iff]
    omega
  next hover =>
    split
    next hunder =>
      rw [show (0x80000000#32).toInt = -2 ^ 31 from rfl, eq_self_iff_true, true_iff]
      omega
    next hunder =>
      have hfits : max (-2 ^ 31) (min (2 ^ 31 - 1) v) = v := by omega
      have hvalue : (BitVec.ofInt 32 v).toInt = v := BitVec.toInt_ofInt_eq_self (by decide) (by omega) (by omega)
      simp only [hfits, hvalue, ne_eq, not_true_eq_false, Bool.false_eq_true, iff_self, and_self]

theorem toInt_signedSat32 (v : Int) : (signedSat32 v).1.toInt = clamp32 v := (signedSat32_spec v).1

theorem signedSat32_saturated (v : Int) : (signedSat32 v).2 = true ↔ clamp32 v ≠ v := (signedSat32_spec v).2

theorem toInt_addClamped (v : Int) (f : Int → Int) :
    (addClamped (signedSat32 v) f).1.toInt = clamp32 (f (clamp32 v)) := by
  rw [addClamped, toInt_signedSat32, toInt_signedSat32]

theorem addClamped_saturated (v : Int) (f : Int → Int) :
    (addClamped (signedSat32 v) f).2 = true ↔ clamp32 v ≠ v ∨ clamp32 (f (clamp32 v)) ≠ f (clamp32 v) := by
  rw [addClamped, toInt_signedSat32, Bool.or_eq_true, signedSat32_saturated, signedSat32_saturated]

/-- A saturating instruction, whose doubled operand may have been clamped before (R428, R429). -/
theorem completes_saturated {v : Int} {before : Prop} (h : s.passes cond = true) (hd : rd ≠ 15#4) (hu : 15#4 ∉ used)
    (hi : exec i s = regOp cond used (fun s => s.setRegQ rd (r s)) s) (hv : (r s).1.toInt = clamp32 v)
    (hq : (r s).2 = true ↔ before ∨ clamp32 v ≠ v) :
    Completes i s fun t => (t.reg rd).toInt = clamp32 v ∧ Advances s t ∧ Frame [rd] s t ∧
      (before ∨ clamp32 v ≠ v → t.cpsr = s.cpsr ||| 0x08000000#32) ∧ (¬ (before ∨ clamp32 v ≠ v) → FlagsKept s t) :=
  (completes_regOp_setRegQ h hd hu hi).mono fun _ ⟨hreg, hpc, hframe, hcpsr⟩ =>
    ⟨hreg ▸ hv, hpc, hframe, fun hs => hcpsr.trans (if_pos (hq.2 hs)), fun hs => hcpsr.trans (if_neg (hs ∘ hq.1))⟩

end

/-- Settles O10: the products fit a word, and only the sums may set Q. -/
theorem halfwordMultiply : Obligations.HalfwordMultiply := by
  intro s cond y x rd rn rs rm h hd hs hm half product wide
  have hproduct := toInt_half_product (s.reg rm) (s.reg rs) x y
  have hwide := toInt_mulWide (s.reg rm) (s.reg rs) y
  have hu : 15#4 ∉ [rd, rs, rm] := by simp [hd.symm, hs.symm, hm.symm]
  refine ⟨?_, ?_, fun hn => ?_⟩
  · exact (completes_regOp_setReg h hd hu (exec_smulXY ..)).mono fun _ ⟨hreg, hrest⟩ => ⟨hreg ▸ hproduct, hrest⟩
  · exact (completes_regOp_setReg h hd hu (exec_smulWY ..)).mono fun _ ⟨hreg, hrest⟩ => ⟨hreg ▸ hwide, hrest⟩
  · have hu' : 15#4 ∉ [rd, rn, rs, rm] := by simp [hd.symm, hn.symm, hs.symm, hm.symm]
    intro sums
    have hsums {i : Instr} {p : State → Int} {q : Int}
        (hi : exec i s = regOp cond [rd, rn, rs, rm] (fun s => s.setRegQ rd (wrapSum (p s + (s.reg rn).toInt))) s)
        (hp : p s = q) : sums i q := hp ▸ completes_wrapped h hd hu' hi
    exact ⟨hsums (exec_smlaXY ..) (by rw [halfInt_eq_toInt, halfInt_eq_toInt]; rfl), hsums (exec_smlaWY ..) hwide⟩

/-- Settles O11: the doubling forms saturate twice, and either saturation sets Q. -/
theorem saturatingArithmetic : Obligations.SaturatingArithmetic := by
  intro s cond rn rd rm h hn hd hm clamp m n gives
  have hu : 15#4 ∉ [rn, rd, rm] := by simp [hn.symm, hd.symm, hm.symm]
  have once {i : Instr} {v : State → Int}
      (hi : exec i s = regOp cond [rn, rd, rm] (fun s => s.setRegQ rd (signedSat32 (v s))) s) : gives i (v s) False :=
    completes_saturated h hd hu hi (toInt_signedSat32 _) (by rw [signedSat32_saturated, false_or])
  have twice {i : Instr} {f : State → Int → Int}
      (hi : exec i s = regOp cond [rn, rd, rm]
        (fun s => s.setRegQ rd (addClamped (signedSat32 (2 * (s.reg rn).toInt)) (f s))) s) :
      gives i (f s (clamp (2 * n))) (clamp (2 * n) ≠ 2 * n) :=
    completes_saturated h hd hu hi (toInt_addClamped _ _) (addClamped_saturated _ _)
  exact ⟨once (exec_qadd ..), once (exec_qsub ..), twice (exec_qdadd ..), twice (exec_qdsub ..)⟩

end Sys2Proof.Machine

/-!
SUPPORT. Loads and stores of one register where data accesses are plain (42_load_store.md R440 to R463; 20_memory.md
R131): the access, the write-back, the loaded register. Settles O12 and O13.
-/

namespace Sys2Proof.Machine
section

variable {s : State} {cond : BitVec 4} {rn rd : RegNum} {am : Mode2} {off : Offset2} {off3 : Offset3} {p u w : Bool}
  {ad : Address} {i : Instr} {n : Nat} {priv : Bool}

/-! ### What a transfer that is not refused may use -/

theorem when_orRefuse_of_none (h : s.passes cond = true) {o : Option Refusal} (ho : o = none) (b : Result) :
    s.when cond (orRefuse o b) = b := by rw [when_pass h, ho]; rfl

theorem rdRefusal_of_ne (h : rd ≠ 15#4) (o : Option Refusal) : rdRefusal rd o = o := if_neg h

/-- The base of a transfer with write-back is neither R15 nor the register that is transferred. -/
def BaseFree (rn rd : RegNum) (ad : Address) : Prop := ad.writes = true → rn ≠ 15#4 ∧ rn ≠ rd

theorem baseFree_mode2 (h : transferRefusal rn rd (mode2Rm am) (mode2Writes am) = none) :
    BaseFree rn rd (s.mode2 rn am) := fun hw => transferRefusal_none h (mode2_writes s rn am ▸ hw)

theorem baseFree_userMode2 (h : transferRefusal rn rd (offset2Rm off) true = none) :
    BaseFree rn rd (s.userMode2 rn off) := fun _ => transferRefusal_none h rfl

theorem mode3Refusal_none (h : mode3Refusal p w rn rd off3 = none) :
    rd ≠ 15#4 ∧ transferRefusal rn rd (offset3Rm off3) (!p || w) = none := by
  unfold mode3Refusal at h
  split at h
  · cases h
  · unfold rdRefusal at h
    split at h
    · cases h
    · exact ⟨‹_›, h⟩

theorem baseFree_mode3 (h : mode3Refusal p w rn rd off3 = none) : BaseFree rn rd (s.mode3 p u w rn off3) :=
  transferRefusal_none (mode3Refusal_none h).2

/-! ### The two shapes of meaning -/

/-- A load of one register that the access answers. -/
theorem completes_loadReg {read : Word → Exec Word} {v : Word} {t : State}
    (hi : exec i s = loadReg rn rd ad read s) (hread : read ad.at_ s = .ok v t) (hdata : DataOnly s t)
    (hrd : rd ≠ 15#4) (hbase : BaseFree rn rd ad) :
    Completes i s fun t' => DiffersInRegs t t' ∧ t'.reg rd = v ∧ Transferred rn ad (rd :: ad.base rn) s t' := by
  refine ⟨_, hi.trans (runThen_ok hread), ((differsInRegs_updateBase t rn ad).setReg rd v).advance, ?_,
    hdata.transferred (transferred_load t v hbase)⟩
  rw [reg_advance _ _ hrd, reg_setReg_self _ _ _ hrd]

/-- A store whose access is done. -/
theorem completes_storeReg {write : Word → Exec Unit} {t : State}
    (hi : exec i s = storeReg rn ad write s) (hwrite : write ad.at_ s = .ok () t) (hdata : DataOnly s t)
    (hbase : ad.writes = true → rn ≠ 15#4) :
    Completes i s fun t' => DiffersInRegs t t' ∧ Transferred rn ad (ad.base rn) s t' :=
  ⟨_, hi.trans (runThen_ok hwrite), (differsInRegs_updateBase t rn ad).advance,
    hdata.transferred (transferred_updateBase t hbase)⟩

/-- What O12 says of a load of n bytes: the register holds this value, and the rest is as a transfer leaves it. -/
def LoadsRegister (s : State) (i : Instr) (rn rd : RegNum) (ad : Address) (n : Nat) (v : Word) : Prop :=
  s.alignedFor ad.at_ n = true →
    Completes i s fun t => t.reg rd = v ∧ BaseIs rn ad t ∧ Advances s t ∧ FlagsKept s t ∧ Frame (rd :: ad.base rn) s t

/-- What O13 says of a store of n bytes of Rd. -/
def StoresRegister (s : State) (i : Instr) (rn rd : RegNum) (ad : Address) (n : Nat) : Prop :=
  s.alignedFor ad.at_ n = true →
    Completes i s fun t => Stored ad.at_ n (s.reg rd) s t ∧ BaseIs rn ad t ∧ Advances s t ∧ FlagsKept s t ∧
      RegsKept (ad.base rn) s t ∧ RestKeptButMemory s t

/-- Where accesses are plain a load makes its value of the bytes of its lanes. -/
theorem loadsRegister_plain {f : Word → List Byte → Word} {v : Word} (h : s.plainData = true) (hrd : rd ≠ 15#4)
    (hbase : BaseFree rn rd ad) (hi : exec i s = loadReg rn rd ad (fun a => memReadAs (f a) a n priv) s)
    (hv : f ad.at_ ((s.lanes ad.at_ n).map s.dataByte) = v) : LoadsRegister s i rn rd ad n v := by
  intro ha
  refine (completes_loadReg hi (memReadAs_plain h ha priv (f ad.at_)) (dataOnly_noteAccess s true) hrd hbase).mono ?_
  rintro t ⟨⟨gpr, pc, rfl⟩, hreg, ht⟩
  exact ⟨hreg.trans hv, ht.base, ht.pc, ht.flags, .of ht.regs rfl⟩

/-- Where accesses are plain a store leaves the low bytes of its register in its lanes. -/
theorem storesRegister_plain (h : s.plainData = true) (hbase : BaseFree rn rd ad) (hn : n ≤ 4)
    (hi : exec i s = storeReg rn ad (fun a => memWrite a n priv (s.reg rd)) s) : StoresRegister s i rn rd ad n := by
  intro ha
  have hwrite := memWrite_plain h ha priv (s.reg rd)
  refine (completes_storeReg hi hwrite ((memWrite_dataOnly _ _ _ _).ok hwrite) fun hw => (hbase hw).1).mono ?_
  rintro t ⟨⟨gpr, pc, rfl⟩, ht⟩
  have hbuffer : s.writeBuffer = [] := by
    obtain ⟨-, -, -, hbuffer, -⟩ := plainData_iff.1 h
    exact hbuffer
  exact ⟨stored_plain h _ hn _ rfl hbuffer, ht.base, ht.pc, ht.flags, ht.regs, rfl⟩

/-! ### The values that the loads make of their bytes (20_memory.md R131) -/

theorem toNat_low2 (a : Word) : (a.extractLsb' 0 2).toNat = a.toNat % 4 := by simp

/-- The rotation of a word is by the bytes that its address is off. -/
theorem rotateLoaded_eq (a v : Word) : rotateLoaded a v = v.rotateRight (8 * (a.toNat % 4)) := by
  rw [rotateLoaded, toNat_low2]

theorem truncate_eq_extract (v : Word) (k : Nat) : v.truncate k = v.extractLsb' 0 k :=
  BitVec.eq_of_getLsbD_eq fun i hi => by simp [hi]

theorem wordOf_two (x y : Byte) : wordOf [x, y] = (y ++ x).setWidth 32 := by
  have happend : (y ++ x).setWidth 32 = 0#16 ++ (y ++ x) := BitVec.setWidth_eq_append (by decide)
  rw [happend]
  simp only [wordOf, List.getD_cons_succ, List.getD_cons_zero, List.getD_nil]
  exact BitVec.append_assoc

/-- A halfword has no byte above its two. -/
theorem loaded_half (s : State) (a : Word) : ((s.loaded a 2).truncate 16).zeroExtend 32 = s.loaded a 2 := by
  have hbytes : s.loaded a 2 =
      wordOf [s.dataByte (laneAddr (s.plainLane a 2) 0), s.dataByte (laneAddr (s.plainLane a 2) 1)] := rfl
  rw [hbytes, wordOf_two]
  simp

theorem signedOf_byte (bs : List Byte) : signedOf 1 bs = ((wordOf bs).truncate 8).signExtend 32 := by
  rw [truncate_eq_extract]
  rfl

theorem signedOf_half (bs : List Byte) : signedOf 2 bs = ((wordOf bs).truncate 16).signExtend 32 := by
  rw [truncate_eq_extract]
  rfl

end

/-- Settles O12: every load is one shape of meaning (`loadsRegister_plain`), and they differ in the value that they make
of the bytes. -/
theorem loadRegister : Obligations.LoadRegister := by
  intro s cond p u w rn rd am off off3 h hp hrd loads word ad adT ad3
  have hdebug : s.inDebug = false := by
    obtain ⟨-, -, -, -, -, -, -, -, hdebug⟩ := plainData_iff.1 h
    exact hdebug
  refine ⟨fun hr => ⟨?_, ?_⟩, fun hr => ⟨?_, ?_⟩, fun hr => ⟨?_, ?_, ?_⟩⟩
  · refine loadsRegister_plain (f := fun a bs => rotateLoaded a (wordOf bs)) (priv := s.privileged) h hrd
      (baseFree_mode2 hr) ?_ (rotateLoaded_eq _ _)
    refine (when_orRefuse_of_none hp hr _).trans ?_
    rw [hdebug, if_neg hrd]
    rfl
  · exact loadsRegister_plain (f := fun _ => wordOf) h hrd (baseFree_mode2 hr)
      (when_orRefuse_of_none hp ((rdRefusal_of_ne hrd _).trans hr) _) rfl
  · exact loadsRegister_plain (f := fun a bs => rotateLoaded a (wordOf bs)) h hrd (baseFree_userMode2 hr)
      (when_orRefuse_of_none hp ((rdRefusal_of_ne hrd _).trans hr) _) (rotateLoaded_eq _ _)
  · exact loadsRegister_plain (f := fun _ => wordOf) h hrd (baseFree_userMode2 hr)
      (when_orRefuse_of_none hp ((rdRefusal_of_ne hrd _).trans hr) _) rfl
  · exact loadsRegister_plain (f := fun _ => wordOf) h hrd (baseFree_mode3 hr) (when_orRefuse_of_none hp hr _)
      (loaded_half s _).symm
  · exact loadsRegister_plain (f := fun _ => signedOf 1) h hrd (baseFree_mode3 hr) (when_orRefuse_of_none hp hr _)
      (signedOf_byte _)
  · exact loadsRegister_plain (f := fun _ => signedOf 2) h hrd (baseFree_mode3 hr) (when_orRefuse_of_none hp hr _)
      (signedOf_half _)

/-- Settles O13: every store is one shape of meaning (`storesRegister_plain`). -/
theorem storeSingle : Obligations.StoreSingle := by
  intro s cond p u w rn rd am off off3 h hp stores
  refine ⟨fun hr => ⟨?_, fun hrd => ?_⟩, fun hrd hr => ⟨?_, ?_⟩, fun hr => ?_⟩
  · exact storesRegister_plain h (baseFree_mode2 hr) le_rfl (when_orRefuse_of_none hp hr _)
  · exact storesRegister_plain h (baseFree_mode2 hr) (by decide)
      (when_orRefuse_of_none hp ((rdRefusal_of_ne hrd _).trans hr) _)
  · exact storesRegister_plain h (baseFree_userMode2 hr) le_rfl
      (when_orRefuse_of_none hp ((rdRefusal_of_ne hrd _).trans hr) _)
  · exact storesRegister_plain h (baseFree_userMode2 hr) (by decide)
      (when_orRefuse_of_none hp ((rdRefusal_of_ne hrd _).trans hr) _)
  · exact storesRegister_plain h (baseFree_mode3 hr) (by decide) (when_orRefuse_of_none hp hr _)

end Sys2Proof.Machine

/-!
SUPPORT. Words loaded and stored in turn where data accesses are plain (20_memory.md R155): what is loaded, what memory
holds after the stores, and the registers of a list that are written.
-/

namespace Sys2Proof.Machine
section

variable {s t u : State} {a x : Word} {priv : Bool}

/-! ### Words from rising addresses -/

theorem alignedFor_next (h : s.alignedFor a 4 = true) : s.alignedFor (a + 4#32) 4 = true := by
  have hlow : (a + 4#32).extractLsb' 0 2 = a.extractLsb' 0 2 := by
    apply BitVec.eq_of_toNat_eq
    rw [toNat_low2, toNat_low2, BitVec.toNat_add, BitVec.toNat_ofNat]
    omega
  rwa [State.alignedFor, hlow]

/-- Word j + 1 from an address on is word j from the next address on. -/
theorem wordAddress_succ (a : Word) (j : Nat) :
    a + BitVec.ofNat 32 (4 * (j + 1)) = a + 4#32 + BitVec.ofNat 32 (4 * j) := by
  rw [BitVec.add_assoc, ← BitVec.ofNat_add, Nat.add_comm 4, Nat.mul_succ]

/-- Registers with the words that rising addresses hold for them (42_load_store.md R470). -/
def State.loadedWords (s : State) (rs : List RegNum) (a : Word) : List (RegNum × Word) :=
  rs.mapIdx fun j r => (r, s.loaded (a + BitVec.ofNat 32 (4 * j)) 4)

theorem loadedWords_cons (s : State) (r : RegNum) (rs : List RegNum) (a : Word) :
    s.loadedWords (r :: rs) a = (r, s.loaded a 4) :: s.loadedWords rs (a + 4#32) := by
  simp only [State.loadedWords, List.mapIdx_cons, wordAddress_succ, Nat.mul_zero, BitVec.add_zero]

theorem loadedWords_concat (s : State) (rs : List RegNum) (r : RegNum) (a : Word) :
    s.loadedWords (rs ++ [r]) a =
      s.loadedWords rs a ++ [(r, s.loaded (a + BitVec.ofNat 32 (4 * rs.length)) 4)] := List.mapIdx_concat

theorem map_fst_loadedWords (s : State) (rs : List RegNum) (a : Word) : (s.loadedWords rs a).map Prod.fst = rs := by
  induction rs generalizing a with
  | nil => rfl
  | cons r rs ih => rw [loadedWords_cons, List.map_cons, ih]

theorem fst_mem_of_mem_loadedWords {rs : List RegNum} {p : RegNum × Word} (h : p ∈ s.loadedWords rs a) : p.1 ∈ rs := by
  rw [← map_fst_loadedWords s rs a]
  exact List.mem_map_of_mem h

theorem mem_loadedWords {rs : List RegNum} {j : Nat} {r : RegNum} (h : rs[j]? = some r) (s : State) (a : Word) :
    (r, s.loaded (a + BitVec.ofNat 32 (4 * j)) 4) ∈ s.loadedWords rs a :=
  List.mem_of_getElem? (by rw [State.loadedWords, List.getElem?_mapIdx, h, Option.map_some])

/-- Loads that nothing intercepts: the words, and notes of the accesses. -/
theorem loadWords_plain (h : s.plainData = true) (ha : s.alignedFor a 4 = true) (priv : Bool) (rs : List RegNum) :
    ∃ notes, loadWords priv rs a s = .ok (s.loadedWords rs a, none) { s with scratch := notes } := by
  induction rs generalizing s a with
  | nil => exact ⟨s.scratch, rfl⟩
  | cons r rs ih =>
    obtain ⟨-, -, -, -, -, hbetween, -⟩ := plainData_iff.1 h
    have hgap : (s.noteAccess true).gap (!rs.isEmpty) = s.noteAccess true :=
      gap_plain (by exact hbetween) _
    obtain ⟨notes, hrest⟩ := ih (s := s.noteAccess true) h (alignedFor_next ha)
    refine ⟨notes, ?_⟩
    rw [loadedWords_cons]
    simp only [loadWords, memReadRaw_plain h ha priv wordOf, hgap, hrest]
    rfl

/-! ### Words to rising addresses -/

theorem and_wordMask_toNat (a : Word) : (a &&& 0xFFFFFFFC#32).toNat = a.toNat / 4 * 4 := by
  have hshift : a &&& 0xFFFFFFFC#32 = a >>> 2 <<< 2 := (BitVec.shiftLeft_ushiftRight (x := a) (n := 2)).symm
  have ha := a.isLt
  rw [hshift, BitVec.toNat_shiftLeft, BitVec.toNat_ushiftRight, Nat.shiftRight_eq_div_pow, Nat.shiftLeft_eq]
  omega

/-- The lanes of a word are the four bytes of its aligned address. -/
theorem mem_lanes_word {va : Word} {b : Nat} : b ∈ s.lanes va 4 ↔ b / 4 = (s.mva va).toNat / 4 := by
  have hlane (i : Nat) (hi : i < 4) : laneAddr (s.plainLane va 4) i = (s.mva va).toNat / 4 * 4 + i := by
    have hm := (s.mva va).isLt
    rw [State.plainLane, laneOf_word, if_pos rfl, laneAddr, and_wordMask_toNat]
    omega
  simp only [lanes_eq, List.mem_map, List.mem_range]
  constructor
  · rintro ⟨i, hi, rfl⟩
    rw [hlane i hi]
    omega
  · intro hb
    refine ⟨b % 4, Nat.mod_lt _ (by decide), ?_⟩
    rw [hlane _ (Nat.mod_lt _ (by decide))]
    omega

theorem wordOf_bytesOf (v : Word) : wordOf (bytesOf v 4) = v := by
  have hjoin : v.extractLsb' 24 8 ++ v.extractLsb' 16 8 ++ v.extractLsb' 8 8 ++ v.extractLsb' 0 8 =
      v.extractLsb' 0 32 := by
    rw [BitVec.extractLsb'_append_extractLsb'_eq_extractLsb' (by decide),
      BitVec.extractLsb'_append_extractLsb'_eq_extractLsb' (by decide),
      BitVec.extractLsb'_append_extractLsb'_eq_extractLsb' (by decide)]
  exact hjoin.trans (BitVec.extractLsb'_eq_self)

/-- A word that was stored is the word that its lanes hold. -/
theorem loadedIn_of_stored {v : Word} (h : Stored a 4 v s t) : s.loadedIn t a 4 = v := by
  obtain ⟨hbytes, -, -⟩ := h
  have hmap : (s.lanes a 4).map t.dataByte = bytesOf v 4 := by
    apply List.ext_getElem
    · simp [State.lanes, bytesOf]
    · intro i hi _
      have hi4 : i < 4 := by simpa [State.lanes] using hi
      have hb := hbytes i hi4
      simpa [bytesOf, List.getD_eq_getElem?_getD, State.lanes, hi4] using hb
  rw [State.loadedIn, hmap, wordOf_bytesOf]

/-- Words from an address on lie in different words of memory. -/
def WordsApart (s : State) (a : Word) (n : Nat) : Prop :=
  ∀ i j, i < j → j < n →
    (s.mva (a + BitVec.ofNat 32 (4 * i))).toNat / 4 ≠ (s.mva (a + BitVec.ofNat 32 (4 * j))).toNat / 4

/-- Words were stored from an address on; every other byte reads as before, and memory keeps its canonical form. -/
structure WordsStored (a : Word) (vs : List Word) (s t : State) : Prop where
  words : ∀ j v, vs[j]? = some v → s.loadedIn t (a + BitVec.ofNat 32 (4 * j)) 4 = v
  others : ∀ b, (∀ j, j < vs.length → b ∉ s.lanes (a + BitVec.ofNat 32 (4 * j)) 4) → t.dataByte b = s.dataByte b
  wf : Memory.wf t.mem = true

theorem WordsStored.nil (h : Memory.wf s.mem = true) (a : Word) : WordsStored a [] s s :=
  ⟨fun _ _ hv => (by cases hv), fun _ _ => rfl, h⟩

/-- One word stored, then the others from the next address on. -/
theorem WordsStored.cons {v : Word} {vs : List Word} (hlanes : ∀ va, u.lanes va 4 = s.lanes va 4)
    (hapart : WordsApart s a (vs.length + 1)) (hfirst : Stored a 4 v s u) (hrest : WordsStored (a + 4#32) vs u t) :
    WordsStored a (v :: vs) s t := by
  have hothers (b : Nat) (hb : ∀ j, j < vs.length → b ∉ s.lanes (a + BitVec.ofNat 32 (4 * (j + 1))) 4) :
      t.dataByte b = u.dataByte b := hrest.others b fun j hj => by
    rw [hlanes, ← wordAddress_succ]
    exact hb j hj
  refine ⟨fun j w hw => ?_, fun b hb => ?_, hrest.wf⟩
  · cases j with
    | zero =>
      obtain rfl := Option.some.inj hw
      have hkept : (s.lanes a 4).map t.dataByte = (s.lanes a 4).map u.dataByte :=
        List.map_congr_left fun b hb => hothers b fun j hj hb' => by
          have hne := hapart 0 (j + 1) (Nat.succ_pos j) (Nat.succ_lt_succ hj)
          rw [mem_lanes_word] at hb hb'
          rw [Nat.mul_zero, BitVec.add_zero] at hne
          exact hne (hb.symm.trans hb')
      rw [Nat.mul_zero, BitVec.add_zero, State.loadedIn, hkept]
      exact loadedIn_of_stored hfirst
    | succ j =>
      have hword := hrest.words j w hw
      rwa [State.loadedIn, hlanes, ← wordAddress_succ] at hword
  · obtain ⟨-, hkept, -⟩ := hfirst
    have hb0 := hb 0 (Nat.succ_pos _)
    rw [Nat.mul_zero, BitVec.add_zero] at hb0
    exact (hothers b fun j hj => hb (j + 1) (Nat.succ_lt_succ hj)).trans (hkept b hb0)

theorem WordsApart.next {n : Nat} (h : WordsApart s a (n + 1)) : WordsApart s (a + 4#32) n := fun i j hij hj => by
  rw [← wordAddress_succ, ← wordAddress_succ]
  exact h (i + 1) (j + 1) (Nat.succ_lt_succ hij) (Nat.succ_lt_succ hj)

/-- Only memory and the model's notes about it and about the step differ. -/
def OnlyStored (s t : State) : Prop := ∃ m notes mods, t = { s with mem := m, scratch := notes, modified := mods }

theorem OnlyStored.refl (s : State) : OnlyStored s s := ⟨s.mem, s.scratch, s.modified, rfl⟩

theorem OnlyStored.trans (h : OnlyStored s u) (h' : OnlyStored u t) : OnlyStored s t := by
  obtain ⟨_, _, _, rfl⟩ := h
  obtain ⟨m, notes, mods, rfl⟩ := h'
  exact ⟨m, notes, mods, rfl⟩

/-- Plain accesses stay plain whatever memory holds, in its canonical form. -/
theorem OnlyStored.plainData (h : OnlyStored s u) (hwf : Memory.wf u.mem = true) (hs : s.plainData = true) :
    u.plainData = true := by
  obtain ⟨m, notes, mods, rfl⟩ := h
  obtain ⟨hmmu, hmain, hmini, hbuffer, hmap, hbetween, -, hoff, hdebug⟩ := plainData_iff.1 hs
  exact plainData_iff.2 ⟨hmmu, hmain, hmini, hbuffer, hmap, hbetween, hwf, hoff, hdebug⟩

/-- Addresses are as before: the PID, the byte order and the alignment check stand. -/
theorem OnlyStored.addresses (h : OnlyStored s u) : (∀ va, u.lanes va 4 = s.lanes va 4) ∧
    (∀ va, u.mva va = s.mva va) ∧ ∀ va, u.alignedFor va 4 = s.alignedFor va 4 := by
  obtain ⟨m, notes, mods, rfl⟩ := h
  exact ⟨fun _ => rfl, fun _ => rfl, fun _ => rfl⟩

theorem WordsApart.congr {n : Nat} (h : WordsApart s a n) (hmva : ∀ va, u.mva va = s.mva va) : WordsApart u a n :=
  fun i j hij hj => by
    rw [hmva, hmva]
    exact h i j hij hj

theorem refuseAbortInSds_ok {α : Type} {f : Exec α} {v : α} (h : f s = .ok v t) : refuseAbortInSds f s = .ok v t := by
  rw [refuseAbortInSds, h]

/-- A word stored where nothing intercepts it. -/
theorem memWriteRaw_stores (h : s.plainData = true) (ha : s.alignedFor a 4 = true) (priv : Bool) (v : Word) :
    ∃ u, memWriteRaw a 4 priv v s = .ok () u ∧ OnlyStored s u ∧ Stored a 4 v s u := by
  obtain ⟨-, -, -, hbuffer, -⟩ := plainData_iff.1 h
  exact ⟨_, memWriteRaw_plain h ha priv v, ⟨_, _, _, rfl⟩, stored_plain h a le_rfl v rfl hbuffer⟩

/-- Stores that nothing intercepts. -/
theorem storeWords_plain (h : s.plainData = true) (ha : s.alignedFor a 4 = true) (priv : Bool) (vs : List Word)
    (hapart : WordsApart s a vs.length) :
    ∃ t, storeWords priv vs a s = .ok () t ∧ OnlyStored s t ∧ WordsStored a vs s t := by
  induction vs generalizing s a with
  | nil =>
    obtain ⟨-, -, -, -, -, -, hwf, -⟩ := plainData_iff.1 h
    exact ⟨s, rfl, .refl s, .nil hwf a⟩
  | cons v vs ih =>
    obtain ⟨u, hwrite, honly, hfirst⟩ := memWriteRaw_stores h ha priv v
    have hwf : Memory.wf u.mem = true := hfirst.2.2
    obtain ⟨hlanes, hmva, halign⟩ := honly.addresses
    have hu := honly.plainData hwf h
    obtain ⟨t, hrest, honly', hstored⟩ :=
      ih hu (alignedFor_next ((halign a).trans ha)) (hapart.next.congr hmva)
    obtain ⟨-, -, -, -, -, hbetween, -⟩ := plainData_iff.1 hu
    refine ⟨t, ?_, honly.trans honly', .cons hlanes hapart hfirst hstored⟩
    rw [storeWords, bind_apply_of_ok (refuseAbortInSds_ok hwrite), modify_bind_apply, gap_plain hbetween]
    exact hrest

/-- What is stated of the words that were stored. -/
theorem WordsStored.storedWords {vs : List Word} {ws : List (Word × Option Word)} (h : WordsStored a vs s t)
    (hlen : ws.length = vs.length)
    (hws : ∀ j p, ws[j]? = some p → p.1 = a + BitVec.ofNat 32 (4 * j) ∧ ∀ v, p.2 = some v → vs[j]? = some v) :
    StoredWords ws s t := by
  refine ⟨fun p hp v hv => ?_, fun b hb => h.others b fun j hj => ?_, h.wf⟩
  · obtain ⟨j, hj⟩ := List.mem_iff_getElem?.1 hp
    obtain ⟨haddress, hvalue⟩ := hws j p hj
    rw [haddress]
    exact h.words j v (hvalue v hv)
  · have hj' : ws[j]? = some ws[j] := List.getElem?_eq_getElem (hlen ▸ hj)
    obtain ⟨haddress, -⟩ := hws j _ hj'
    rw [← haddress]
    exact hb _ (List.mem_of_getElem? hj')

/-! ### The registers of a list -/

/-- Registers of a bank written in turn. -/
def State.setBankRegs (s : State) (m : Mode) (vs : List (RegNum × Word)) : State :=
  vs.foldl (fun s p => s.setBankReg m p.1 p.2) s

theorem setBankRegs_eq (s : State) (m : Mode) (vs : List (RegNum × Word)) :
    ∃ g, s.setBankRegs m vs = { s with gpr := g } := by
  induction vs generalizing s with
  | nil => exact ⟨s.gpr, rfl⟩
  | cons p vs ih => exact ih (s.setBankReg m p.1 p.2)

theorem gpr_setBankRegs_of_ne {m : Mode} {vs : List (RegNum × Word)} {i : Fin 32}
    (h : ∀ p ∈ vs, regIndex m p.1 ≠ i) : (s.setBankRegs m vs).gpr[i.val] = s.gpr[i.val] := by
  induction vs generalizing s with
  | nil => rfl
  | cons p vs ih =>
    rw [List.forall_mem_cons] at h
    refine (ih (s := s.setBankReg m p.1 p.2) h.2).trans ?_
    rw [gpr_setBankReg, if_neg h.1]

/-- A register of the list holds its word, as no later one of the list is it. -/
theorem bankReg_setBankRegs {m : Mode} {vs : List (RegNum × Word)} {r : RegNum} {v : Word}
    (hdistinct : (vs.map Prod.fst).Nodup) (h15 : ∀ p ∈ vs, p.1 ≠ 15#4) (hv : (r, v) ∈ vs) :
    (s.setBankRegs m vs).bankReg m r = v := by
  induction vs generalizing s with
  | nil => cases hv
  | cons p vs ih =>
    rw [List.map_cons, List.nodup_cons] at hdistinct
    obtain ⟨hp15, hvs15⟩ := List.forall_mem_cons.1 h15
    rcases List.mem_cons.1 hv with rfl | hv
    · refine (gpr_setBankRegs_of_ne (s := s.setBankReg m r v) fun q hq e => hdistinct.1 ?_).trans
        (bankReg_setBankReg_self s m r v)
      have hname : q.1 = r := regIndex_inj m q.1 r (hvs15 q hq) hp15 e
      have hmem : q.1 ∈ vs.map Prod.fst := List.mem_map_of_mem hq
      rwa [hname] at hmem
    · exact ih hdistinct.2 hvs15 hv

theorem setRegs_eq_setBankRegs {vs : List (RegNum × Word)} (h15 : ∀ p ∈ vs, p.1 ≠ 15#4) (s : State) :
    s.setRegs vs = s.setBankRegs s.mode vs := by
  induction vs generalizing s with
  | nil => rfl
  | cons p vs ih =>
    obtain ⟨hp15, hvs15⟩ := List.forall_mem_cons.1 h15
    have hset : s.setReg p.1 p.2 = s.setBankReg s.mode p.1 p.2 := if_neg hp15
    calc s.setRegs (p :: vs) = (s.setReg p.1 p.2).setRegs vs := rfl
      _ = (s.setReg p.1 p.2).setBankRegs s.mode vs := by rw [ih hvs15, mode_setReg]
      _ = s.setBankRegs s.mode (p :: vs) := by rw [hset]; rfl

/-- A word loaded for R15 writes no register. -/
theorem setRegs_pc (s : State) (vs : List (RegNum × Word)) (v : Word) :
    s.setRegs (vs ++ [(15#4, v)]) = s.setRegs vs := List.foldl_append

end
end Sys2Proof.Machine

/-!
SUPPORT. LDRD and STRD (42_load_store.md R464, R465): the two words, the entry of Undefined Instruction for an odd Rd,
and the alignment fault off 8 bytes. Settles O14.
-/

namespace Sys2Proof.Machine
section

variable {α : Type} {s t u : State} {cond : BitVec 4} {rn rd : RegNum} {off : Offset3} {p w : Bool} (up : Bool)
  {ad : Address} {a mva mask code : Word} {i : Instr}

/-! ### Undefined Instruction (60_exceptions.md R880 to R883) -/

/-- Outside Special Debug State and with debugging off, Undefined Instruction enters its mode. -/
theorem entered_undefinedInstr (h : s.noDebug = true) :
    ∃ t, undefinedInstr s = .next t ∧ Entered .und 4#32 (s.pc + s.instrBytes) false s t := by
  have hoff : s.debugOn = false := (by simpa [State.noDebug] using h : _ ∧ _).1
  refine ⟨_, undefinedInstr_of_noDebug h, ?_⟩
  rw [takeException_of_debugOff hoff]
  obtain ⟨hlink, hregs, hspsr, hmode, hthumb, hI, hF, hcpsr, -, hbytes, hrest⟩ :=
    entered_enter s .und 4#32 (s.pc + s.instrBytes) false
  have hoffset : Exception.undefined.offset = 4#32 := by decide
  exact ⟨hlink, hregs, hspsr, hmode, hthumb, hI, hF, hcpsr, congrArg (s.vectorBase + ·) hoffset, hbytes, hrest⟩

/-! ### The alignment fault off 8 bytes (20_memory.md R130) -/

theorem checkDouble_aligned (h : a.extractLsb' 0 3 = 0#3) : checkDouble a s = .ok () s := by
  rw [checkDouble, get_bind_apply, if_neg (not_not_intro h)]
  rfl

/-- Only the count of free values differs. -/
theorem checkDouble_unaligned (h : a.extractLsb' 0 3 ≠ 0#3) :
    ∃ c, checkDouble a s = .error (.dataAbort c none (some (s.mva a))) s.draw.2 ∧
      ∀ free, faultStatus c free &&& 0xFFFFFF0D#32 = 1#32 := by
  refine ⟨_, ?_, faultStatus_alignment ((Config.freeWord s.freeCtr).getLsbD 0)⟩
  rw [checkDouble, get_bind_apply, if_pos h]
  rfl

/-- What O14 says that the alignment fault leaves. -/
def AlignmentFaulted (s : State) (a : Word) (t : State) : Prop :=
  Entered .abt 0x10#32 (s.pc + 8#32) false s t ∧ t.cp15.fsr &&& 0xFFFFFF0D#32 = 1#32 ∧ t.cp15.far = s.mva a

/-- A body that ends with the alignment fault before it has changed anything takes the exception. -/
theorem alignmentFaulted_of_error {x : Exec α} {c : BitVec 5} (h : s.noDebug = true)
    (hx : x s = .error (.dataAbort c none (some (s.mva a))) s.draw.2)
    (hc : ∀ free, faultStatus c free &&& 0xFFFFFF0D#32 = 1#32) (k : α → State → Result) :
    ∃ t, runThen x k s = .next t ∧ AlignmentFaulted s a t := by
  have hoff : s.debugOn = false := (by simpa [State.noDebug] using h : _ ∧ _).1
  obtain ⟨free, t, ht, hentered, hfsr, hfar⟩ :=
    entered_dataAbort (u := s.draw.2) ⟨s.scratch, _, s.dtlb, rfl⟩ hoff c none (s.mva a)
  have hdtlb : t.dtlb = s.dtlb := by
    rw [← ht, takeException_of_debugOff (by exact hoff)]
    rfl
  refine ⟨t, (runThen_error hx).trans (congrArg Host.Outcome.next ht), ?_, by rw [hfsr]; exact hc free, hfar⟩
  rwa [← hdtlb] at hentered

/-! ### The registers of the pair -/

theorem doubleRefusal_none (h : doubleRefusal p w rn rd off = none) :
    rd ≠ 14#4 ∧ ((!p || w) = true → rn ≠ 15#4 ∧ rn ≠ rd ∧ rn ≠ rd + 1#4) := by
  unfold doubleRefusal at h
  dsimp only at h
  split at h
  · cases h
  split at h
  · cases h
  next hrd =>
    split at h
    · cases h
    next hpair =>
      split at h
      · cases h
      refine ⟨hrd, fun hw => ?_⟩
      rw [hw] at hpair
      simp only [Bool.true_and, Bool.or_eq_true, beq_iff_eq, not_or] at hpair
      exact ⟨(transferRefusal_none h hw).1, hpair⟩

/-- An even register other than R14, and the one after it, are two registers below R15. -/
theorem pair_distinct : ∀ rd : RegNum, rd.getLsbD 0 = false → rd ≠ 14#4 →
    rd ≠ 15#4 ∧ rd + 1#4 ≠ 15#4 ∧ rd ≠ rd + 1#4 := by decide

/-! ### The two words -/

theorem alignedFor_of_doubleAligned (s : State) (h : a.extractLsb' 0 3 = 0#3) : s.alignedFor a 4 = true := by
  have hmod : a.toNat % 8 = 0 := by simpa using congrArg BitVec.toNat h
  have hlow : a.extractLsb' 0 2 = 0#2 := by
    apply BitVec.eq_of_toNat_eq
    rw [toNat_low2, BitVec.toNat_ofNat]
    omega
  simp [State.alignedFor, hlow]

theorem mva_toNat (s : State) (va : Word) : (s.mva va).toNat =
    if va.toNat / 2 ^ 25 = 0 then s.cp15.pid.toNat / 2 ^ 25 * 2 ^ 25 + va.toNat % 2 ^ 25 else va.toNat := by
  have htop : va.extractLsb' 25 7 = 0#7 ↔ va.toNat / 2 ^ 25 = 0 := by
    have hva := va.isLt
    rw [← BitVec.toNat_inj, BitVec.extractLsb'_toNat, Nat.shiftRight_eq_div_pow, BitVec.toNat_ofNat]
    omega
  have hpid := s.cp15.pid.isLt
  unfold State.mva
  by_cases h : va.toNat / 2 ^ 25 = 0
  · rw [if_pos (htop.2 h), if_pos h]
    refine (BitVec.toNat_append _ _).trans ?_
    rw [BitVec.extractLsb'_toNat, BitVec.extractLsb'_toNat, Nat.shiftRight_eq_div_pow, Nat.shiftRight_zero,
      ← Nat.shiftLeft_add_eq_or_of_lt (Nat.mod_lt _ (Nat.two_pow_pos 25)), Nat.shiftLeft_eq]
    omega
  · rw [if_neg (mt htop.1 h), if_neg h]

/-- The words of an aligned doubleword lie in different words of memory. -/
theorem wordsApart_double (s : State) (h : a.extractLsb' 0 3 = 0#3) : WordsApart s a 2 := by
  have hmod : a.toNat % 8 = 0 := by simpa using congrArg BitVec.toNat h
  intro i j hij hj
  obtain ⟨rfl, rfl⟩ : i = 0 ∧ j = 1 := by omega
  have ha := a.isLt
  have hnext : (a + 4#32).toNat = a.toNat + 4 := by
    rw [BitVec.toNat_add, BitVec.toNat_ofNat]
    omega
  rw [Nat.mul_zero, BitVec.add_zero, Nat.mul_one, mva_toNat, mva_toNat, hnext]
  split <;> split <;> omega

theorem loadDouble_plain (h : s.plainData = true) (ha : a.extractLsb' 0 3 = 0#3) (priv : Bool) (m : Mode)
    (rn rd : RegNum) : ∃ notes, loadDouble priv m rn rd a s =
      .ok [(rd, s.loaded a 4), (rd + 1#4, s.loaded (a + 4#32) 4)] { s with scratch := notes } := by
  obtain ⟨notes, hload⟩ := loadWords_plain h (alignedFor_of_doubleAligned s ha) priv [rd, rd + 1#4]
  refine ⟨notes, ?_⟩
  rw [loadedWords_cons, loadedWords_cons] at hload
  rw [loadDouble, ignoreAbortInSds, bind_apply_of_ok (checkDouble_aligned ha), bind_apply_of_ok hload]
  rfl

/-! ### LDRD and STRD where they are not refused -/

theorem when_double_of_none (h : s.passes cond = true) (he : rd.getLsbD 0 = false)
    (hr : doubleRefusal p w rn rd off = none) (b : Result) :
    s.when cond (if rd.getLsbD 0 then undefinedInstr s else orRefuse (doubleRefusal p w rn rd off) b) = b := by
  rw [when_pass h, he, hr]
  rfl

/-- The write-back and two loaded registers, then the next instruction. -/
theorem transferred_loadPair (u : State) {r r' : RegNum} (x y : Word)
    (hrn : ad.writes = true → rn ≠ 15#4 ∧ rn ≠ r ∧ rn ≠ r') :
    Transferred rn ad (r :: r' :: ad.base rn) u (((u.updateBase rn ad).setReg r x).setReg r' y).advance where
  base := fun hw => by
    obtain ⟨h15, hr, hr'⟩ := hrn hw
    rw [reg_advance _ _ h15, reg_setReg_of_ne _ _ _ _ hr', reg_setReg_of_ne _ _ _ _ hr, reg_updateBase _ h15 hw]
  pc := by simp [Advances, State.instrBytes, State.thumb]
  flags := by simp [FlagsKept]
  regs := by
    have hbase : RegsKept (r :: r' :: ad.base rn) u (u.updateBase rn ad) :=
      (regsKept_updateBase u rn ad).mono fun _ hr => List.mem_cons_of_mem _ (List.mem_cons_of_mem _ hr)
    obtain ⟨hpair, -, -⟩ := frame_setReg_setReg (u.updateBase rn ad) r r' x y
    exact hbase.trans (mode_of_cpsr _ _ (by simp)) (hpair.mono (by simp))

/-- A load of two registers that the accesses answer. -/
theorem completes_loadPair {load : Exec (List (RegNum × Word))} {r r' : RegNum} {x y : Word}
    (hi : exec i s = runThen load (fun vs t => .next ((t.updateBase rn ad).setRegs vs).advance) s)
    (hload : load s = .ok [(r, x), (r', y)] u) (hdata : DataOnly s u) (hr : r ≠ 15#4) (hr' : r' ≠ 15#4) (hne : r ≠ r')
    (hbase : ad.writes = true → rn ≠ 15#4 ∧ rn ≠ r ∧ rn ≠ r') :
    Completes i s fun t => DiffersInRegs u t ∧ t.reg r = x ∧ t.reg r' = y ∧
      Transferred rn ad (r :: r' :: ad.base rn) s t := by
  refine ⟨_, hi.trans (runThen_ok hload), (((differsInRegs_updateBase u rn ad).setReg r x).setReg r' y).advance, ?_, ?_,
    hdata.transferred (transferred_loadPair u x y hbase)⟩
  · exact (reg_advance _ _ hr).trans ((reg_setReg_of_ne _ _ _ _ hne).trans (reg_setReg_self _ _ _ hr))
  · exact (reg_advance _ _ hr').trans (reg_setReg_self _ _ _ hr')

variable (hp : s.passes cond = true) (he : rd.getLsbD 0 = false) (hr : doubleRefusal p w rn rd off = none)
include hp he hr

theorem ldrd_alignmentFault (hd : s.noDebug = true) (ha : (s.mode3 p up w rn off).at_.extractLsb' 0 3 ≠ 0#3) :
    Completes (.ldrd cond p up w rn rd off) s (AlignmentFaulted s (s.mode3 p up w rn off).at_) := by
  obtain ⟨c, hcheck, hc⟩ := checkDouble_unaligned (s := s) ha
  rw [Completes, show exec (.ldrd cond p up w rn rd off) s = _ from when_double_of_none hp he hr _]
  refine alignmentFaulted_of_error hd ?_ hc _
  have hsds : s.draw.2.dbgUnit.sds = false := sds_of_noDebug hd
  simp only [loadDouble, ignoreAbortInSds, bind, EStateM.bind, hcheck, hsds, Bool.false_eq_true, if_false]

theorem strd_alignmentFault (hd : s.noDebug = true) (ha : (s.mode3 p up w rn off).at_.extractLsb' 0 3 ≠ 0#3) :
    Completes (.strd cond p up w rn rd off) s (AlignmentFaulted s (s.mode3 p up w rn off).at_) := by
  obtain ⟨c, hcheck, hc⟩ := checkDouble_unaligned (s := s) ha
  rw [Completes, show exec (.strd cond p up w rn rd off) s = _ from when_double_of_none hp he hr _]
  refine alignmentFaulted_of_error hd ?_ hc _
  have hsds : s.draw.2.dbgUnit.sds = false := sds_of_noDebug hd
  simp only [refuseAbortInSds, bind, EStateM.bind, hcheck, hsds, Bool.false_eq_true, if_false]

variable (h : s.plainData = true) (had : s.mode3 p up w rn off = ad) (ha : ad.at_.extractLsb' 0 3 = 0#3)
include h had ha

theorem ldrd_plain : Completes (.ldrd cond p up w rn rd off) s fun t =>
    t.reg rd = s.loaded ad.at_ 4 ∧ t.reg (rd + 1#4) = s.loaded (ad.at_ + 4#32) 4 ∧ BaseIs rn ad t ∧ Advances s t ∧
      FlagsKept s t ∧ Frame (rd :: (rd + 1#4) :: ad.base rn) s t := by
  subst had
  obtain ⟨hrd14, hbase⟩ := doubleRefusal_none hr
  obtain ⟨hrd, hrd', hne⟩ := pair_distinct rd he hrd14
  obtain ⟨notes, hload⟩ := loadDouble_plain h ha s.privileged s.mode rn rd
  have hexec : exec (.ldrd cond p up w rn rd off) s = _ := when_double_of_none hp he hr _
  refine (completes_loadPair hexec hload (dataOnly_of rfl rfl id) hrd hrd' hne hbase).mono ?_
  rintro t ⟨⟨gpr, pc, rfl⟩, hfirst, hsecond, ht⟩
  exact ⟨hfirst, hsecond, ht.base, ht.pc, ht.flags, .of ht.regs rfl⟩

theorem strd_plain : Completes (.strd cond p up w rn rd off) s fun t =>
    StoredWords [(ad.at_, some (s.reg rd)), (ad.at_ + 4#32, some (s.reg (rd + 1#4)))] s t ∧ BaseIs rn ad t ∧
      Advances s t ∧ FlagsKept s t ∧ RegsKept (ad.base rn) s t ∧ RestKeptButMemory s t := by
  subst had
  obtain ⟨-, hbase⟩ := doubleRefusal_none hr
  obtain ⟨u, hstore, honly, hstored⟩ := storeWords_plain h (alignedFor_of_doubleAligned s ha) s.privileged
    [s.reg rd, s.reg (rd + 1#4)] (wordsApart_double s ha)
  have hexec : exec (.strd cond p up w rn rd off) s = _ := when_double_of_none hp he hr _
  have hcheck := refuseAbortInSds_ok (checkDouble_aligned (s := s) ha)
  have hwrite := (bind_apply_of_ok hcheck fun _ => storeWords _ _ _).trans hstore
  have hwords := hstored.storedWords (ws := [((s.mode3 p up w rn off).at_, some (s.reg rd)),
    ((s.mode3 p up w rn off).at_ + 4#32, some (s.reg (rd + 1#4)))]) rfl fun j q hq => by
      match j, hq with
      | 0, hq =>
        obtain rfl := Option.some.inj hq
        exact ⟨(BitVec.add_zero _).symm, fun _ hv => hv⟩
      | 1, hq =>
        obtain rfl := Option.some.inj hq
        exact ⟨rfl, fun _ hv => hv⟩
  refine (completes_storeReg hexec hwrite ((storeWords_dataOnly _ _ _).ok hstore) fun hw => (hbase hw).1).mono ?_
  obtain ⟨m, notes, mods, rfl⟩ := honly
  rintro t ⟨⟨gpr, pc, rfl⟩, ht⟩
  exact ⟨hwords, ht.base, ht.pc, ht.flags, ht.regs, rfl⟩

end

/-- Settles O14: the entry of Undefined Instruction, the alignment fault before any access, and the two words. -/
theorem doubleword : Obligations.Doubleword := by
  intro s cond p u w rn rd off hp ad a
  refine ⟨fun he hd => ?_, fun he hd hr ha => ?_, fun he h hr ha =>
    ⟨ldrd_plain u hp he hr h rfl ha, strd_plain u hp he hr h rfl ha⟩⟩
  · have hexec (b : Result) : s.when cond (if rd.getLsbD 0 then undefinedInstr s else b) = undefinedInstr s := by
      rw [when_pass hp, if_pos he]
    obtain ⟨t, ht, hentered⟩ := entered_undefinedInstr hd
    exact ⟨⟨t, (hexec _).trans ht, hentered⟩, ⟨t, (hexec _).trans ht, hentered⟩⟩
  · simp only [List.forall_mem_cons]
    exact ⟨ldrd_alignmentFault u hp he hr hd ha, strd_alignmentFault u hp he hr hd ha, List.forall_mem_nil _⟩

end Sys2Proof.Machine

/-!
SUPPORT. Load multiple where data accesses are plain (42_load_store.md R470, R471; 30_encoding.md R298): the registers
of a list, the words that come into them, and the base. Settles O15.
-/

namespace Sys2Proof.Machine

/-- The write-back of a base where W asks for it. -/
def State.withBase (s : State) (w : Bool) (rn : RegNum) (v : Word) : State := if w then s.setReg rn v else s

/-- The end of LDM (1): a loaded PC is a branch (42_load_store.md R470). -/
def endLoad (target : Option Word) (t : State) : Result :=
  match target with
  | some v => t.interwork v
  | none => .next t.advance

section

/-! ### Register lists -/

variable {l : BitVec 16} {r : RegNum}

theorem mem_listRegs : r ∈ listRegs l ↔ l.getLsbD r.toNat = true := by
  have hr := r.isLt
  simp only [listRegs, List.mem_filterMap, List.mem_range, Option.ite_none_right_eq_some, Option.some.injEq]
  constructor
  · rintro ⟨i, hi, hbit, rfl⟩
    rwa [BitVec.toNat_ofNat, Nat.mod_eq_of_lt hi]
  · exact fun hbit => ⟨r.toNat, hr, hbit, BitVec.ofNat_toNat 4 r ▸ BitVec.setWidth_eq r⟩

theorem nodup_listRegs (l : BitVec 16) : (listRegs l).Nodup := by
  refine List.nodup_range.filterMap fun i j r hi hj => ?_
  simp only [Option.mem_def, Option.ite_none_right_eq_some, Option.some.injEq] at hi hj
  obtain ⟨hbit, rfl⟩ := hi
  obtain ⟨hbit', he⟩ := hj
  have hlt := BitVec.lt_of_getLsbD hbit
  have hlt' := BitVec.lt_of_getLsbD hbit'
  have hnat := congrArg BitVec.toNat he
  rw [BitVec.toNat_ofNat, BitVec.toNat_ofNat, Nat.mod_eq_of_lt hlt, Nat.mod_eq_of_lt hlt'] at hnat
  exact hnat.symm

theorem listRegs_ne_nil (h : l ≠ 0#16) : listRegs l ≠ [] := by
  intro hnil
  refine h (BitVec.eq_of_getLsbD_eq fun i hi => ?_)
  rw [BitVec.getLsbD_zero]
  by_contra hbit
  have hmem : BitVec.ofNat 4 i ∈ listRegs l := by
    rw [mem_listRegs, BitVec.toNat_ofNat, Nat.mod_eq_of_lt hi]
    simpa using hbit
  rw [hnil] at hmem
  cases hmem

/-- The short lists of the forms that keep R15 apart do not hold it. -/
theorem pc_not_mem_listRegs (list : BitVec 15) : 15#4 ∉ listRegs (list.zeroExtend 16) := by
  rw [mem_listRegs]
  simp

theorem listRegs_pc (list : BitVec 15) : listRegs (1#1 ++ list) = listRegs (list.zeroExtend 16) ++ [15#4] := by
  have hlow (i : Nat) (hi : i < 15) : (1#1 ++ list).getLsbD i = (list.zeroExtend 16).getLsbD i := by
    have hi16 : i < 16 := Nat.lt_succ_of_lt hi
    rw [BitVec.getLsbD_append, if_pos hi]
    simp [hi16]
  have htop : (1#1 ++ list).getLsbD 15 = true := by
    rw [BitVec.getLsbD_append, if_neg (Nat.lt_irrefl 15)]
    rfl
  have htop' : (list.zeroExtend 16).getLsbD 15 = false := by simp
  simp only [listRegs, List.range_succ (n := 15), List.filterMap_append, List.filterMap_cons, List.filterMap_nil, htop,
    htop', if_true, Bool.false_eq_true, if_false, List.append_nil]
  congr 1
  exact List.filterMap_congr fun i hi => by rw [hlow i (List.mem_range.1 hi)]

/-- A list with a register, and a base that is not R15, are not refused. -/
theorem listRefusal_none {rn : RegNum} {regs : List RegNum} (hregs : regs ≠ []) (hrn : rn ≠ 15#4) :
    listRefusal rn regs = none := by
  rw [listRefusal, if_neg (by simpa using hregs), if_neg hrn]

end

section

variable {s t : State} {cond : BitVec 4} {p u w : Bool} {rn r : RegNum} {regs : List RegNum} {a wb : Word}

/-! ### The registers after a load multiple -/

theorem reg_eq_bankReg (hr : r ≠ 15#4) (hm : t.mode = s.mode) : t.reg r = t.bankReg s.mode r := by
  rw [State.reg, if_neg hr, hm]

/-- What a load multiple leaves of the registers of the mode before it: the words from an address on, with W the base,
and every other register. -/
structure ListLoaded (w : Bool) (rn : RegNum) (wb : Word) (regs : List RegNum) (a : Word) (s t : State) : Prop where
  words : ∀ j r, regs[j]? = some r → t.bankReg s.mode r = s.loaded (a + BitVec.ofNat 32 (4 * j)) 4
  base : w = true → t.bankReg s.mode rn = wb
  others : RegsKept (if w then rn :: regs else regs) s t

theorem regs_not_pc (h15 : 15#4 ∉ regs) {p : RegNum × Word} (hp : p ∈ s.loadedWords regs a) : p.1 ≠ 15#4 :=
  fun he => h15 (he ▸ fst_mem_of_mem_loadedWords hp)

theorem withBase_eq (s : State) (w : Bool) (rn : RegNum) (v : Word) :
    ∃ g, s.withBase w rn v = { s with gpr := g } := by
  unfold State.withBase State.setReg
  split
  · split
    · exact ⟨s.gpr, rfl⟩
    · exact ⟨_, rfl⟩
  · exact ⟨s.gpr, rfl⟩

theorem regsKept_withBase (s : State) (w : Bool) (rn : RegNum) (v : Word) :
    RegsKept (if w then [rn] else []) s (s.withBase w rn v) := by
  unfold State.withBase
  cases w
  · exact .refl _ s
  · exact regsKept_setReg s rn v

@[simp] theorem mode_withBase (s : State) (w : Bool) (rn : RegNum) (v : Word) : (s.withBase w rn v).mode = s.mode := by
  obtain ⟨g, hg⟩ := withBase_eq s w rn v
  rw [hg]
  rfl

theorem bankReg_withBase {w : Bool} (hw : w = true) (s : State) {rn : RegNum} (hrn : rn ≠ 15#4) (v : Word) :
    (s.withBase w rn v).bankReg s.mode rn = v := by
  rw [State.withBase, if_pos hw, bankReg_setReg_self s rn v hrn]

/-- The base, then the registers of the list. -/
theorem listLoaded_setBankRegs (hdistinct : regs.Nodup) (h15 : 15#4 ∉ regs)
    (hbase : w = true → rn ≠ 15#4 ∧ rn ∉ regs) (a wb : Word) :
    ListLoaded w rn wb regs a s ((s.withBase w rn wb).setBankRegs s.mode (s.loadedWords regs a)) where
  words j r hj := bankReg_setBankRegs (by rwa [map_fst_loadedWords]) (fun _ hp => regs_not_pc h15 hp)
    (mem_loadedWords hj s a)
  base hw := by
    obtain ⟨hrn, hmem⟩ := hbase hw
    refine (gpr_setBankRegs_of_ne fun p hp he => hmem ?_).trans (bankReg_withBase hw s hrn wb)
    exact regIndex_inj _ _ _ (regs_not_pc h15 hp) hrn he ▸ fst_mem_of_mem_loadedWords hp
  others i hi := by
    have hregs : ∀ r ∈ regs, regIndex s.mode r ≠ i := fun r hr => hi r (by cases w <;> simp [hr])
    have hrn : ∀ r ∈ (if w then [rn] else []), regIndex s.mode r ≠ i := fun r hr => hi r (by cases w <;> simp_all)
    exact (gpr_setBankRegs_of_ne fun p hp => hregs _ (fst_mem_of_mem_loadedWords hp)).trans
      (regsKept_withBase s w rn wb i hrn)

/-- The same as the meanings write it, after the notes of the accesses. -/
theorem listLoaded_setRegs (hdistinct : regs.Nodup) (h15 : 15#4 ∉ regs) (hbase : w = true → rn ≠ 15#4 ∧ rn ∉ regs)
    (a wb : Word) (notes : Scratch) :
    ∃ g, (State.withBase { s with scratch := notes } w rn wb).setRegs (s.loadedWords regs a) =
        { s with gpr := g, scratch := notes } ∧ ListLoaded w rn wb regs a s { s with gpr := g, scratch := notes } := by
  have hset := setRegs_eq_setBankRegs (vs := s.loadedWords regs a) (fun _ hp => regs_not_pc h15 hp)
    (State.withBase { s with scratch := notes } w rn wb)
  have hloaded := listLoaded_setBankRegs (s := { s with scratch := notes }) hdistinct h15 hbase a wb
  obtain ⟨g, hg⟩ := withBase_eq { s with scratch := notes } w rn wb
  obtain ⟨g', hg'⟩ := setBankRegs_eq (State.withBase { s with scratch := notes } w rn wb) s.mode (s.loadedWords regs a)
  have heq : (State.withBase { s with scratch := notes } w rn wb).setBankRegs s.mode (s.loadedWords regs a) =
      { s with gpr := g', scratch := notes } := by rw [hg', hg]
  refine ⟨g', hset.trans ((congrArg (State.setBankRegs _ · _) (mode_withBase _ _ _ _)).trans heq), ?_⟩
  rw [← heq]
  exact ⟨hloaded.words, hloaded.base, hloaded.others⟩

/-! ### The accesses -/

/-- The span of an access that does not run past the top of the address space (20_memory.md R155). -/
theorem checkSpan_fits {n : Nat} (h : a.toNat / 4 + n ≤ 2 ^ 30) (s : State) : checkSpan a n s = .ok () s := if_pos h

/-- A load multiple that nothing intercepts: what is done with its words, after the write-back. -/
theorem loadMultiple_plain (h : s.plainData = true) (bank : Mode) (p u w : Bool) (rn : RegNum)
    (k : List (RegNum × Word) → State → Result)
    (ha : s.alignedFor (mode4 p u (s.reg rn) regs.length).1 4 = true)
    (hspan : (mode4 p u (s.reg rn) regs.length).1.toNat / 4 + regs.length ≤ 2 ^ 30) :
    ∃ notes, loadMultiple bank p u w rn regs k s = k (s.loadedWords regs (mode4 p u (s.reg rn) regs.length).1)
      (State.withBase { s with scratch := notes } w rn (mode4 p u (s.reg rn) regs.length).2) := by
  obtain ⟨noted, hnoted⟩ : ∃ noted,
      (if regs.contains 15#4 then s.noteLoadsPc else s) = { s with scratch := noted } := by
    split
    · exact ⟨_, rfl⟩
    · exact ⟨s.scratch, rfl⟩
  obtain ⟨notes, hload⟩ := loadWords_plain (s := { s with scratch := noted }) h ha s.privileged regs
  refine ⟨notes, ?_⟩
  rw [loadMultiple, hnoted]
  refine runThen_ok ?_
  rw [bind_apply_of_ok (checkSpan_fits hspan _), bind_apply_of_ok hload]
  rfl

/-! ### LDM of the current mode and of User registers -/

/-- A base that is written back is not loaded. -/
theorem base_not_loaded (hw : w = true → regs.contains rn = false) : ¬ (w && regs.contains rn) = true := by
  cases w
  · exact Bool.false_ne_true
  · rw [hw rfl]
    exact Bool.false_ne_true

theorem exec_ldm1 {list : BitVec 16} (hp : s.passes cond = true) (hd : s.inDebug = false) (hrn : rn ≠ 15#4)
    (hl : listRegs list ≠ []) (hw : w = true → (listRegs list).contains rn = false) :
    exec (.ldm1 cond p u w rn list) s =
      loadMultiple s.mode p u w rn (listRegs list) (fun vs t => endLoad (pcValue vs) (t.setRegs vs)) s := by
  refine (when_orRefuse_of_none hp (listRefusal_none hl hrn) _).trans ?_
  rw [if_neg (base_not_loaded hw), hd]
  rfl

theorem exec_ldm2 {list : BitVec 15} (hp : s.passes cond = true) (hd : s.inDebug = false) (hrn : rn ≠ 15#4)
    (hl : listRegs (list.zeroExtend 16) ≠ []) (hs : s.lacksSpsr = false) :
    exec (.ldm2 cond p u false rn list) s = loadMultiple .usr p u false rn (listRegs (list.zeroExtend 16))
      (fun vs t => .next (State.advance { t.setBankRegs .usr vs with bankHazard := true })) s := by
  refine (when_orRefuse_of_none hp (listRefusal_none hl hrn) _).trans ?_
  rw [hs, hd]
  rfl

theorem pcValue_none (h15 : 15#4 ∉ regs) : pcValue (s.loadedWords regs a) = none := by
  have hnone : (s.loadedWords regs a).find? (fun q => q.1 == 15#4) = none :=
    List.find?_eq_none.2 fun q hq => by simpa using regs_not_pc h15 hq
  rw [pcValue, hnone]
  rfl

theorem shortList_ne_nil {list : BitVec 15} (h : list ≠ 0#15) : listRegs (list.zeroExtend 16) ≠ [] := by
  refine listRegs_ne_nil fun he => h ?_
  have hshort := congrArg (BitVec.setWidth 15) he
  simpa using hshort

theorem inDebug_of_plainData (h : s.plainData = true) : s.inDebug = false := by
  obtain ⟨-, -, -, -, -, -, -, -, hdebug⟩ := plainData_iff.1 h
  exact hdebug

/-- What O15 and O16 ask of a load multiple: plain accesses to aligned words below the top of the address space, and a
base that is not in the list if it is written back. -/
structure LoadsList (s : State) (cond : BitVec 4) (p u w : Bool) (rn : RegNum) (list : BitVec 15) (n : Nat) : Prop where
  plain : s.plainData = true
  passes : s.passes cond = true
  notPc : rn ≠ 15#4
  aligned : s.alignedFor (mode4 p u (s.reg rn) n).1 4 = true
  span : (mode4 p u (s.reg rn) n).1.toNat / 4 + n ≤ 2 ^ 30
  base : w = true → (listRegs (list.zeroExtend 16)).contains rn = false

variable {list : BitVec 15} {n : Nat}

theorem LoadsList.baseFree (h : LoadsList s cond p u w rn list n) :
    w = true → rn ≠ 15#4 ∧ rn ∉ listRegs (list.zeroExtend 16) := fun hw => ⟨h.notPc, by simpa using h.base hw⟩

theorem ldm1_plain (h : LoadsList s cond p u w rn list n) (hn : (listRegs (list.zeroExtend 16)).length = n)
    (hlist : list ≠ 0#15) :
    Completes (.ldm1 cond p u w rn (list.zeroExtend 16)) s fun t =>
      (∀ j r, (listRegs (list.zeroExtend 16))[j]? = some r →
        t.reg r = s.loaded ((mode4 p u (s.reg rn) n).1 + BitVec.ofNat 32 (4 * j)) 4) ∧
      (w = true → t.reg rn = (mode4 p u (s.reg rn) n).2) ∧ Advances s t ∧ FlagsKept s t ∧
      Frame (if w then rn :: listRegs (list.zeroExtend 16) else listRegs (list.zeroExtend 16)) s t := by
  subst hn
  have h15 := pc_not_mem_listRegs list
  let m := mode4 p u (s.reg rn) (listRegs (list.zeroExtend 16)).length
  obtain ⟨notes, hload⟩ := loadMultiple_plain h.plain s.mode p u w rn
    (fun vs t => endLoad (pcValue vs) (t.setRegs vs)) h.aligned h.span
  obtain ⟨g, hset, hloaded⟩ := listLoaded_setRegs (nodup_listRegs _) h15 h.baseFree m.1 m.2 notes
  refine ⟨State.advance { s with gpr := g, scratch := notes }, ?_, fun j r hj => ?_, fun hw => ?_, rfl, rfl,
    .of hloaded.others rfl⟩
  · rw [exec_ldm1 h.passes (inDebug_of_plainData h.plain) h.notPc (shortList_ne_nil hlist) h.base, hload,
      pcValue_none h15, hset]
    rfl
  · exact (reg_eq_bankReg (fun he => h15 (he ▸ List.mem_of_getElem? hj)) rfl).trans (hloaded.words j r hj)
  · exact (reg_eq_bankReg h.notPc rfl).trans (hloaded.base hw)

theorem ldm2_plain (h : LoadsList s cond p u w rn list n) (hn : (listRegs (list.zeroExtend 16)).length = n)
    (hlist : list ≠ 0#15) (hs : s.lacksSpsr = false) :
    Completes (.ldm2 cond p u false rn list) s fun t =>
      (∀ j r, (listRegs (list.zeroExtend 16))[j]? = some r →
        t.bankReg .usr r = s.loaded ((mode4 p u (s.reg rn) n).1 + BitVec.ofNat 32 (4 * j)) 4) ∧
      (∀ i : Fin 32, (∀ r ∈ listRegs (list.zeroExtend 16), regIndex .usr r ≠ i) → t.gpr[i.val] = s.gpr[i.val]) ∧
      Advances s t ∧ FlagsKept s t ∧ BytesKept s t ∧ t.bankHazard = true ∧
      RestKept s { t with bankHazard := s.bankHazard } := by
  subst hn
  have h15 := pc_not_mem_listRegs list
  obtain ⟨notes, hload⟩ := loadMultiple_plain h.plain .usr p u false rn (fun vs t =>
    .next (State.advance { t.setBankRegs .usr vs with bankHazard := true })) h.aligned h.span
  refine ⟨_, (exec_ldm2 h.passes (inDebug_of_plainData h.plain) h.notPc (shortList_ne_nil hlist) hs).trans hload,
    fun j r hj => ?_, fun i hi => ?_, ?_⟩
  · exact bankReg_setBankRegs (s := { s with scratch := notes }) (by rw [map_fst_loadedWords]; exact nodup_listRegs _)
      (fun _ hq => regs_not_pc h15 hq) (mem_loadedWords hj s _)
  · exact gpr_setBankRegs_of_ne (s := { s with scratch := notes }) fun q hq => hi _ (fst_mem_of_mem_loadedWords hq)
  · obtain ⟨g, hg⟩ := setBankRegs_eq { s with scratch := notes } .usr
      (s.loadedWords (listRegs (list.zeroExtend 16)) (mode4 p u (s.reg rn) (listRegs (list.zeroExtend 16)).length).1)
    rw [State.withBase, if_neg Bool.false_ne_true, hg]
    exact ⟨rfl, rfl, fun _ => rfl, rfl, rfl⟩

end
end Sys2Proof.Machine

namespace Sys2Proof

/-- Settles O15: the two forms differ in the bank they write (`ldm1_plain`, `ldm2_plain`). -/
theorem loadMultiple : Obligations.LoadMultiple := by
  intro s cond p u w rn list h hp hrn hlist regs m ha hspan
  refine ⟨fun hw => Machine.ldm1_plain ⟨h, hp, hrn, ha, hspan, hw⟩ rfl hlist, fun hs => ?_⟩
  exact Machine.ldm2_plain (w := false) ⟨h, hp, hrn, ha, hspan, fun hw => absurd hw Bool.false_ne_true⟩ rfl hlist hs

end Sys2Proof

/-!
SUPPORT. Loads of the PC where data accesses are plain: the branch that takes the state from the word, and the return
from an exception (42_load_store.md R444, R470, R472; 43_branch_status_system.md R520). Settles O16.
-/

namespace Sys2Proof.Machine

/-- The state after a branch whose bit 0 selects the state (43_branch_status_system.md R520). -/
def State.branched (s : State) (v : Word) : State := (s.setThumb (v.getLsbD 0)).jump (v &&& 0xFFFFFFFE#32) true

section

variable {s t : State} {v : Word} {r : RegNum}

/-! ### The branch -/

theorem interwork_legal (hv : v.extractLsb' 0 2 ≠ 2#2) (s : State) : s.interwork v = .next (s.branched v) := if_neg hv

theorem interwork_unaligned (hv : v.extractLsb' 0 2 = 2#2) (s : State) : s.interwork v = .refused .unalignedTarget :=
  if_pos hv

/-- T is bit 5 alone. -/
theorem setThumb_allButT (s : State) (b : Bool) : (s.setThumb b).cpsr &&& 0xFFFFFFDF#32 = s.cpsr &&& 0xFFFFFFDF#32 := by
  refine BitVec.eq_of_getLsbD_eq fun i _ => ?_
  rw [BitVec.getLsbD_and, BitVec.getLsbD_and, State.setThumb, getLsbD_setBit _ _ _ _ (by decide)]
  by_cases h5 : i = 5
  · subst h5
    exact (Bool.and_false _).trans (Bool.and_false _).symm
  · rw [if_neg h5]

theorem mode_branched (s : State) (v : Word) : (s.branched v).mode = s.mode := by
  have hfield : (s.branched v).cpsr.extractLsb' 0 5 = s.cpsr.extractLsb' 0 5 := by
    refine BitVec.eq_of_getLsbD_eq fun i hi => ?_
    rw [BitVec.getLsbD_extractLsb', BitVec.getLsbD_extractLsb', State.branched, jump_cpsr, State.setThumb,
      getLsbD_setBit _ _ _ _ (by decide), if_neg (by omega)]
  rw [State.mode, State.mode, modeBits, modeBits, hfield]

theorem reg_branched (hr : r ≠ 15#4) (s : State) (v : Word) : (s.branched v).reg r = s.reg r :=
  reg_congr s _ r hr rfl (mode_branched s v)

theorem interworks_branched (ht : t.cpsr = s.cpsr) (v : Word) : Interworks v s (t.branched v) :=
  ⟨thumb_setThumb _, (setThumb_allButT t _).trans (by rw [ht]), rfl⟩

end

section

variable {s : State} {cond : BitVec 4} {p u w : Bool} {rn : RegNum} {am : Mode2} {list : BitVec 15} {status : Word}

theorem exceptionReturn_unaligned (hstatus : s.spsrOf = some status)
    (hmode : (modeOf (status.extractLsb' 0 5)).isSome = true) (ht : status.getLsbD 5 = false) {v : Word}
    (hv : v.extractLsb' 0 2 ≠ 0#2) : s.exceptionReturn v = .refused .unalignedTarget := by
  rw [exceptionReturn_legal v hstatus hmode, ht, if_neg Bool.false_ne_true, if_pos hv]

/-! ### LDR -/

theorem alignedFor_of_aligned {a : Word} (ha : a.extractLsb' 0 2 = 0#2) (s : State) : s.alignedFor a 4 = true := by
  rw [State.alignedFor, ha]
  cases s.alignCheck <;> rfl

/-- LDR of the PC: the write-back, then the branch to the word. -/
theorem exec_ldr_pc (h : s.plainData = true) (hp : s.passes cond = true)
    (hr : transferRefusal rn 15#4 (mode2Rm am) (mode2Writes am) = none)
    (ha : (s.mode2 rn am).at_.extractLsb' 0 2 = 0#2) :
    exec (.ldr cond rn 15#4 am) s =
      ((s.noteLoadsPc.noteAccess true).updateBase rn (s.mode2 rn am)).interwork (s.loaded (s.mode2 rn am).at_ 4) := by
  have hread := memReadWord_plain (s := s.noteLoadsPc) h (alignedFor_of_aligned ha _) s.privileged
  rw [rotateLoaded_aligned ha] at hread
  refine (when_orRefuse_of_none hp hr _).trans ?_
  rw [inDebug_of_plainData h, Bool.false_and, if_neg Bool.false_ne_true, if_pos rfl,
    if_neg fun hodd => hodd.1 ha]
  exact runThen_ok hread

theorem ldr_pc (h : s.plainData = true) (hp : s.passes cond = true)
    (hr : transferRefusal rn 15#4 (mode2Rm am) (mode2Writes am) = none)
    (ha : (s.mode2 rn am).at_.extractLsb' 0 2 = 0#2)
    (hx : (s.loaded (s.mode2 rn am).at_ 4).extractLsb' 0 2 ≠ 2#2) :
    Completes (.ldr cond rn 15#4 am) s fun t =>
      Interworks (s.loaded (s.mode2 rn am).at_ 4) s t ∧ BaseIs rn (s.mode2 rn am) t ∧
        Frame ((s.mode2 rn am).base rn) s t := by
  obtain ⟨regs, pc, hu⟩ := differsInRegs_updateBase (s.noteLoadsPc.noteAccess true) rn (s.mode2 rn am)
  have hkept := regsKept_updateBase (s.noteLoadsPc.noteAccess true) rn (s.mode2 rn am)
  refine ⟨_, (exec_ldr_pc h hp hr ha).trans (interwork_legal hx _), interworks_branched (by rw [hu]; rfl) _,
    fun hw => ?_, .of hkept ?_⟩
  · have hrn : rn ≠ 15#4 := (baseFree_mode2 hr hw).1
    rw [reg_branched hrn, reg_updateBase _ hrn hw]
  · rw [hu]
    rfl

/-! ### LDM and LDM^ with the PC in the list -/

theorem pcValue_concat {regs : List RegNum} (h15 : 15#4 ∉ regs) (a v : Word) :
    pcValue (s.loadedWords regs a ++ [(15#4, v)]) = some v := by
  rw [pcValue, List.find?_append, Option.map_or, ← pcValue, pcValue_none h15]
  rfl

theorem listRegs_pc_ne_nil (list : BitVec 15) : listRegs (1#1 ++ list) ≠ [] := by
  rw [listRegs_pc]
  exact List.append_ne_nil_of_right_ne_nil _ (List.cons_ne_nil _ _)

/-- A load multiple of the registers of a list and the PC, that nothing intercepts: what is done with the registers and
the target. -/
theorem loadMultiple_pc (h : LoadsList s cond p u w rn list ((listRegs (list.zeroExtend 16)).length + 1))
    (f : Option Word → State → Result) :
    let regs := listRegs (list.zeroExtend 16)
    let m := mode4 p u (s.reg rn) (regs.length + 1)
    ∃ g notes, loadMultiple s.mode p u w rn (listRegs (1#1 ++ list)) (fun vs t => f (pcValue vs) (t.setRegs vs)) s =
        f (some (s.loaded (m.1 + BitVec.ofNat 32 (4 * regs.length)) 4)) { s with gpr := g, scratch := notes } ∧
      ListLoaded w rn m.2 regs m.1 s { s with gpr := g, scratch := notes } := by
  intro regs m
  have h15 : 15#4 ∉ regs := pc_not_mem_listRegs list
  have hlength : (regs ++ [15#4]).length = regs.length + 1 := List.length_append
  have haligned := h.aligned
  have hspan := h.span
  rw [← hlength] at haligned hspan
  obtain ⟨notes, hload⟩ := loadMultiple_plain h.plain s.mode p u w rn (fun vs t => f (pcValue vs) (t.setRegs vs))
    haligned hspan
  obtain ⟨g, hset, hloaded⟩ := listLoaded_setRegs (nodup_listRegs _) h15 h.baseFree m.1 m.2 notes
  refine ⟨g, notes, ?_, hloaded⟩
  rw [listRegs_pc, hload, hlength, loadedWords_concat, setRegs_pc, pcValue_concat h15, hset]

theorem LoadsList.baseFree_pc {n : Nat} (h : LoadsList s cond p u w rn list n) (hw : w = true) :
    (listRegs (1#1 ++ list)).contains rn = false := by
  rw [listRegs_pc, List.contains_append, h.base hw]
  simpa using h.notPc

/-- What LDM of the PC does with the registers and the target. -/
theorem exec_ldm1_pc {n : Nat} (h : LoadsList s cond p u w rn list n) :
    exec (.ldm1 cond p u w rn (1#1 ++ list)) s =
      loadMultiple s.mode p u w rn (listRegs (1#1 ++ list)) (fun vs t => endLoad (pcValue vs) (t.setRegs vs)) s :=
  exec_ldm1 h.passes (inDebug_of_plainData h.plain) h.notPc (listRegs_pc_ne_nil list) h.baseFree_pc

/-- LDM^ of the PC, past what it may not be. -/
theorem exec_ldm3 {n : Nat} (h : LoadsList s cond p u w rn list n) :
    exec (.ldm3 cond p u w rn list) s =
      if s.lacksSpsr then .refused .noSpsr
      else loadMultiple s.mode p u w rn (listRegs (1#1 ++ list))
        (fun vs t => State.exceptionReturn (t.setRegs vs) ((pcValue vs).getD 0#32)) s := by
  refine (when_orRefuse_of_none h.passes (listRefusal_none (listRegs_pc_ne_nil list) h.notPc) _).trans ?_
  rw [if_neg (base_not_loaded h.baseFree_pc), inDebug_of_plainData h.plain]
  rfl

/-- The modes without an SPSR are User and System mode. -/
theorem lacksSpsr_eq (s : State) : s.lacksSpsr = s.spsrOf.isNone := by
  rw [State.lacksSpsr, State.spsrOf, Option.isNone_map]
  cases s.mode <;> rfl

theorem ldm1_pc (h : LoadsList s cond p u w rn list ((listRegs (list.zeroExtend 16)).length + 1)) :
    let regs := listRegs (list.zeroExtend 16)
    let m := mode4 p u (s.reg rn) (regs.length + 1)
    let v := s.loaded (m.1 + BitVec.ofNat 32 (4 * regs.length)) 4
    (v.extractLsb' 0 2 ≠ 2#2 →
      Completes (.ldm1 cond p u w rn (1#1 ++ list)) s fun t =>
        (∀ j r, regs[j]? = some r → t.reg r = s.loaded (m.1 + BitVec.ofNat 32 (4 * j)) 4) ∧
          (w = true → t.reg rn = m.2) ∧ Interworks v s t ∧ Frame (if w then rn :: regs else regs) s t) ∧
    (v.extractLsb' 0 2 = 2#2 → exec (.ldm1 cond p u w rn (1#1 ++ list)) s = .refused .unalignedTarget) := by
  intro regs m v
  have h15 : 15#4 ∉ regs := pc_not_mem_listRegs list
  obtain ⟨g, notes, hload, hloaded⟩ := loadMultiple_pc h endLoad
  have hexec := (exec_ldm1_pc h).trans hload
  refine ⟨fun hv => ⟨_, hexec.trans (interwork_legal hv _), fun j r hj => ?_, fun hw => ?_, interworks_branched rfl v,
    .of hloaded.others rfl⟩, fun hv => hexec.trans (interwork_unaligned hv _)⟩
  · have hr : r ≠ 15#4 := fun he => h15 (he ▸ List.mem_of_getElem? hj)
    exact (reg_branched hr _ v).trans ((reg_eq_bankReg hr rfl).trans (hloaded.words j r hj))
  · exact (reg_branched h.notPc _ v).trans ((reg_eq_bankReg h.notPc rfl).trans (hloaded.base hw))

theorem ldm3_pc (h : LoadsList s cond p u w rn list ((listRegs (list.zeroExtend 16)).length + 1))
    (hstatus : s.spsrOf = some status) (hmode : (modeOf (status.extractLsb' 0 5)).isSome = true) :
    let regs := listRegs (list.zeroExtend 16)
    let m := mode4 p u (s.reg rn) (regs.length + 1)
    let v := s.loaded (m.1 + BitVec.ofNat 32 (4 * regs.length)) 4
    (status.getLsbD 5 = true ∨ v.extractLsb' 0 2 = 0#2 →
      Completes (.ldm3 cond p u w rn list) s fun t =>
        (∀ j r, regs[j]? = some r → t.bankReg s.mode r = s.loaded (m.1 + BitVec.ofNat 32 (4 * j)) 4) ∧
          (w = true → t.bankReg s.mode rn = m.2) ∧ t.cpsr = status ∧
          t.pc = (if status.getLsbD 5 then v &&& 0xFFFFFFFE#32 else v) ∧
          Frame (if w then rn :: regs else regs) s { t with dbgUnit := s.dbgUnit }) ∧
    (status.getLsbD 5 = false → v.extractLsb' 0 2 ≠ 0#2 →
      exec (.ldm3 cond p u w rn list) s = .refused .unalignedTarget) := by
  intro regs m v
  obtain ⟨g, notes, hload, hloaded⟩ := loadMultiple_pc h fun target t => t.exceptionReturn (target.getD 0#32)
  have hexec := exec_ldm3 h
  rw [lacksSpsr_eq, hstatus, Option.isNone_some, if_neg Bool.false_ne_true, hload] at hexec
  refine ⟨fun hv => ⟨_, hexec.trans (exceptionReturn_completes hstatus hmode hv.symm), hloaded.words, hloaded.base, rfl,
    rfl, .of hloaded.others rfl⟩, fun ht hv => ?_⟩
  exact hexec.trans (exceptionReturn_unaligned (by exact hstatus) hmode ht hv)

end

/-- Settles O16: after its access each load of the PC is `interwork` or `exceptionReturn` of the word. -/
theorem loadsOfPc : Obligations.LoadsOfPc := by
  intro s cond p u w rn am list status h hp ad x
  refine ⟨fun hr ha => ⟨ldr_pc h hp hr ha, fun hx => (exec_ldr_pc h hp hr ha).trans (interwork_unaligned hx _)⟩, ?_⟩
  intro hrn regs n m v ha hspan hw
  have hload : LoadsList s cond p u w rn list n := ⟨h, hp, hrn, ha, hspan, hw⟩
  obtain ⟨hbranch, hunaligned⟩ := ldm1_pc hload
  refine ⟨hbranch, fun hstatus hmode => ldm3_pc hload hstatus hmode, hunaligned, fun hnone => ?_⟩
  rw [exec_ldm3 hload, lacksSpsr_eq, hnone]
  rfl

end Sys2Proof.Machine

/-!
SUPPORT. Store multiple where data accesses are plain (42_load_store.md R473; 30_encoding.md R298): the words that are
stored, where the base's own word is free, and the base. Settles O17.
-/

namespace Sys2Proof.Machine

/-- The registers of a list with the addresses of their words; no value is stated of a base that is written back, unless
it is the lowest register (42_load_store.md R473). -/
def listedWords (w : Bool) (rn : RegNum) (regs : List RegNum) (value : RegNum → Word) (a : Word) :
    List (Word × Option Word) :=
  regs.mapIdx fun j r => (a + BitVec.ofNat 32 (4 * j), if w && r == rn && decide (j ≠ 0) then none else some (value r))

section

variable {s t : State} {p u w : Bool} {rn : RegNum} {regs : List RegNum} {value : RegNum → Word} {a : Word} {i : Instr}

/-- The base is stored as a free value. -/
def baseSpoilt (w : Bool) (rn : RegNum) (regs : List RegNum) : Bool :=
  w && regs.contains rn && regs.head? != some rn

/-- The lowest register, and every register that is not the written-back base, is stored as it is. -/
theorem not_spoilt {j : Nat} {r : RegNum} (hj : regs[j]? = some r) (hr : ¬ (w && r == rn && decide (j ≠ 0)) = true) :
    ¬ (baseSpoilt w rn regs && r == rn) = true := by
  intro hspoilt
  simp only [baseSpoilt, Bool.and_eq_true, bne_iff_ne, beq_iff_eq] at hspoilt
  obtain ⟨⟨⟨hw, -⟩, hhead⟩, rfl⟩ := hspoilt
  cases j with
  | zero => exact hhead (List.head?_eq_getElem?.trans hj)
  | succ j => exact hr (by simp [hw])

/-- The words of the registers are what is stated of them, whatever the free value is. -/
theorem storedWords_listed {free : Word} (h : WordsStored a
      (regs.map fun r => if baseSpoilt w rn regs && r == rn then free else value r) s t) :
    StoredWords (listedWords w rn regs value a) s t := by
  refine h.storedWords (by rw [listedWords, List.length_mapIdx, List.length_map]) fun j q hq => ?_
  simp only [listedWords, List.getElem?_mapIdx, Option.map_eq_some_iff] at hq
  obtain ⟨r, hj, rfl⟩ := hq
  refine ⟨rfl, fun v hv => ?_⟩
  obtain ⟨hr, hv⟩ := Option.ite_none_left_eq_some.1 hv
  rw [List.getElem?_map, hj, Option.map_some, if_neg (not_spoilt hj hr)]
  exact hv

/-- Consecutive words whose MVAs are consecutive too, fewer than the address space holds, are apart. -/
theorem wordsApart_of_mva {n : Nat} (hn : n ≤ 2 ^ 30)
    (hmva : ∀ j, j < n → s.mva (a + BitVec.ofNat 32 (4 * j)) = s.mva a + BitVec.ofNat 32 (4 * j)) :
    WordsApart s a n := by
  intro i j hij hj
  rw [hmva i (hij.trans hj), hmva j hj, BitVec.toNat_add, BitVec.toNat_add, BitVec.toNat_ofNat, BitVec.toNat_ofNat]
  have := (s.mva a).isLt
  omega

/-- A store multiple runs from the state after the draw of a free value, if there is one. -/
theorem storeMultiple_eq (p u w : Bool) (rn : RegNum) (regs : List RegNum) (value : RegNum → Word) (s : State) :
    ∃ c, storeMultiple p u w rn regs value s =
      runThen (do
          checkSpan (mode4 p u (s.reg rn) regs.length).1 regs.length
          storeWords s.privileged (regs.map fun r => if baseSpoilt w rn regs && r == rn then s.draw.1 else value r)
            (mode4 p u (s.reg rn) regs.length).1)
        (fun _ t => .next (State.advance (t.withBase w rn (mode4 p u (s.reg rn) regs.length).2)))
        { s with freeCtr := c } := by
  obtain ⟨c, hc⟩ : ∃ c, (if baseSpoilt w rn regs then s.draw.2 else s) = { s with freeCtr := c } := by
    split
    · exact ⟨_, rfl⟩
    · exact ⟨s.freeCtr, rfl⟩
  have hpriv : (if baseSpoilt w rn regs then s.draw.2 else s).privileged = s.privileged := by rw [hc]; rfl
  refine ⟨c, ?_⟩
  rw [← hc, ← hpriv]
  rfl

/-- A store multiple that nothing intercepts. -/
theorem storeMultiple_plain (h : s.plainData = true) (hrn : rn ≠ 15#4)
    (hi : exec i s = storeMultiple p u w rn regs value s)
    (ha : s.alignedFor (mode4 p u (s.reg rn) regs.length).1 4 = true)
    (hspan : (mode4 p u (s.reg rn) regs.length).1.toNat / 4 + regs.length ≤ 2 ^ 30)
    (hmva : ∀ j, j < regs.length → s.mva ((mode4 p u (s.reg rn) regs.length).1 + BitVec.ofNat 32 (4 * j)) =
      s.mva (mode4 p u (s.reg rn) regs.length).1 + BitVec.ofNat 32 (4 * j)) :
    Completes i s fun t =>
      StoredWords (listedWords w rn regs value (mode4 p u (s.reg rn) regs.length).1) s t ∧
        (w = true → t.reg rn = (mode4 p u (s.reg rn) regs.length).2) ∧ Advances s t ∧ FlagsKept s t ∧
        RegsKept (if w then [rn] else []) s t ∧ RestKeptButMemory s t := by
  let m := mode4 p u (s.reg rn) regs.length
  let words := regs.map fun r => if baseSpoilt w rn regs && r == rn then s.draw.1 else value r
  have hlength : words.length = regs.length := List.length_map _
  have hapart : WordsApart s m.1 words.length := by
    rw [hlength]
    exact wordsApart_of_mva (by omega) hmva
  obtain ⟨c, hc⟩ := storeMultiple_eq p u w rn regs value s
  obtain ⟨t, hstore, ⟨mem, notes, mods, rfl⟩, hstored⟩ :=
    storeWords_plain (s := { s with freeCtr := c }) h ha s.privileged words hapart
  let t : State := { s with freeCtr := c, mem := mem, scratch := notes, modified := mods }
  have hwords : StoredWords (listedWords w rn regs value m.1) s t :=
    storedWords_listed ⟨hstored.words, hstored.others, hstored.wf⟩
  have hrun : exec i s = .next (t.withBase w rn m.2).advance :=
    hi.trans (hc.trans (runThen_ok ((bind_apply_of_ok (checkSpan_fits hspan _) _).trans hstore)))
  have hkept := regsKept_withBase t w rn m.2
  have hreg (hw : w = true) : (t.withBase w rn m.2).advance.reg rn = m.2 := by
    rw [reg_advance _ _ hrn, reg_eq_bankReg hrn (mode_withBase ..)]
    exact bankReg_withBase hw t hrn m.2
  obtain ⟨g, hg⟩ := withBase_eq t w rn m.2
  rw [hg] at hrun hkept hreg
  exact ⟨_, hrun, hwords, hreg, rfl, rfl, hkept, rfl⟩

end
end Sys2Proof.Machine

namespace Sys2Proof

/-- Settles O17: the two forms differ in the bank whose registers they store (`Machine.storeMultiple_plain`). -/
theorem storeMultiple : Obligations.StoreMultiple := by
  intro s cond p u w rn list h hp hrn hlist regs m at_ ha hspan hmva
  have hrefusal := Machine.listRefusal_none (Machine.listRegs_ne_nil hlist) hrn
  refine ⟨Machine.storeMultiple_plain h hrn (Machine.when_orRefuse_of_none hp hrefusal _) ha hspan hmva, fun hs => ?_⟩
  have hexec : Machine.exec (.stm2 cond p u false rn list) s = Machine.storeMultiple p u false rn regs
      (fun r => if r = 15#4 then s.pcRead else s.bankReg .usr r) s := by
    refine (Machine.when_orRefuse_of_none hp hrefusal _).trans ?_
    rw [hs]
    rfl
  refine (Machine.storeMultiple_plain h hrn hexec ha hspan hmva).mono ?_
  rintro t ⟨hwords, -, hpc, hflags, hregs, hrest⟩
  exact ⟨hwords, hpc, hflags, hregs, hrest⟩

end Sys2Proof

/-!
SUPPORT. PLD (42_load_store.md R476; 21_mmu_caches_tlb.md R192, R244, R246, R260): the page that the data TLB holds,
what of it drops the preload, and the fill. Settles O19.
-/

namespace Sys2Proof.Machine
section

variable {s u : State} {e : TlbEntry} {mva va : Word} {priv write : Bool} {i : Instr}

/-! ### The page -/

theorem not_permits_of_not_permitted {ap : BitVec 2} (h : s.permitted ap priv write = false) :
    permits ap s.systemProt s.romProt priv write ≠ some true := by
  revert h
  unfold State.permitted permits
  generalize s.systemProt = sys, s.romProt = rom
  revert ap sys rom priv write
  decide

/-- What is not granted is an abort or, where the table says nothing, a fault. -/
theorem checkAccess_not_granted (h : s.granted e.domain (e.apFor mva) priv write = false) :
    ∃ trap, checkAccess s e mva priv write = .error trap := by
  simp only [State.granted, Bool.or_eq_false_iff, beq_eq_false_iff_ne, ne_eq, State.domainOf] at h
  obtain ⟨hmanager, hclient⟩ := h
  unfold checkAccess
  split
  · next hdomain =>
    rw [hdomain, beq_self_eq_true, Bool.true_and] at hclient
    split
    · exact ⟨_, rfl⟩
    · exact absurd ‹_› (not_permits_of_not_permitted hclient)
    · exact ⟨_, rfl⟩
  · exact absurd ‹_› hmanager
  · exact ⟨_, rfl⟩

theorem preloadPage_absent (h : s.mmuOn = false ∨ s.dtlb.lookup mva = none) : preloadPage s mva = none := by
  unfold preloadPage
  split
  · next hm =>
    have hlookup : s.dtlb.lookup mva = none := h.resolve_left (by rw [hm]; decide)
    rw [hlookup]
  · rfl

theorem preloadPage_granted (hm : s.mmuOn = true) (he : s.dtlb.lookup mva = some e)
    (h : s.granted e.domain (e.apFor mva) s.privileged false = true) : preloadPage s mva = some e := by
  simp only [preloadPage, hm, he, checkAccess_granted h, if_true]

theorem preloadPage_not_granted (hm : s.mmuOn = true) (he : s.dtlb.lookup mva = some e)
    (h : s.granted e.domain (e.apFor mva) s.privileged false = false) : preloadPage s mva = none := by
  obtain ⟨trap, htrap⟩ := checkAccess_not_granted h
  simp only [preloadPage, hm, he, htrap, if_true]

/-! ### The preload, outcome by outcome -/

theorem preload_none (h : preloadPage s (s.mva va) = none) : preload va s = .ok () s := by
  simp only [preload, get_bind_apply, h]
  rfl

section
variable (hpage : preloadPage s (s.mva va) = some e)
include hpage

theorem preload_uncacheable (hc : s.cacheable e.attrs = false) : preload va s = .ok () s := by
  simp only [preload, get_bind_apply, hpage, hc, Bool.not_false, if_true]
  rfl

theorem preload_resident (hc : s.cacheable e.attrs = true) (hf : (s.findDLine (s.mva va)).isSome = true) :
    preload va s = .ok () (s.noteAccess false) := by
  simp only [preload, get_bind_apply, hpage, hc, hf, Bool.not_true, Bool.false_eq_true, if_false, if_true]
  rfl

variable (hc : s.cacheable e.attrs = true) (hf : s.findDLine (s.mva va) = none)
include hc hf

theorem preload_reserved (hr : s.reservedAttrs e.attrs = true) :
    preload va s = .error (.fault .reservedAttributes) s := by
  simp only [preload, get_bind_apply, hpage, hc, hf, hr, Option.isSome_none, Bool.not_true, Bool.false_eq_true,
    if_false, if_true]
  rfl

/-- The fill, whatever its answer is. -/
theorem preload_fill (hr : s.reservedAttrs e.attrs = false) :
    preload va s =
      (fillLine e.attrs.mini (s.mva va) (e.physical (s.mva va)) false >>= fun _ => pure ()) (s.noteAccess true) := by
  simp only [preload, get_bind_apply, hpage, hc, hf, hr, Option.isSome_none, Bool.not_true, Bool.false_eq_true,
    if_false, set_bind_apply]

end

/-! ### The fill -/

/-- A fill that the bus answers with an error brings nothing in; PLD does not latch the error. -/
theorem fillLine_busError {mini : Bool} {pa : Word} (hw : s.writeBuffer = [])
    (hbus : s.regionAt (lineBase pa) 32 = some .busError) : fillLine mini mva pa false s = .ok false s := by
  have hread : busRead (lineBase pa) 32 s = .ok none s := by
    simp only [busRead, modify_bind_apply, get_bind_apply, fence_of_empty hw, hbus]
    rfl
  rw [fillLine, bind_apply_of_ok hread]
  rfl

theorem bind_apply_of_error {α β : Type} {x : Exec α} {trap : Trap} (h : x s = .error trap u) (f : α → Exec β) :
    (x >>= f) s = .error trap u := by
  simp only [bind, EStateM.bind, h]

theorem allocateLine_locking (hlock : s.cp15.dcacheLock = true) (mva pa : Word) (data : List Byte) :
    allocateLine true mva pa data s = .error (.refuse .lockFunction) s := by
  simp only [allocateLine, get_bind_apply, hlock, if_true]
  rfl

/-- A locking fill of the mini-data cache has no meaning (U9). -/
theorem fillLine_locking (hm : s.physMap = []) (hw : s.writeBuffer = []) (hlock : s.cp15.dcacheLock = true)
    (mva pa : Word) (latch : Bool) : fillLine true mva pa latch s = .error (.refuse .lockFunction) s := by
  rw [fillLine, bind_apply_of_ok (busRead_memory hm hw _ _)]
  exact bind_apply_of_error (allocateLine_locking hlock mva pa _) _

/-! ### What PLD does with it -/

variable (hi : exec i s = runThen (preload va) (fun _ t => .next t.advance) s)
include hi

/-- No effect but the PC, and the notes of the access. -/
theorem pld_ignored {notes : Scratch} (h : preload va s = .ok () { s with scratch := notes }) :
    Completes i s fun t => Advances s t ∧ FlagsKept s t ∧ Frame [] s t :=
  ⟨_, hi.trans (runThen_ok h), rfl, rfl, .of_eq rfl rfl⟩

variable (hpage : preloadPage s (s.mva va) = some e) (hc : s.cacheable e.attrs = true)
  (hf : s.findDLine (s.mva va) = none) (hr : s.reservedAttrs e.attrs = false) (hw : s.writeBuffer = [])
include hpage hc hf hr hw

theorem pld_busError (hbus : s.regionAt (lineBase (e.physical (s.mva va))) 32 = some .busError) :
    Completes i s fun t => Advances s t ∧ FlagsKept s t ∧ Frame [] s t :=
  pld_ignored hi ((preload_fill hpage hc hf hr).trans
    (bind_apply_of_ok (fillLine_busError (s := s.noteAccess true) hw hbus) _))

theorem pld_locking (hm : s.physMap = []) (hmini : e.attrs.mini = true) (hlock : s.cp15.dcacheLock = true) :
    exec i s = .refused .lockFunction := by
  have hfill : fillLine e.attrs.mini (s.mva va) (e.physical (s.mva va)) false (s.noteAccess true) =
      .error (.refuse .lockFunction) (s.noteAccess true) := by
    rw [hmini]
    exact fillLine_locking (s := s.noteAccess true) hm hw hlock _ _ _
  have hpreload := (preload_fill hpage hc hf hr).trans (bind_apply_of_error hfill _)
  exact hi.trans (runThen_error hpreload)

theorem pld_fills (hm : s.physMap = []) (hempty : s.emptyDCaches)
    (hlock : e.attrs.mini = true → s.cp15.dcacheLock = false) :
    Completes i s fun t => Filled e.attrs.mini (s.mva va) (e.physical (s.mva va)) s t ∧
      LocksKeptBut e.attrs.mini (s.mva va) s t ∧ Advances s t ∧ FlagsKept s t ∧ RegsKept [] s t ∧ BytesKept s t ∧
      RestKept s { t with dcache := s.dcache, miniDc := s.miniDc } := by
  obtain ⟨u, halloc, ⟨slot, hline⟩, hlocks, d, m, rfl⟩ :=
    allocateLine_empty (s := s.noteAccess true) (mva := s.mva va) (pa := e.physical (s.mva va))
      (data := s.busBytes (lineBase (e.physical (s.mva va))) 32) hempty hlock
  have hfill := fillLine_memory (s := s.noteAccess true) hm hw (latch := false) halloc
  refine ⟨_, hi.trans (runThen_ok ((preload_fill hpage hc hf hr).trans (bind_apply_of_ok hfill _))),
    ⟨slot, _, hline, rfl, rfl, rfl, rfl, fun i hi => busBytes_lineBase s _ hi⟩, hlocks, rfl, rfl, fun _ _ => rfl,
    fun _ => rfl, rfl⟩

end
end Sys2Proof.Machine

namespace Sys2Proof

/-- Settles O19: the two forms differ in the address; what the preload does is said outcome by outcome. -/
theorem preload : Obligations.Preload := by
  intro s up rn rm off12 amt sh preloads
  have hall : ∀ i va,
      Machine.exec i s = Machine.runThen (Machine.preload va) (fun _ t => .next t.advance) s → preloads i va := by
    intro i va hi
    let mva := s.mva va
    have hdropped (h : Machine.preloadPage s mva = none) := Machine.pld_ignored hi (Machine.preload_none h)
    refine ⟨fun h => hdropped (Machine.preloadPage_absent h), fun e hm he => ?_⟩
    intro pa grants
    refine ⟨fun h => ?_, fun hg hc hf => ?_⟩
    · cases hg : grants with
      | false => exact hdropped (Machine.preloadPage_not_granted hm he hg)
      | true =>
        have hpage := Machine.preloadPage_granted hm he hg
        cases hc : s.cacheable e.attrs with
        | false => exact Machine.pld_ignored hi (Machine.preload_uncacheable hpage hc)
        | true =>
          have hf : (s.findDLine mva).isSome = true := by simpa [hg, hc] using h
          exact Machine.pld_ignored hi (Machine.preload_resident hpage hc hf)
    · have hpage := Machine.preloadPage_granted hm he hg
      refine ⟨fun hr => hi.trans (Machine.runThen_error (Machine.preload_reserved hpage hc hf hr)), fun hr hw =>
        ⟨Machine.pld_busError hi hpage hc hf hr hw, Machine.pld_locking hi hpage hc hf hr hw,
          Machine.pld_fills hi hpage hc hf hr hw⟩⟩
  exact ⟨hall _ _ rfl, fun hrm => hall _ _ (if_neg hrm), fun hrm => if_pos hrm⟩

end Sys2Proof

/-!
SUPPORT. The branches: the target of a direct branch, what the branch target buffer may change, and the link register
before the state changes (43_branch_status_system.md R500 to R504, R520). Settles O23 and O24.
-/

namespace Sys2Proof.Machine
section

variable {s : State} {cond : BitVec 4} {rm : RegNum}

/-! ### The pieces of a branch -/

/-- The offset field counts words: it is extended with its sign once two zero bits stand under it. -/
theorem signExtend_shift_two (imm24 : BitVec 24) :
    (imm24.signExtend 32) <<< 2 = (imm24 ++ 0#2).signExtend 32 := by
  refine BitVec.eq_of_getLsbD_eq fun i hi => ?_
  simp only [BitVec.getLsbD_shiftLeft, BitVec.getLsbD_signExtend, BitVec.getLsbD_append, BitVec.msb_append, hi,
    decide_true, Bool.true_and]
  by_cases h2 : i < 2
  · simp [h2, show i < 26 by omega]
  · by_cases h24 : i - 2 < 24
    · simp [h2, h24, show i < 26 by omega, show i - 2 < 32 by omega]
    · simp [h2, h24, show ¬ i < 26 by omega, show i - 2 < 32 by omega]

theorem branchTarget_eq (s : State) (imm24 : BitVec 24) :
    s.branchTarget imm24 = s.pc + 8#32 + (imm24 ++ 0#2).signExtend 32 :=
  congrArg (s.pc + 8#32 + ·) (signExtend_shift_two imm24)

/-- A taken B or BL: the branch target buffer may have changed before the link and the branch. -/
theorem directBranch_taken (target : Word) (link : State → State) (s : State) :
    ∃ b, directBranch true target none link s = .next ((link { s.noteBranch with btb := b }).jump target false) := by
  obtain ⟨b, hb⟩ := btbUpdate_eq (s := s.noteBranch) target true none
  exact ⟨b, by rw [directBranch, hb]; rfl⟩

theorem mode_setThumb (s : State) (b : Bool) : (s.setThumb b).mode = s.mode := by
  cases b
  · exact mode_branched s 0#32
  · exact mode_branched s 1#32

theorem reg_setThumb {r : RegNum} (hr : r ≠ 15#4) (s : State) (b : Bool) : (s.setThumb b).reg r = s.reg r :=
  reg_congr s (s.setThumb b) r hr rfl (mode_setThumb s b)

theorem linkNext_eq (s : State) : s.linkNext = s.setBankReg s.mode 14#4 (s.pc + 4#32) := by
  rw [State.linkNext, State.setReg, if_neg (by decide)]

@[simp] theorem cpsr_linkNext (s : State) : s.linkNext.cpsr = s.cpsr := setReg_cpsr s _ _

theorem bankReg_linkNext (s : State) : s.linkNext.bankReg s.mode 14#4 = s.pc + 4#32 :=
  bankReg_setReg_self s _ _ (by decide)

theorem reg_linkNext (s : State) : s.linkNext.reg 14#4 = s.pc + 4#32 := reg_setReg_self s _ _ (by decide)

theorem frame_linkNext (s : State) : Frame [14#4] s s.linkNext := frame_setReg s _ _

/-- The note of the branch, the link, and then an update of the CPSR, the PC and the notes alone. -/
theorem frame_linked {t : State} (hg : t.gpr = s.noteBranch.linkNext.gpr) (hr : RestKept s.noteBranch.linkNext t) :
    Frame [14#4] s t :=
  ((frame_noteBranch s).trans rfl (frame_linkNext s.noteBranch)).trans (mode_setReg s.noteBranch _ _) (.of_eq hg hr)

/-! ### B, BL and BLX with an offset -/

theorem exec_b (h : s.passes cond = true) (imm24 : BitVec 24) :
    exec (.b cond imm24) s = directBranch true (s.branchTarget imm24) none (fun t => t) s :=
  congrArg (directBranch · (s.branchTarget imm24) none (fun t => t) s) h

theorem exec_bl (h : s.passes cond = true) (imm24 : BitVec 24) :
    exec (.bl cond imm24) s = directBranch true (s.branchTarget imm24) none State.linkNext s :=
  congrArg (directBranch · (s.branchTarget imm24) none State.linkNext s) h

theorem completes_b (h : s.passes cond = true) (imm24 : BitVec 24) :
    Completes (.b cond imm24) s fun t =>
      t.pc = s.branchTarget imm24 ∧ FlagsKept s t ∧ Frame [] s { t with btb := s.btb } := by
  obtain ⟨b, hb⟩ := directBranch_taken (s.branchTarget imm24) (fun t => t) s
  exact ⟨_, (exec_b h imm24).trans hb, rfl, rfl, .of_eq rfl rfl⟩

theorem completes_bl (h : s.passes cond = true) (imm24 : BitVec 24) :
    Completes (.bl cond imm24) s fun t =>
      t.pc = s.branchTarget imm24 ∧ t.reg 14#4 = s.pc + 4#32 ∧ FlagsKept s t ∧
        Frame [14#4] s { t with btb := s.btb } := by
  obtain ⟨b, hb⟩ := directBranch_taken (s.branchTarget imm24) State.linkNext s
  have hframe := frame_linkNext { s.noteBranch with btb := b }
  refine ⟨_, (exec_bl h imm24).trans hb, rfl, reg_linkNext { s.noteBranch with btb := b }, cpsr_linkNext _,
    .of hframe.1 ?_⟩
  rw [linkNext_eq]
  rfl

/-- BLX with an offset changes the state to Thumb after R14 is written. -/
theorem completes_blx1 (h : Bool) (imm24 : BitVec 24) (s : State) :
    Completes (.blx1 h imm24) s fun t =>
      t.pc = s.branchTarget imm24 + (if h then 2#32 else 0#32) ∧ t.reg 14#4 = s.pc + 4#32 ∧ t.thumb = true ∧
        t.cpsr &&& 0xFFFFFFDF#32 = s.cpsr &&& 0xFFFFFFDF#32 ∧ Frame [14#4] s t := by
  have hlink : (s.noteBranch.linkNext.setThumb true).reg 14#4 = s.pc + 4#32 :=
    (reg_setThumb (by decide) s.noteBranch.linkNext true).trans (reg_linkNext s.noteBranch)
  have hcpsr := setThumb_allButT s.noteBranch.linkNext true
  rw [cpsr_linkNext] at hcpsr
  exact ⟨_, rfl, rfl, hlink, thumb_setThumb (s := s.noteBranch.linkNext) true, hcpsr,
    frame_linked rfl rfl⟩

/-! ### BX and BLX with a register -/

variable (h : s.passes cond = true)
include h

theorem exec_bx : exec (.bx cond rm) s = s.noteBranch.interwork (s.reg rm) := when_pass_noted h _ _

theorem exec_blx2 (hrm : rm ≠ 15#4) : exec (.blx2 cond rm) s = s.noteBranch.linkNext.interwork (s.reg rm) :=
  (when_pass_noted h _ _).trans (if_neg hrm)

theorem exec_blx2_pc : exec (.blx2 cond 15#4) s = .refused .r15Operand := (when_pass_noted h _ _).trans (if_pos rfl)

theorem completes_bx (hv : (s.reg rm).extractLsb' 0 2 ≠ 2#2) :
    Completes (.bx cond rm) s fun t => Interworks (s.reg rm) s t ∧ Frame [] s t :=
  ⟨_, (exec_bx h).trans (interwork_legal hv _), interworks_branched rfl _, .of_eq rfl rfl⟩

theorem completes_blx2 (hv : (s.reg rm).extractLsb' 0 2 ≠ 2#2) (hrm : rm ≠ 15#4) :
    Completes (.blx2 cond rm) s fun t =>
      Interworks (s.reg rm) s t ∧ t.bankReg s.mode 14#4 = s.pc + 4#32 ∧ Frame [14#4] s t := by
  exact ⟨_, (exec_blx2 h hrm).trans (interwork_legal hv _), interworks_branched (cpsr_linkNext s.noteBranch) _,
    bankReg_linkNext s.noteBranch, frame_linked rfl rfl⟩

end

/-- Settles O23: the target of the statement is the model's (`branchTarget_eq`). -/
theorem directBranches : Obligations.DirectBranches := by
  intro s cond imm24 h hp target
  have htarget : target = s.branchTarget imm24 := (branchTarget_eq s imm24).symm
  rw [htarget]
  exact ⟨completes_b hp imm24, completes_bl hp imm24, completes_blx1 h imm24 s⟩

/-- Settles O24: both forms end in the branch that takes the state from Rm, whose value was read first. -/
theorem exchangeBranches : Obligations.ExchangeBranches := by
  intro s cond rm h v
  refine ⟨fun hv => ⟨completes_bx h hv, completes_blx2 h hv⟩, fun hv => ⟨?_, fun hrm => ?_⟩, exec_blx2_pc h⟩
  · exact (exec_bx h).trans (interwork_unaligned hv _)
  · exact (exec_blx2 h hrm).trans (interwork_unaligned hv _)

end Sys2Proof.Machine

/-!
SUPPORT. The status register instructions: MRS as a register write, MSR to the CPSR and to an SPSR by the bits under its
mask (43_branch_status_system.md R510, R511). Settles O25 and O26.
-/

namespace Sys2Proof.Machine
section

variable {s : State} {cond : BitVec 4} {rd rm : RegNum} {w : Word}

theorem spsrOf_none (h : s.mode = .usr ∨ s.mode = .sys) : s.spsrOf = none := by
  unfold State.spsrOf
  rcases h with h | h <;> rw [h] <;> rfl

/-! ### MRS -/

section

variable (h : s.passes cond = true)
include h

theorem exec_mrs_cpsr (hrd : rd ≠ 15#4) : exec (.mrs cond false rd) s = .next (s.setReg rd s.cpsr).advance :=
  (when_pass h _).trans (if_neg hrd)

theorem exec_mrs_spsr (hrd : rd ≠ 15#4) (hw : s.spsrOf = some w) :
    exec (.mrs cond true rd) s = .next (s.setReg rd w).advance := by
  refine (when_pass h _).trans ((if_neg hrd).trans ?_)
  rw [hw]
  rfl

theorem exec_mrs_noSpsr (hrd : rd ≠ 15#4) (hw : s.spsrOf = none) :
    exec (.mrs cond true rd) s = .refused .noSpsr := by
  refine (when_pass h _).trans ((if_neg hrd).trans ?_)
  rw [hw]
  rfl

theorem exec_mrs_pc (r : Bool) : exec (.mrs cond r 15#4) s = .refused .r15Operand := (when_pass h _).trans (if_pos rfl)

end

/-- A word into a register, then the next instruction. -/
theorem completes_setReg {i : Instr} (hrd : rd ≠ 15#4) (hi : exec i s = .next (s.setReg rd w).advance) :
    Completes i s fun t => t.reg rd = w ∧ Advances s t ∧ FlagsKept s t ∧ Frame [rd] s t := by
  obtain ⟨t, ht, hreg, hpc, hframe, hflags⟩ :=
    completes_flagged (sf := false) (n := false) (z := false) (c := false) (v := false) (writesRegs_setReg s rd w) hi
  exact ⟨t, ht, (hreg rd hrd).trans (reg_setReg_self s rd w hrd), hpc, hflags, hframe⟩

/-! ### MSR to the CPSR -/

/-- The bits of the CPSR that MSR writes: in User mode the five flags alone (43_branch_status_system.md R511). -/
def State.statusMask (s : State) (mask : BitVec 4) : Word :=
  if s.mode = .usr then byteMask mask &&& 0xF8000000#32 else byteMask mask

/-- The CPSR that MSR writes. -/
def State.newStatus (s : State) (mask : BitVec 4) (v : Word) : Word := mergeBits s.cpsr v (s.statusMask mask)

variable {mask : BitVec 4} {v : Word}

theorem writeCpsr_user (h : s.mode = .usr) :
    writeCpsr mask v s = .next { s with cpsr := s.newStatus mask v, pc := s.pc + s.instrBytes } := by
  have hpriv : ¬ s.privileged = true := fun hp => (privileged_iff s).1 hp h
  rw [State.newStatus, State.statusMask, if_pos h]
  exact if_neg hpriv

theorem writeCpsr_thumbBit (h : s.mode ≠ .usr) (ht : (s.newStatus mask v).getLsbD 5 ≠ s.cpsr.getLsbD 5) :
    writeCpsr mask v s = .refused .thumbBitChange := by
  rw [State.newStatus, State.statusMask, if_neg h] at ht
  exact (if_pos ((privileged_iff s).2 h)).trans (if_pos ht)

/-- Outside DEBUG mode a privileged write that keeps T and names a mode is done. -/
theorem writeCpsr_privileged (h : s.mode ≠ .usr) (hd : s.inDebug = false)
    (ht : (s.newStatus mask v).getLsbD 5 = s.cpsr.getLsbD 5)
    (hm : (modeOf ((s.newStatus mask v).extractLsb' 0 5)).isSome = true) :
    writeCpsr mask v s = .next { s with cpsr := s.newStatus mask v, pc := s.pc + s.instrBytes } := by
  have hlegal : ¬ (modeOf ((s.newStatus mask v).extractLsb' 0 5)).isNone = true := by
    simpa [Option.isSome_iff_ne_none] using hm
  have hdebug : ¬ (s.inDebug && modeBits (s.newStatus mask v) == .usr) = true := by simp [hd]
  rw [State.newStatus, State.statusMask, if_neg h] at ht hlegal hdebug ⊢
  exact (if_pos ((privileged_iff s).2 h)).trans
    ((if_neg (not_not_intro ht)).trans ((if_neg hlegal).trans (if_neg hdebug)))

/-- What O26 says of an instruction that writes a word to the CPSR. -/
theorem writesStatus {i : Instr} (hi : exec i s = writeCpsr mask v s) (hd : s.inDebug = false) :
    ((s.newStatus mask v).getLsbD 5 = s.cpsr.getLsbD 5 ∧
          (modeOf ((s.newStatus mask v).extractLsb' 0 5)).isSome = true ∨ s.mode = .usr →
        Completes i s fun t => t.cpsr = s.newStatus mask v ∧ Advances s t ∧ Frame [] s t) ∧
      (s.mode ≠ .usr → (s.newStatus mask v).getLsbD 5 ≠ s.cpsr.getLsbD 5 → exec i s = .refused .thumbBitChange) := by
  refine ⟨fun hlegal => ?_, fun hm ht => hi.trans (writeCpsr_thumbBit hm ht)⟩
  have hwrite : writeCpsr mask v s = .next { s with cpsr := s.newStatus mask v, pc := s.pc + s.instrBytes } := by
    by_cases hm : s.mode = .usr
    · exact writeCpsr_user hm
    · obtain ⟨ht, hmode⟩ := hlegal.resolve_right hm
      exact writeCpsr_privileged hm hd ht hmode
  exact ⟨_, hi.trans hwrite, rfl, rfl, .of_eq rfl rfl⟩

/-! ### MSR to an SPSR -/

theorem writeSpsr_noSpsr (h : s.spsrOf = none) : writeSpsr mask v s = .refused .noSpsr := by
  rw [writeSpsr, h]

theorem setSpsr_eq {m : Mode} {k : Fin 6} (h : m.spsrIndex = some k) (s : State) (v : Word) :
    s.setSpsr m v = { s with spsr := s.spsr.set k.val v } := by
  simp only [State.setSpsr, h]

theorem writeSpsr_eq {k : Fin 6} (h : s.mode.spsrIndex = some k) :
    writeSpsr mask v s =
      .next { s with spsr := s.spsr.set k.val (mergeBits s.spsr[k.val] v (byteMask mask)) }.advance := by
  rw [writeSpsr, State.spsrOf, h]
  exact congrArg (fun t : State => Host.Outcome.next t.advance) (setSpsr_eq h s _)

theorem savesStatus {i : Instr} {k : Fin 6} (hi : exec i s = writeSpsr mask v s) (h : s.mode.spsrIndex = some k) :
    Completes i s fun t =>
      t.spsr[k.val] = mergeBits s.spsr[k.val] v (byteMask mask) ∧
        (∀ j : Fin 6, j ≠ k → t.spsr[j.val] = s.spsr[j.val]) ∧ Advances s t ∧ FlagsKept s t ∧
        Frame [] s { t with spsr := s.spsr } := by
  refine ⟨_, hi.trans (writeSpsr_eq h), Vector.getElem_set_self k.isLt, fun j hj => ?_, rfl, rfl, .of_eq rfl rfl⟩
  exact Vector.getElem_set_ne k.isLt j.isLt fun he => hj (Fin.ext he.symm)

/-! ### The two forms of MSR -/

section

variable (h : s.passes cond = true)
include h

theorem exec_msrImm (r : Bool) (mask rot : BitVec 4) (imm8 : BitVec 8) :
    exec (.msrImm cond r mask rot imm8) s =
      if r then writeSpsr mask ((imm8.zeroExtend 32).rotateRight (2 * rot.toNat)) s
      else writeCpsr mask ((imm8.zeroExtend 32).rotateRight (2 * rot.toNat)) s := by
  have hvalue : (immOperand rot imm8 false).value = (imm8.zeroExtend 32).rotateRight (2 * rot.toNat) :=
    BitVec.rotateRight_mod_eq_rotateRight
  rw [← hvalue]
  exact when_pass h _

theorem exec_msrReg (hrm : rm ≠ 15#4) (r : Bool) (mask : BitVec 4) :
    exec (.msrReg cond r mask rm) s = if r then writeSpsr mask (s.reg rm) s else writeCpsr mask (s.reg rm) s :=
  (when_pass h _).trans (if_neg hrm)

theorem exec_msrReg_pc (r : Bool) (mask : BitVec 4) : exec (.msrReg cond r mask 15#4) s = .refused .r15Operand :=
  (when_pass h _).trans (if_pos rfl)

end
end

/-- Settles O25: MRS is a register write of the status word. -/
theorem readStatus : Obligations.ReadStatus := by
  intro s cond rd w h reads
  refine ⟨fun hrd => ⟨?_, fun hw => ?_, fun hm => ?_⟩, exec_mrs_pc h⟩
  · exact completes_setReg hrd (exec_mrs_cpsr h hrd)
  · exact completes_setReg hrd (exec_mrs_spsr h hrd hw)
  · exact exec_mrs_noSpsr h hrd (spsrOf_none hm)

/-- Settles O26: an immediate and a register are written alike. -/
theorem writeStatus : Obligations.WriteStatus := by
  intro s cond mask rot imm8 rm k h hd field byte m new writes saves imm
  have hwrites : ∀ i v, exec i s = writeCpsr mask v s → writes i v := fun i v hi => writesStatus hi hd
  refine ⟨hwrites _ _ (exec_msrImm h false ..), fun hrm => hwrites _ _ (exec_msrReg h hrm false mask),
    fun hk => ⟨savesStatus (exec_msrImm h true ..) hk, fun hrm => savesStatus (exec_msrReg h hrm true mask) hk⟩,
    fun hm => ?_, fun r => exec_msrReg_pc h r mask⟩
  exact (exec_msrImm h true ..).trans (writeSpsr_noSpsr (spsrOf_none hm))

end Sys2Proof.Machine

/-!
SUPPORT. The exceptions that instructions take: what an exception entry leaves with debugging off, and the two debug
entries of BKPT (43_branch_status_system.md R515, R516; 48_debug_jtag.md R790; 60_exceptions.md R880 to R884). Settles
O27 and O28.
-/

namespace Sys2Proof.Machine
section

variable {s t u : State} {m : Mode} {offset link : Word} {f : Bool}

/-! ### What an entry leaves -/

/-- The note of how the control went is not part of what an entry leaves. -/
theorem Entered.flowTo (h : Entered m offset link f s t) (flow : Flow) : Entered m offset link f s (t.flowTo flow) := h

/-- The entry of an exception, as the table of R882 has it. -/
theorem entered_enterFrom (e : Exception) (s : State) :
    Entered e.mode e.offset (e.link s.pc s.thumb) (e == .fiq) s (e.enterFrom s) :=
  entered_enter s e.mode e.offset (e.link s.pc s.thumb) (e == .fiq)

/-- Before the entry the FSR, the count of free values and the debug unit may have changed. -/
theorem Entered.of_prepared {fsr : Word} {n : Nat} {d : Debug}
    (hu : u = { s with cp15 := { s.cp15 with fsr := fsr }, freeCtr := n, dbgUnit := d })
    (h : Entered m offset link f u t) : Entered m offset link f s t := by
  subst hu
  obtain ⟨hlink, hregs, hspsr, hmode, hthumb, hI, hF, hcpsr, hpc, hbytes, hrest⟩ := h
  refine ⟨hlink, hregs, hspsr, hmode, hthumb, hI, hF, hcpsr, hpc, hbytes, ?_⟩
  exact congrArg (fun x : State => { x with
    cp15 := { x.cp15 with fsr := s.cp15.fsr, far := s.cp15.far }, freeCtr := s.freeCtr, dbgUnit := s.dbgUnit }) hrest

/-! ### SWI and Undefined Instruction -/

/-- What O27 says that a software trap leaves. -/
def Trapped (m : Mode) (vector : Word) (s t : State) : Prop :=
  Entered m vector (s.pc + s.instrBytes) false s t ∧ t.cp15 = s.cp15 ∧ t.dbgUnit = s.dbgUnit

theorem trapped_swi (h : s.debugOn = false) : Trapped .svc 0x08#32 s (takeException .swi s) := by
  have hoffset : Exception.swi.offset = 0x08#32 := by decide
  rw [takeException_of_debugOff h, ← hoffset]
  exact ⟨entered_enterFrom .swi s, rfl, rfl⟩

theorem trapped_undefined (h : s.debugOn = false) : Trapped .und 0x04#32 s (takeException .undefined s) := by
  have hoffset : Exception.undefined.offset = 0x04#32 := by decide
  rw [takeException_of_debugOff h, ← hoffset]
  exact ⟨entered_enterFrom .undefined s, rfl, rfl⟩

theorem noDebug_iff : s.noDebug = true ↔ s.debugOn = false ∧ s.dbgUnit.sds = false := by
  simp [State.noDebug]

variable {i : Instr}

theorem completes_swi (h : s.noDebug = true) (hi : exec i s = softwareInterrupt s) :
    Completes i s (Trapped .svc 0x08#32 s) := by
  obtain ⟨hoff, hsds⟩ := noDebug_iff.1 h
  obtain ⟨hentered, hcp15, hdbg⟩ := trapped_swi hoff
  have hsoft : softwareInterrupt s = .next ((takeException .swi s).flowTo .trap) :=
    if_neg (by rw [hsds]; exact Bool.false_ne_true)
  exact ⟨_, hi.trans hsoft, hentered.flowTo .trap, hcp15, hdbg⟩

theorem completes_undefined (h : s.noDebug = true) (hi : exec i s = undefinedInstr s) :
    Completes i s (Trapped .und 0x04#32 s) :=
  ⟨_, hi.trans (undefinedInstr_of_noDebug h), trapped_undefined (noDebug_iff.1 h).1⟩

/-! ### BKPT -/

theorem exec_bkpt {immHi : BitVec 12} {immLo : BitVec 4} {imm8 : BitVec 8} :
    ∀ i ∈ [Instr.bkpt immHi immLo, .tBkpt imm8], exec i s = softwareBreakpoint s := by
  simp only [List.forall_mem_cons]
  exact ⟨rfl, rfl, List.forall_mem_nil _⟩

theorem softwareBreakpoint_off (h : s.debugOn = false) : softwareBreakpoint s = .next s.advance :=
  if_pos (by rw [h]; rfl)

/-- Outside Special Debug State a breakpoint is the debug entry with method of entry 011. -/
theorem softwareBreakpoint_on (h : s.debugOn = true) (hs : s.dbgUnit.sds = false) :
    softwareBreakpoint s = .next ((s.debugEntry 0b011#3 (s.pc + 4#32)).flowTo .trap) := by
  unfold softwareBreakpoint
  rw [h, hs]
  rfl

theorem debugEntry_halt (h : s.haltMode = true) (link : Word) :
    s.debugEntry 0b011#3 link = s.haltEntry 0b011#3 link := if_pos h

theorem debugEntry_monitor (h : s.haltMode = false) (link : Word) :
    s.debugEntry 0b011#3 link = s.monitorEntry 0b011#3 link true := if_neg (by rw [h]; exact Bool.false_ne_true)

/-- DCSR.MOE after an entry (48_debug_jtag.md R768). -/
theorem moe_dcsrOnEntry (d : Word) (moe : BitVec 3) : (dcsrOnEntry d moe).extractLsb' 2 3 = moe := by
  refine BitVec.eq_of_getLsbD_eq fun i hi => ?_
  simp only [dcsrOnEntry, BitVec.getLsbD_extractLsb', BitVec.getLsbD_append, hi, show ¬ 2 + i < 1 by omega,
    show ¬ 2 + i - 1 < 1 by omega, show 2 + i - 1 - 1 = i by omega, decide_true, Bool.true_and, if_true, if_false]

/-- FSR[9] of a Monitor-mode entry (48_debug_jtag.md R790). -/
theorem monitorFsr_debugBit : ∀ (x : BitVec 1) (low : BitVec 8),
    (0#21 ++ x ++ 1#1 ++ 0#1 ++ low : Word).getLsbD 9 = true := by decide

/-- The debug unit after the cause of an entry is noted, in Special Debug State or not. -/
def State.causedUnit (s : State) (moe : BitVec 3) (sds : Bool) : Debug :=
  { (s.debugCause moe).dbgUnit with sds := sds }

/-- A Monitor-mode entry of an instruction writes the FSR, then enters Abort mode at the vector of a prefetch abort. -/
theorem monitorEntry_eq (s : State) (moe : BitVec 3) (link : Word) :
    ∃ (x : BitVec 1) (low : BitVec 8), s.monitorEntry moe link true =
      State.enter { s with cp15 := { s.cp15 with fsr := 0#21 ++ x ++ 1#1 ++ 0#1 ++ low }, freeCtr := s.freeCtr + 1,
                           dbgUnit := s.causedUnit moe s.dbgUnit.sds } .abt link false (s.vectorBase + 0x0C#32) :=
  ⟨_, _, rfl⟩

/-- A breakpoint in Monitor mode is a prefetch abort (48_debug_jtag.md R790, R791). -/
theorem monitorEntry_bkpt (s : State) (link : Word) :
    ∃ t, s.monitorEntry 0b011#3 link true = t ∧ Entered .abt 0x0C#32 link false s t ∧
      t.cp15.fsr.getLsbD 9 = true ∧ t.cp15.far = s.cp15.far ∧ t.dbgUnit.dcsr.extractLsb' 2 3 = 0b011#3 ∧
      t.dbgUnit.sds = s.dbgUnit.sds := by
  obtain ⟨x, low, heq⟩ := monitorEntry_eq s 0b011#3 link
  refine ⟨_, heq, ?_, monitorFsr_debugBit x low, rfl, moe_dcsrOnEntry s.dbgUnit.dcsr 0b011#3, rfl⟩
  exact (entered_enter _ .abt 0x0C#32 link false).of_prepared rfl

/-- The Halt-mode entry (48_debug_jtag.md R790) is at the base of the vectors. -/
theorem haltEntry_eq (s : State) (moe : BitVec 3) (link : Word) :
    s.haltEntry moe link =
      State.enter { s with dbgUnit := s.causedUnit moe true } .dbg link true (s.vectorBase + 0#32) := by
  rw [BitVec.add_zero]
  rfl

theorem haltEntry_bkpt (s : State) (link : Word) :
    ∃ t, s.haltEntry 0b011#3 link = t ∧ Entered .dbg 0#32 link true s t ∧ t.cp15 = s.cp15 ∧
      t.dbgUnit.dcsr.extractLsb' 2 3 = 0b011#3 ∧ t.dbgUnit.sds = true := by
  refine ⟨_, haltEntry_eq s 0b011#3 link, ?_, rfl, moe_dcsrOnEntry s.dbgUnit.dcsr 0b011#3, rfl⟩
  exact (entered_enter _ .dbg 0#32 link true).of_prepared rfl

end

/-- Settles O27: each instruction is the software interrupt or Undefined Instruction. -/
theorem softwareTraps : Obligations.SoftwareTraps := by
  intro s cond imm24 imm8 hi any lo r x y h enters
  have hundefined : ∀ i, exec i s = undefinedInstr s → enters .und 0x04#32 i := fun i => completes_undefined h
  refine ⟨fun hp => ⟨completes_swi h (when_pass hp _), ?_⟩, completes_swi h rfl, ?_⟩
  · simp only [List.forall_mem_cons]
    exact ⟨hundefined _ (when_pass hp _), hundefined _ (when_pass hp _), List.forall_mem_nil _⟩
  · simp only [List.forall_mem_cons]
    exact ⟨hundefined _ rfl, hundefined _ rfl, hundefined _ rfl, hundefined _ rfl, hundefined _ rfl, hundefined _ rfl,
      hundefined _ rfl, hundefined _ rfl, hundefined _ rfl, List.forall_mem_nil _⟩

/-- Settles O28: both encodings are the one breakpoint, whose three outcomes the clauses are. -/
theorem breakpoint : Obligations.Breakpoint := by
  intro s immHi immLo imm8 i hi
  have hexec := exec_bkpt (s := s) i hi
  refine ⟨fun hoff => ?_, fun hon hsds hhalt => ?_, fun hon hsds hhalt => ?_⟩
  · exact ⟨_, hexec.trans (softwareBreakpoint_off hoff), rfl, rfl, frame_advance s⟩
  · obtain ⟨t, ht, hentered, hfsr, hfar, hmoe, hkept⟩ := monitorEntry_bkpt s (s.pc + 4#32)
    have hrun := hexec.trans (softwareBreakpoint_on hon hsds)
    rw [debugEntry_monitor hhalt, ht] at hrun
    exact ⟨_, hrun, hentered.flowTo .trap, hfsr, hfar, hmoe, hkept.trans hsds⟩
  · obtain ⟨t, ht, hentered, hcp15, hmoe, hset⟩ := haltEntry_bkpt s (s.pc + 4#32)
    have hrun := hexec.trans (softwareBreakpoint_on hon hsds)
    rw [debugEntry_halt hhalt, ht] at hrun
    exact ⟨_, hrun, hentered.flowTo .trap, hcp15, hmoe, hset⟩

end Sys2Proof.Machine

/-!
SUPPORT. Who may reach which coprocessor (44_coprocessor.md R541 to R544, R549): each shape of meaning answers Undefined
Instruction where its coprocessor is absent or denied. Settles O31 and O32.
-/

namespace Sys2Proof.Machine
section

variable {s t : State} {cond cp rn crd : BitVec 4} {ad : Address} {m : Mode} {offset link : Word} {f : Bool}

/-- An exception entry is no event for the performance monitor's registers. -/
theorem Entered.pmu (h : Entered m offset link f s t) : t.pmu = s.pmu := by
  obtain ⟨-, -, -, -, -, -, -, -, -, -, hrest⟩ := h
  have hpmu := congrArg State.pmu hrest
  exact hpmu

/-! ### The shapes of meaning -/

section

variable (h : s.passes cond = true)
include h

theorem when_noSuchTransfer (hcp : cp = 0#4 → s.cp0Allowed = false) :
    s.when cond (noSuchTransfer cp s) = undefinedInstr s := by
  refine (when_pass h _).trans (if_neg ?_)
  rintro ⟨hzero, hallowed⟩
  exact Bool.false_ne_true ((hcp hzero).symm.trans hallowed)

theorem when_unlistedMove (hzero : cp = 0#4 → s.cp0Allowed = false)
    (hsystem : cp = 14#4 ∨ cp = 15#4 → s.privileged = false) (why : Refusal) :
    s.keepR13Dbg.when cond (unlistedMove cp why s) = undefinedInstr s := by
  refine (when_pass_noted h _ _).trans ?_
  unfold unlistedMove
  split
  · next hcp => exact if_neg (by rw [hzero hcp]; exact Bool.false_ne_true)
  · refine if_neg ?_
    rintro ⟨hcp, hpriv⟩
    exact Bool.false_ne_true ((hsystem hcp).symm.trans hpriv)

theorem transferCp14_denied (hcp : cp ≠ 14#4 ∨ s.privileged = false) (long : Bool) (body : Result) :
    transferCp14 cond long rn crd cp ad body s = undefinedInstr s := (when_pass h _).trans (if_pos hcp)

theorem transferUnindexed_denied (hcp : cp ≠ 14#4 ∨ s.privileged = false) :
    transferUnindexed cond cp s = undefinedInstr s := (when_pass h _).trans (if_pos hcp)

/-- The eight instructions of CP0 look at CPAR before anything else (44_coprocessor.md R542). -/
theorem when_cp0_denied (hcp : s.cp0Allowed = false) (b : Result) :
    s.when cond (if !s.cp0Allowed then undefinedInstr s else b) = undefinedInstr s :=
  (when_pass h _).trans (if_pos (by rw [hcp]; rfl))

/-- A move from or to a system register in User mode (`moveFrom`, `moveTo`). -/
theorem when_move_denied (hp : s.privileged = false) (b : Result) :
    s.keepR13Dbg.when cond (if s.privileged then b else undefinedInstr s) = undefinedInstr s :=
  (when_pass_noted h _ _).trans (if_neg (by rw [hp]; exact Bool.false_ne_true))

/-! ### The instructions that several clauses name -/

theorem exec_transfers_denied (hcp : cp ≠ 14#4 ∨ s.privileged = false) (u n w : Bool) (a b : BitVec 4)
    (off : BitVec 8) :
    ∀ i ∈ [Instr.ldcOffset cond u n w a b cp off, .ldcPost cond u n a b cp off, .ldcUnindexed cond n a b cp off,
           .stcOffset cond u n w a b cp off, .stcPost cond u n a b cp off, .stcUnindexed cond n a b cp off],
      exec i s = undefinedInstr s := by
  simp only [List.forall_mem_cons]
  exact ⟨transferCp14_denied h hcp _ _, transferCp14_denied h hcp _ _, transferUnindexed_denied h hcp,
    transferCp14_denied h hcp _ _, transferCp14_denied h hcp _ _, transferUnindexed_denied h hcp,
    List.forall_mem_nil _⟩

theorem exec_unlisted_denied (hzero : cp = 0#4 → s.cp0Allowed = false)
    (hsystem : cp = 14#4 ∨ cp = 15#4 → s.privileged = false) (op1 op2 : BitVec 3) (a b c : BitVec 4) :
    ∀ i ∈ [Instr.mcr cond op1 a b cp op2 c, .mrc cond op1 a b cp op2 c], exec i s = undefinedInstr s := by
  simp only [List.forall_mem_cons]
  exact ⟨when_unlistedMove h hzero hsystem _, when_unlistedMove h hzero hsystem _, List.forall_mem_nil _⟩

theorem exec_pairs_denied (hcp : cp = 0#4 → s.cp0Allowed = false) (op2 : BitVec 3) (a b c d : BitVec 4) :
    ∀ i ∈ [Instr.cdp cond a b c cp op2 d, .mcrr cond a b cp c d, .mrrc cond a b cp c d],
      exec i s = undefinedInstr s := by
  simp only [List.forall_mem_cons]
  exact ⟨when_noSuchTransfer h hcp, when_noSuchTransfer h hcp, when_noSuchTransfer h hcp, List.forall_mem_nil _⟩

theorem exec_cp0_denied (hcp : s.cp0Allowed = false) (acc : BitVec 3) (a b : BitVec 4) :
    ∀ i ∈ [Instr.mia cond a acc b, .miaph cond a acc b, .miabb cond a acc b, .miabt cond a acc b,
           .miatb cond a acc b, .miatt cond a acc b, .mar cond a b acc, .mra cond a b acc],
      exec i s = undefinedInstr s := by
  repeat' refine List.forall_mem_cons.2 ⟨when_cp0_denied h hcp _, ?_⟩
  exact List.forall_mem_nil _

end
end

/-- Settles O31: each clause is a list of instructions that answer Undefined Instruction. -/
theorem absentCoprocessors : Obligations.AbsentCoprocessors := by
  intro s cond u n w op1 op2 acc a b c d cp off h hdebug enters
  have henters : ∀ l : List Instr, (∀ i ∈ l, exec i s = undefinedInstr s) → ∀ i ∈ l, enters i :=
    fun l hl i hi => completes_undefined hdebug (hl i hi)
  refine ⟨fun h0 => ?_, fun h0 h14 h15 => ?_, fun h14 => ?_, fun hcp0 => ?_⟩
  · exact henters _ (exec_pairs_denied h (fun he => absurd he h0) op2 a b c d)
  · exact henters _ (exec_unlisted_denied h (fun he => absurd he h0) (fun he => absurd he (not_or.2 ⟨h14, h15⟩))
      op1 op2 a b c)
  · exact henters _ (exec_transfers_denied h (.inl h14) u n w a b off)
  · have hsystem : (0#4 : BitVec 4) = 14#4 ∨ (0#4 : BitVec 4) = 15#4 → s.privileged = false := fun he =>
      absurd he (by decide)
    have hpairs := exec_pairs_denied h (cp := 0#4) (fun _ => hcp0) op2 a b c d
    have hmoves := exec_unlisted_denied h (cp := 0#4) (fun _ => hcp0) hsystem op1 op2 a b c
    simp only [List.forall_mem_cons] at hpairs hmoves
    obtain ⟨hcdp, hmcrr, hmrrc, -⟩ := hpairs
    obtain ⟨hmcr, hmrc, -⟩ := hmoves
    refine henters _ (List.forall_mem_append (l₁ := [_, _, _, _, _, _, _, _]).2
      ⟨exec_cp0_denied h hcp0 acc a b, ?_⟩)
    simp only [List.forall_mem_cons]
    exact ⟨hcdp, hmcr, hmrc, hmcrr, hmrrc, List.forall_mem_nil _⟩

/-- Settles O32: User mode is not privileged, which every access to CP15 and CP14 looks at first. -/
theorem userModeDenied : Obligations.UserModeDenied := by
  intro s cond rd u n w op1 op2 a b c cp off h hdebug hmode denied
  have hpriv : s.privileged = false := by rw [State.privileged, hmode]; rfl
  have hdenied : ∀ i, exec i s = undefinedInstr s → denied i := fun i hi =>
    (completes_undefined hdebug hi).mono fun t ⟨hentered, hcp15, hdbg⟩ => ⟨hentered, hcp15, hdbg, hentered.pmu⟩
  refine ⟨fun i hi => ?_, fun hcp i hi => ?_, ?_⟩
  · exact hdenied i (exec_transfers_denied h (.inr hpriv) u n w a b off i hi)
  · have hzero : cp = 0#4 → s.cp0Allowed = false := by
      rintro rfl
      exact absurd hcp (by decide)
    exact hdenied i (exec_unlisted_denied h hzero (fun _ => hpriv) op1 op2 a b c i hi)
  · repeat' refine List.forall_mem_cons.2 ⟨hdenied _ (when_move_denied h hpriv _), ?_⟩
    exact List.forall_mem_nil _

end Sys2Proof.Machine

/-!
SUPPORT. The 40-bit accumulator (44_coprocessor.md R550 to R557): products as 40-bit vectors, and what the eight
instructions answer where CPAR allows CP0. Settles O41.
-/

namespace Sys2Proof.Machine
section

/-! ### Products modulo 2 to the 40 (44_coprocessor.md R550, R552) -/

theorem acc40_add (x y : Int) : acc40 (x + y) = acc40 x + acc40 y := BitVec.ofInt_add _ _

theorem acc40_mul (x y : Int) : acc40 (x * y) = acc40 x * acc40 y := BitVec.ofInt_mul _ _

theorem acc40_word (v : Word) : acc40 v.toInt = v.signExtend 40 := rfl

theorem acc40_half (v : Word) (top : Bool) : acc40 (signedHalf v top) = (halfOf v top).signExtend 40 := by
  have hhalf : signedHalf v top = halfInt v top := by cases top <;> rfl
  rw [hhalf, halfInt_eq_toInt]
  rfl

theorem acc40_halves (v w : Word) (x y : Bool) : acc40 (signedHalf v x * signedHalf w y) =
    (halfOf v x).signExtend 40 * (halfOf w y).signExtend 40 := by
  rw [acc40_mul, acc40_half, acc40_half]

/-- The top byte of the accumulator, as MRA reads it (44_coprocessor.md R557). -/
theorem extract_accHi (x : BitVec 40) : x.extractLsb' 32 8 = (x >>> 32).truncate 8 :=
  BitVec.eq_of_getLsbD_eq fun i hi => by simp [hi]

/-! ### The meanings of the multiplies, by their shape -/

section

variable (cond : BitVec 4) (rs rm : RegNum) (acc : BitVec 3) (s : State)

theorem exec_mia : exec (.mia cond rs acc rm) s = miaOp cond rs acc rm (fun m n => m.toInt * n.toInt) s := rfl
theorem exec_miaph : exec (.miaph cond rs acc rm) s = miaOp cond rs acc rm (fun m n =>
    signedHalf m false * signedHalf n false + signedHalf m true * signedHalf n true) s := rfl
theorem exec_miabb : exec (.miabb cond rs acc rm) s =
    miaOp cond rs acc rm (fun m n => signedHalf m false * signedHalf n false) s := rfl
theorem exec_miabt : exec (.miabt cond rs acc rm) s =
    miaOp cond rs acc rm (fun m n => signedHalf m false * signedHalf n true) s := rfl
theorem exec_miatb : exec (.miatb cond rs acc rm) s =
    miaOp cond rs acc rm (fun m n => signedHalf m true * signedHalf n false) s := rfl
theorem exec_miatt : exec (.miatt cond rs acc rm) s =
    miaOp cond rs acc rm (fun m n => signedHalf m true * signedHalf n true) s := rfl

end

/-! ### What the meanings answer, register by register -/

variable {s : State} {cond : BitVec 4} {rs rm : RegNum} {i : Instr}

/-- What O41 says of an instruction that writes the accumulator. -/
def Accumulates (s : State) (i : Instr) (a : BitVec 40) : Prop :=
  Completes i s fun t => t.acc0 = a ∧ Advances s t ∧ FlagsKept s t ∧ Frame [] s { t with acc0 := s.acc0 }

theorem accumulates_of_exec {a : BitVec 40} (hi : exec i s = .next ({ s with acc0 := a } : State).advance) :
    Accumulates s i a := ⟨_, hi, rfl, rfl, rfl, .of_eq rfl rfl⟩

variable (h : s.passes cond = true) (hcp : s.cp0Allowed = true)
include h hcp

/-- Where CPAR allows CP0 the instructions look at the accumulator's number, then at their registers. -/
theorem when_cp0_allowed (b : Result) : s.when cond (if !s.cp0Allowed then undefinedInstr s else b) = b :=
  (when_pass h _).trans (if_neg (by rw [hcp]; exact Bool.false_ne_true))

theorem when_cp0_encoding {acc : BitVec 3} (hacc : acc ≠ 0#3) (b : Result) :
    s.when cond (if !s.cp0Allowed then undefinedInstr s else if acc ≠ 0#3 then .refused .cp0Encoding else b) =
      .refused .cp0Encoding := (when_cp0_allowed h hcp _).trans (if_pos hacc)

theorem when_acc0 (b : Result) :
    s.when cond (if !s.cp0Allowed then undefinedInstr s
      else if (0#3 : BitVec 3) ≠ 0#3 then .refused .cp0Encoding else b) = b :=
  (when_cp0_allowed h hcp _).trans (if_neg (not_not_intro rfl))

theorem when_acc0_r15 (hr : rs = 15#4 ∨ rm = 15#4) (b : Result) :
    s.when cond (if !s.cp0Allowed then undefinedInstr s
      else if (0#3 : BitVec 3) ≠ 0#3 then .refused .cp0Encoding
      else if rs = 15#4 ∨ rm = 15#4 then .refused .r15Operand else b) = .refused .r15Operand :=
  (when_acc0 h hcp _).trans (if_pos hr)

variable (hrs : rs ≠ 15#4) (hrm : rm ≠ 15#4)
include hrs hrm

theorem when_acc0_registers (b : Result) :
    s.when cond (if !s.cp0Allowed then undefinedInstr s
      else if (0#3 : BitVec 3) ≠ 0#3 then .refused .cp0Encoding
      else if rs = 15#4 ∨ rm = 15#4 then .refused .r15Operand else b) = b :=
  (when_acc0 h hcp _).trans (if_neg (not_or.2 ⟨hrs, hrm⟩))

theorem accumulates_miaOp {product : Word → Word → Int} {p : BitVec 40}
    (hi : exec i s = miaOp cond rs 0#3 rm product s) (hp : acc40 (product (s.reg rm) (s.reg rs)) = p) :
    Accumulates s i (s.acc0 + p) := by
  subst hp
  exact accumulates_of_exec (hi.trans (when_acc0_registers h hcp hrs hrm _))

theorem accumulates_mar : Accumulates s (.mar cond rs rm 0#3) ((s.reg rs).truncate 8 ++ s.reg rm) := by
  rw [truncate_eq_extract]
  exact accumulates_of_exec (when_acc0_registers h hcp hrs hrm _)

theorem exec_mra_overlap (he : rs = rm) : exec (.mra cond rs rm 0#3) s = .refused .registerOverlap :=
  (when_acc0_registers h hcp hrs hrm _).trans (if_pos he)

/-- MRA writes its two registers, the high one first. -/
theorem exec_mra (hne : rs ≠ rm) : exec (.mra cond rs rm 0#3) s =
    .next ((s.setReg rs (((s.acc0 >>> 32).truncate 8).signExtend 32)).setReg rm (s.acc0.truncate 32)).advance := by
  have hlow : s.acc0.truncate 32 = s.acc0.extractLsb' 0 32 := BitVec.setWidth_eq_extractLsb' (by decide)
  rw [← extract_accHi, hlow]
  exact (when_acc0_registers h hcp hrs hrm _).trans (if_neg hne)

theorem completes_mra (hne : rs ≠ rm) : Completes (.mra cond rs rm 0#3) s fun t =>
    t.reg rs = ((s.acc0 >>> 32).truncate 8).signExtend 32 ∧ t.reg rm = s.acc0.truncate 32 ∧ Advances s t ∧
      FlagsKept s t ∧ Frame [rs, rm] s t := by
  refine ⟨_, exec_mra h hcp hrs hrm hne, ?_, ?_, ?_, ?_, ?_⟩
  · rw [reg_advance _ _ hrs, reg_setReg_of_ne _ _ _ _ hne, reg_setReg_self _ _ _ hrs]
  · rw [reg_advance _ _ hrm, reg_setReg_self _ _ _ hrm]
  · simp [Advances]
  · simp [FlagsKept]
  · exact (frame_setReg_setReg s rs rm _ _).trans (by simp) (frame_advance _)

end

/-- Settles O41: the six multiplies are one shape of meaning (`accumulates_miaOp`), which differ in their product. -/
theorem accumulator : Obligations.Accumulator := by
  intro s cond rs rm h hcp all half m n adds
  refine ⟨fun hrs hrm => ⟨?_, ?_, ?_, ?_, ?_, ?_, ?_, ?_, ?_⟩, fun hr => ?_, fun acc hacc => ?_⟩
  · exact accumulates_miaOp h hcp hrs hrm (exec_mia ..) (by rw [acc40_mul, acc40_word, acc40_word])
  · refine accumulates_miaOp h hcp hrs hrm (exec_miaph ..) ((acc40_add _ _).trans ?_)
    rw [acc40_halves, acc40_halves]
    rfl
  · exact accumulates_miaOp h hcp hrs hrm (exec_miabb ..) (acc40_halves m n false false)
  · exact accumulates_miaOp h hcp hrs hrm (exec_miabt ..) (acc40_halves m n false true)
  · exact accumulates_miaOp h hcp hrs hrm (exec_miatb ..) (acc40_halves m n true false)
  · exact accumulates_miaOp h hcp hrs hrm (exec_miatt ..) (acc40_halves m n true true)
  · exact accumulates_mar h hcp hrs hrm
  · exact completes_mra h hcp hrs hrm
  · exact exec_mra_overlap h hcp hrs hrm
  · repeat' refine List.forall_mem_cons.2 ⟨when_acc0_r15 h hcp hr _, ?_⟩
    exact List.forall_mem_nil _
  · repeat' refine List.forall_mem_cons.2 ⟨when_cp0_encoding h hcp hacc _, ?_⟩
    exact List.forall_mem_nil _

end Sys2Proof.Machine

/-!
SUPPORT. Reads of the registers of CP15 and CP14 (45_cp15_cp14_operations.md R581 to R641): the word that each read
gives and its side effect; MRC takes that word to Rd or to the flags (44_coprocessor.md R545, R547). Settles O33.
-/

namespace Sys2Proof.Machine
section

/-! ### What a read gives -/

/-- The read gives a word that is this value but for the bits under a mask, which are free; it leaves this state, but
for the count of free values (45_cp15_cp14_operations.md R581). -/
def ReadsAs (read : Exec Word) (s : State) (value mask : Word) (after : State) : Prop :=
  ∃ v n, v &&& ~~~mask = value &&& ~~~mask ∧ read s = .ok v { after with freeCtr := n }

/-- The trace buffer after a read of TBREG: the oldest byte is taken out (45_cp15_cp14_operations.md R639). -/
def Trace.popped (tr : Trace) : Trace := { tr with bytes := tblErase tr.bytes tr.pos, pos := (tr.pos + 1) % 256 }

variable {s : State}

theorem readsAs_field (f : State → Word) (s : State) :
    ReadsAs (do let s ← get; pure (f s)) s (f s) 0#32 s := ⟨_, s.freeCtr, rfl, rfl⟩

theorem readsAs_pure (v : Word) (s : State) : ReadsAs (pure v) s v 0#32 s := ⟨_, s.freeCtr, rfl, rfl⟩

theorem merge_under_mask (v w mask : Word) : ((v &&& ~~~mask) ||| (w &&& mask)) &&& ~~~mask = v &&& ~~~mask := by
  apply BitVec.eq_of_getLsbD_eq
  intro i hi
  simp only [BitVec.getLsbD_and, BitVec.getLsbD_or, BitVec.getLsbD_not, hi, decide_true, Bool.true_and]
  cases mask.getLsbD i <;> simp

theorem readsAs_freeUnder (mask v : Word) (s : State) : ReadsAs (freeUnder mask v) s v mask s :=
  ⟨_, _, merge_under_mask v _ mask, rfl⟩

theorem readsAs_free (f : State → Word) (mask : Word) (s : State) :
    ReadsAs (do let s ← get; freeUnder mask (f s)) s (f s) mask s := readsAs_freeUnder mask (f s) s

/-- A register that Halt mode does not lock (48_debug_jtag.md R767). -/
theorem readsAs_readLocked (h : s.debugLocked = false) (f : State → Word) :
    ReadsAs (readLocked f) s (f s) 0#32 s := by
  refine ⟨_, s.freeCtr, rfl, ?_⟩
  unfold readLocked
  rw [get_bind_apply, h]
  rfl

theorem readsAs_readDcsrReg (h : s.debugLocked = false) :
    ReadsAs readDcsrReg s (s.dbgUnit.dcsr &&& 0xC0DF003F#32) 0x3F20FFC0#32 s := by
  have hread : readDcsrReg s = .ok s.readDcsr.1 s.readDcsr.2 := by
    unfold readDcsrReg
    rw [get_bind_apply, h]
    rfl
  have hmask : ~~~0x3F20FFC0#32 = 0xC0DF003F#32 := by decide
  refine ⟨_, _, ?_, hread⟩
  rw [State.readDcsr, ← hmask, merge_under_mask, BitVec.and_assoc, BitVec.and_self]

/-- A read of RX clears RR (45_cp15_cp14_operations.md R637). -/
theorem readsAs_readRx (s : State) : ReadsAs readRx s s.dbgUnit.rx 0#32 (s.setLink 31 false) :=
  ⟨_, s.freeCtr, rfl, rfl⟩

theorem whileTracing_off (h : s.tracing = false) : whileTracing s = .ok ⟨⟩ s := by
  unfold whileTracing
  rw [get_bind_apply, h]
  rfl

theorem readsAs_readTbreg (h : s.tracing = false) :
    ReadsAs readTbreg s (((tblGet s.trace.bytes s.trace.pos).getD 0#8).zeroExtend 32) 0#32
      { s with trace := s.trace.popped } := by
  refine ⟨_, s.freeCtr, rfl, ?_⟩
  unfold readTbreg
  rw [bind_apply_of_ok (whileTracing_off h)]
  rfl

theorem readsAs_readChkpt0 (h : s.tracing = false) : ReadsAs readChkpt0 s s.dbgUnit.chkpt0 0#32 s := by
  refine ⟨_, s.freeCtr, rfl, ?_⟩
  unfold readChkpt0
  rw [bind_apply_of_ok (whileTracing_off h)]
  rfl

theorem readsAs_readChkpt1 (h : s.tracing = false) : ReadsAs readChkpt1 s s.dbgUnit.chkpt1 0#32 s := by
  refine ⟨_, s.freeCtr, rfl, ?_⟩
  unfold readChkpt1
  rw [bind_apply_of_ok (whileTracing_off h)]
  rfl

/-! ### Side effects, and how a statement takes them back -/

/-- The side effects that reads have are on TXRXCTRL and on the trace buffer (45_cp15_cp14_operations.md R637, R639). -/
def ReadEffect (s after : State) : Prop :=
  ∃ link tr, after = { s with dbgUnit := { s.dbgUnit with txrxctrl := link }, trace := tr }

/-- The update takes a side effect back, and touches neither the general registers nor memory. -/
structure Undoes (undo : State → State) (s after : State) : Prop where
  effect : ReadEffect s after
  rest : ∀ t, RestKept after t → RestKept s (undo t)
  gpr : ∀ t, (undo t).gpr = t.gpr
  mem : ∀ t m, { undo t with mem := m } = undo { t with mem := m }

variable {after t u : State} {undo : State → State} {rs : List RegNum}

theorem ReadEffect.gpr (h : ReadEffect s after) : after.gpr = s.gpr := by
  obtain ⟨_, _, rfl⟩ := h
  rfl

theorem ReadEffect.cpsr (h : ReadEffect s after) : after.cpsr = s.cpsr := by
  obtain ⟨_, _, rfl⟩ := h
  rfl

theorem ReadEffect.pc (h : ReadEffect s after) : after.pc = s.pc := by
  obtain ⟨_, _, rfl⟩ := h
  rfl

theorem Undoes.regs (h : Undoes undo s after) (ht : RegsKept rs after t) : RegsKept rs s (undo t) := by
  intro i hi
  rw [← mode_of_cpsr _ _ h.effect.cpsr] at hi
  rw [h.gpr, ht i hi, h.effect.gpr]

theorem Undoes.frame (h : Undoes undo s after) (ht : Frame rs after t) : Frame rs s (undo t) := by
  obtain ⟨hregs, -, hrest⟩ := ht
  exact .of (h.regs hregs) (h.rest t hrest)

theorem undoes_none (s : State) : Undoes id s s :=
  ⟨⟨s.dbgUnit.txrxctrl, s.trace, rfl⟩, fun _ ht => ht, fun _ => rfl, fun _ _ => rfl⟩

theorem undoes_link (s : State) (n : Nat) (b : Bool) :
    Undoes (fun t => { t with dbgUnit := { t.dbgUnit with txrxctrl := s.dbgUnit.txrxctrl } }) s (s.setLink n b) where
  effect := ⟨_, s.trace, rfl⟩
  rest := fun t ht => by
    have hundone := congrArg (fun x : State => { x with
      dbgUnit := { x.dbgUnit with txrxctrl := s.dbgUnit.txrxctrl } }) ht
    exact hundone
  gpr := fun _ => rfl
  mem := fun _ _ => rfl

theorem undoes_trace (s : State) (tr : Trace) :
    Undoes (fun t => { t with trace := s.trace }) s { s with trace := tr } where
  effect := ⟨s.dbgUnit.txrxctrl, tr, rfl⟩
  rest := fun t ht => by
    have hundone := congrArg (fun x : State => { x with trace := s.trace }) ht
    exact hundone
  gpr := fun _ => rfl
  mem := fun _ _ => rfl

/-! ### MRC -/

variable {cond : BitVec 4} {rd : RegNum} {i : Instr} {read : Exec Word} {value mask : Word}

/-- The word goes to the flags where Rd is R15, and else to Rd (44_coprocessor.md R545). -/
theorem setMoved_moves (s : State) (rd : RegNum) (v : Word) :
    if rd = 15#4 then
      FlagsAre (v.getLsbD 31) (v.getLsbD 30) (v.getLsbD 29) (v.getLsbD 28) s (s.setMoved rd v) ∧
        Frame [] s (s.setMoved rd v)
    else (s.setMoved rd v).reg rd = v ∧ FlagsKept s (s.setMoved rd v) ∧ Frame [rd] s (s.setMoved rd v) := by
  unfold State.setMoved
  split
  · exact ⟨flagsAre_setNzcv _ _ _ _ rfl, frame_setNzcv s _ _ _ _⟩
  · next hrd => exact ⟨reg_setReg_self s rd v hrd, setReg_cpsr s rd v, frame_setReg s rd v⟩

theorem restKept_setMoved (s : State) (rd : RegNum) (v : Word) : RestKept s (s.setMoved rd v) := by
  unfold State.setMoved
  split
  · rfl
  · exact restKept_setReg s rd v

@[simp] theorem pc_setMoved (s : State) (rd : RegNum) (v : Word) : (s.setMoved rd v).pc = s.pc := by
  unfold State.setMoved
  split
  · rfl
  · exact setReg_pc s rd v

@[simp] theorem mode_setMoved (s : State) (rd : RegNum) (v : Word) : (s.setMoved rd v).mode = s.mode := by
  unfold State.setMoved
  split <;> simp

@[simp] theorem instrBytes_setMoved (s : State) (rd : RegNum) (v : Word) :
    (s.setMoved rd v).instrBytes = s.instrBytes := by
  unfold State.setMoved
  split <;> simp

/-- What a move ends with: the note of the step, then the next instruction. -/
theorem frame_noted_advance (s : State) : Frame rs s s.keepR13Dbg.advance := .of_eq rfl rfl

/-- What O33 says of a read of a register that gives this value, its side effect taken back. -/
def MovesFrom (s : State) (rd : RegNum) (i : Instr) (value mask : Word) (undo : State → State) : Prop :=
  Completes i s fun t => ∃ v : Word, v &&& ~~~mask = value &&& ~~~mask ∧ Advances s t ∧
    if rd = 15#4 then FlagsAre (v.getLsbD 31) (v.getLsbD 30) (v.getLsbD 29) (v.getLsbD 28) s t ∧ Frame [] s (undo t)
    else t.reg rd = v ∧ FlagsKept s t ∧ Frame [rd] s (undo t)

section

variable (h : s.passes cond = true) (hpriv : s.privileged = true) (hi : exec i s = moveFrom cond rd read s)
include h hpriv hi

theorem exec_moveFrom {v : Word} (hread : read s = .ok v u) : exec i s = .next (u.setMoved rd v).keepR13Dbg.advance :=
  hi.trans ((when_pass_noted h _ _).trans ((if_pos hpriv).trans (runThen_ok hread)))

theorem movesFrom_of_readsAs (hread : ReadsAs read s value mask after) (hundo : Undoes undo s after) :
    MovesFrom s rd i value mask undo := by
  obtain ⟨v, n, hv, hread⟩ := hread
  have hnotes : ∀ rs, Frame rs after { after with freeCtr := n } := fun _ => .of_eq rfl rfl
  have hcpsr : ({ after with freeCtr := n } : State).cpsr = s.cpsr := hundo.effect.cpsr
  have hpc : ({ after with freeCtr := n } : State).pc = s.pc := hundo.effect.pc
  have hmode : ({ after with freeCtr := n } : State).mode = after.mode := rfl
  revert hread hnotes hcpsr hpc hmode
  generalize ({ after with freeCtr := n } : State) = u
  intro hread hnotes hcpsr hpc hmode
  refine ⟨_, exec_moveFrom h hpriv hi hread, v, hv, ?_, ?_⟩
  · have hbytes : u.instrBytes = s.instrBytes := by rw [State.instrBytes, State.thumb, hcpsr]; rfl
    simp [Advances, hpc, hbytes]
  · have hmoves := setMoved_moves u rd v
    have hframe : ∀ rs, Frame rs u (u.setMoved rd v) → Frame rs s (undo (u.setMoved rd v).keepR13Dbg.advance) :=
      fun rs hf => hundo.frame (((hnotes rs).trans hmode hf).trans ((mode_setMoved u rd v).trans hmode)
        (frame_noted_advance _))
    by_cases hrd : rd = 15#4
    · rw [if_pos hrd] at hmoves ⊢
      obtain ⟨hflags, hf⟩ := hmoves
      exact ⟨hflags.congr hcpsr.symm rfl, hframe _ hf⟩
    · rw [if_neg hrd] at hmoves ⊢
      obtain ⟨hreg, hflags, hf⟩ := hmoves
      exact ⟨(reg_advance _ _ hrd).trans hreg, hflags.trans hcpsr, hframe _ hf⟩

/-- The side effect itself. -/
theorem moveFrom_effect (hread : ReadsAs read s value mask after) : Completes i s (RestKept after) := by
  obtain ⟨v, n, -, hread⟩ := hread
  have hnotes : RestKept after { after with freeCtr := n } := rfl
  exact ⟨_, exec_moveFrom h hpriv hi hread, hnotes.trans (restKept_setMoved _ rd v)⟩

end
end

/-- Settles O33: each MRC is one shape of meaning (`movesFrom_of_readsAs`), and they differ in their read. -/
theorem registerReads : Obligations.RegisterReads := by
  intro s cond rd h hpriv hlock htrace reads
  have hreads : ∀ i read value mask, exec i s = moveFrom cond rd read s → ReadsAs read s value mask s →
      reads i value mask id := fun i read value mask hi hread => movesFrom_of_readsAs h hpriv hi hread (undoes_none s)
  have hplain : ∀ i (f : State → Word), exec i s = moveFrom cond rd (do let s ← get; pure (f s)) s →
      reads i (f s) 0#32 id := fun i f hi => hreads i _ _ _ hi (readsAs_field f s)
  have hfree : ∀ i (f : State → Word) mask,
      exec i s = moveFrom cond rd (do let s ← get; freeUnder mask (f s)) s → reads i (f s) mask id :=
    fun i f mask hi => hreads i _ _ _ hi (readsAs_free f mask s)
  have hlocked : ∀ i (f : State → Word), exec i s = moveFrom cond rd (readLocked f) s → reads i (f s) 0#32 id :=
    fun i f hi => hreads i _ _ _ hi (readsAs_readLocked hlock f)
  refine ⟨?_, ?_, ?_, ?_, ?_⟩
  · simp only [List.forall_mem_cons]
    exact ⟨hplain _ (·.idRegister) rfl, hreads _ _ _ _ rfl (readsAs_pure _ s), hfree _ (·.cp15.control) _ rfl,
      hfree _ (·.cp15.auxControl) _ rfl, hfree _ (·.cp15.ttb) _ rfl, hplain _ (·.cp15.dacr) rfl,
      hfree _ (·.cp15.fsr &&& 0x6FF#32) _ rfl, hplain _ (·.cp15.far) rfl,
      hfree _ (fun s => if s.cp15.dcacheLock then 1#32 else 0#32) _ rfl, hplain _ (·.cp15.pid) rfl,
      hlocked _ (·.cp15.ibcr0) rfl, hlocked _ (·.cp15.ibcr1) rfl, hlocked _ (·.cp15.dbr0) rfl,
      hlocked _ (·.cp15.dbr1) rfl, hlocked _ (·.cp15.dbcon) rfl, hfree _ (·.cp15.cpar &&& 0x3FFF#32) _ rfl,
      hfree _ (·.pmu.pmnc) _ rfl, hplain _ (·.pmu.ccnt) rfl, hplain _ (·.pmu.pmn0) rfl, hplain _ (·.pmu.pmn1) rfl,
      hfree _ (·.pmu.cclkcfg.zeroExtend 32) _ rfl, hreads _ _ _ _ rfl (readsAs_freeUnder _ _ s),
      hplain _ (·.dbgUnit.tx) rfl, hreads _ _ _ _ rfl (readsAs_readDcsrReg hlock),
      hreads _ _ _ _ rfl (readsAs_readChkpt0 htrace), hreads _ _ _ _ rfl (readsAs_readChkpt1 htrace),
      hplain _ (·.dbgUnit.txrxctrl &&& 0xF0000000#32) rfl, List.forall_mem_nil _⟩
  · exact movesFrom_of_readsAs h hpriv rfl (readsAs_readRx s) (undoes_link s 31 false)
  · refine (moveFrom_effect h hpriv rfl (readsAs_readRx s)).mono fun t hrest => ?_
    have hlink := congrArg (fun x : State => x.dbgUnit.txrxctrl) hrest
    exact hlink
  · exact movesFrom_of_readsAs h hpriv rfl (readsAs_readTbreg htrace) (undoes_trace s _)
  · refine (moveFrom_effect h hpriv rfl (readsAs_readTbreg htrace)).mono fun t hrest => ?_
    have htr := congrArg State.trace hrest
    exact htr

end Sys2Proof.Machine

/-!
SUPPORT. Writes of the registers of CP15 (45_cp15_cp14_operations.md R584 to R589, R612, R620 to R623): MCR hands the
word of Rd to the write of its register, which takes effect at once (44_coprocessor.md R546). Settles O34.
-/

namespace Sys2Proof.Machine
section

variable {s u : State} {cond : BitVec 4} {rd : RegNum} {i : Instr} {write : Word → Exec Unit}

/-! ### Writes that are not refused -/

theorem writeControl_legal {v : Word} (h : v.getLsbD 2 = false ∨ v.getLsbD 0 = true) :
    writeControl v = setCp15 fun c => { c with control := (v &&& 0x3B87#32) ||| 0x78#32 } := by
  refine if_neg ?_
  rcases h with h | h <;> rw [h] <;> simp

theorem writeAuxControl_legal {v : Word} (h : v.getLsbD 1 = false) :
    writeAuxControl v = setCp15 fun c => { c with auxControl := v &&& 0x31#32 } :=
  if_neg (by rw [h]; exact Bool.false_ne_true)

theorem writeDCacheLock_on (h : s.dcacheOn = true) (v : Word) :
    writeDCacheLock v s = setCp15 (fun c => { c with dcacheLock := v.getLsbD 0 }) s := by
  unfold writeDCacheLock
  rw [get_bind_apply, if_pos h]

/-- Software reaches the debug registers outside Halt mode and in Special Debug State (48_debug_jtag.md R767). -/
theorem writeLocked_open (h : s.debugLocked = false) (x : Exec Unit) : writeLocked x s = x s := by
  unfold writeLocked
  rw [get_bind_apply, h]
  rfl

/-! ### MCR -/

theorem exec_moveTo (h : s.passes cond = true) (hpriv : s.privileged = true) (hrd : rd ≠ 15#4)
    (hi : exec i s = moveTo cond rd write s) (hwrite : write (s.reg rd) s = .ok () u) :
    exec i s = .next u.keepR13Dbg.advance :=
  hi.trans ((when_pass_noted h _ _).trans ((if_pos hpriv).trans ((if_neg hrd).trans (runThen_ok hwrite))))

/-- What O34 says of an instruction that leaves these registers in CP15. -/
def WritesCp15 (s : State) (i : Instr) (c : Cp15) : Prop :=
  Completes i s fun t => t.cp15 = c ∧ Advances s t ∧ FlagsKept s t ∧ Frame [] s { t with cp15 := s.cp15 }

theorem writesCp15_of_exec {c : Cp15}
    (hi : exec i s = .next ({ s with cp15 := c } : State).keepR13Dbg.advance) : WritesCp15 s i c :=
  ⟨_, hi, rfl, rfl, rfl, .of_eq rfl rfl⟩

end

/-- Settles O34: each MCR is one shape of meaning (`exec_moveTo`), and they differ in their write. -/
theorem systemRegisterWrites : Obligations.SystemRegisterWrites := by
  intro s cond rd h hpriv hlock hrd v c writes
  have hwrites : ∀ i (write : Word → Exec Unit) c', exec i s = moveTo cond rd write s →
      write v s = .ok () { s with cp15 := c' } → writes i c' :=
    fun i write c' hi hw => writesCp15_of_exec (exec_moveTo h hpriv hrd hi hw)
  have hplain : ∀ i (f : Word → Cp15 → Cp15), exec i s = moveTo cond rd (fun v => setCp15 (f v)) s →
      writes i (f v c) :=
    fun i f hi => hwrites i _ _ hi rfl
  have hdebug : ∀ i (f : Word → Cp15 → Cp15),
      exec i s = moveTo cond rd (fun v => writeLocked (setCp15 (f v))) s → writes i (f v c) :=
    fun i f hi => hwrites i _ _ hi (writeLocked_open hlock _)
  refine ⟨?_, ?_, fun hlegal => ?_, fun hlegal => ?_, ?_, ?_, ?_, ?_, fun hon => ?_, ?_, ?_, ?_, ?_, ?_, ?_, ?_⟩
  · exact hwrites _ (fun _ => pure ()) _ rfl rfl
  · exact hwrites _ (fun _ => pure ()) _ rfl rfl
  · exact hwrites _ writeControl _ rfl (by rw [writeControl_legal hlegal]; rfl)
  · exact hwrites _ writeAuxControl _ rfl (by rw [writeAuxControl_legal hlegal]; rfl)
  · exact hplain _ (fun v c => { c with ttb := v &&& 0xFFFFC000#32 }) rfl
  · exact hplain _ (fun v c => { c with dacr := v }) rfl
  · exact hplain _ (fun v c => { c with fsr := v &&& 0x6FF#32 }) rfl
  · exact hplain _ (fun v c => { c with far := v }) rfl
  · exact hwrites _ writeDCacheLock _ rfl (writeDCacheLock_on hon v)
  · exact hdebug _ (fun v c => { c with ibcr0 := v }) rfl
  · exact hdebug _ (fun v c => { c with ibcr1 := v }) rfl
  · exact hdebug _ (fun v c => { c with dbr0 := v }) rfl
  · exact hdebug _ (fun v c => { c with dbr1 := v }) rfl
  · exact hdebug _ (fun v c => { c with dbcon := v &&& 0x10F#32 }) rfl
  · exact hplain _ (fun v c => { c with cpar := v &&& 0x3FFF#32 }) rfl
  · exact ⟨_, exec_moveTo h hpriv hrd rfl rfl, rfl, rfl, rfl, rfl, .of_eq rfl rfl⟩

end Sys2Proof.Machine

/-!
SUPPORT. LDC and STC of the registers of CP14 (44_coprocessor.md R544, R548; 45_cp15_cp14_operations.md R631 to R642):
the word that a register takes or gives, the access, then the base. Settles O40.
-/

namespace Sys2Proof.Machine
section

variable {s t u after : State} {cond rn crd : BitVec 4} {w up : Bool} {off : BitVec 8} {ad : Address} {i : Instr}
  {value mask : Word} {undo : State → State} {rs : List RegNum}

/-! ### What a transfer checks first (U5, U7, U18) -/

section

variable (h : s.passes cond = true) (hpriv : s.privileged = true)
include h hpriv

theorem transferCp14_reaches (body : Result) (long : Bool) : transferCp14 cond long rn crd 14#4 ad body s =
    if long then .refused .coprocessorTransferForm
    else if !cp14Exists crd then .refused .reservedCoprocessorRegister
    else if s.inDebug then .refused .forbiddenInDebug
    else if ad.writes && rn == 15#4 then .refused .r15Operand
    else body :=
  (when_pass h _).trans (if_neg (not_or.2 ⟨not_not_intro rfl, fun hp => Bool.false_ne_true (hp.symm.trans hpriv)⟩))

theorem transferUnindexed_reaches : transferUnindexed cond 14#4 s = .refused .coprocessorTransferForm :=
  (when_pass h _).trans (if_neg (not_or.2 ⟨not_not_intro rfl, fun hp => Bool.false_ne_true (hp.symm.trans hpriv)⟩))

theorem transferCp14_long (body : Result) :
    transferCp14 cond true rn crd 14#4 ad body s = .refused .coprocessorTransferForm :=
  (transferCp14_reaches h hpriv body true).trans (if_pos rfl)

theorem transferCp14_reserved (hcrd : cp14Exists crd = false) (body : Result) :
    transferCp14 cond false rn crd 14#4 ad body s = .refused .reservedCoprocessorRegister := by
  rw [transferCp14_reaches h hpriv, hcrd]
  rfl

theorem transferCp14_r15 (hcrd : cp14Exists crd = true) (hdebug : s.inDebug = false) (hw : ad.writes = true)
    (hrn : rn = 15#4) (body : Result) : transferCp14 cond false rn crd 14#4 ad body s = .refused .r15Operand := by
  rw [transferCp14_reaches h hpriv, hcrd, hdebug, hw, hrn]
  rfl

theorem transferCp14_done (hcrd : cp14Exists crd = true) (hdebug : s.inDebug = false)
    (hbase : ad.writes = true → rn ≠ 15#4) (body : Result) :
    transferCp14 cond false rn crd 14#4 ad body s = body := by
  have hr15 : (ad.writes && rn == 15#4) = false := by
    cases hw : ad.writes
    · rfl
    · exact beq_eq_false_iff_ne.2 (hbase hw)
  rw [transferCp14_reaches h hpriv, hcrd, hdebug, hr15]
  rfl

end

theorem cp14Exists_eq_true : ∀ {crd : BitVec 4}, crd ∉ [4#4, 5#4, 15#4] → cp14Exists crd = true := by decide

theorem cp14Exists_eq_false : ∀ {crd : BitVec 4}, crd ∈ [4#4, 5#4, 15#4] → cp14Exists crd = false := by decide

/-! ### The register takes a word -/

/-- Registers, status and PC are those of another state. -/
structure CoreKept (s u : State) : Prop where
  gpr : u.gpr = s.gpr
  cpsr : u.cpsr = s.cpsr
  pc : u.pc = s.pc

theorem CoreKept.transferred (h : CoreKept s u) (ht : Transferred rn ad rs u t) : Transferred rn ad rs s t where
  base := ht.base
  pc := by
    have hpc := ht.pc
    rwa [Advances, h.pc, State.instrBytes, State.thumb, h.cpsr] at hpc
  flags := ht.flags.trans h.cpsr
  regs := fun i hi => (ht.regs i (by rwa [mode_of_cpsr _ _ h.cpsr])).trans (by rw [h.gpr])

/-- Written after a load, the register has this effect; what an update undoes is all that changed. -/
def TakesWord (s : State) (crd : BitVec 4) (v : Word) (P : State → Prop) (undo : State → State) : Prop :=
  ∃ u, writeCp14 crd v (s.noteAccess true) = .ok () u ∧ CoreKept s u ∧
    ∀ regs pc, P { u with gpr := regs, pc := pc } ∧ RestKept s (undo { u with gpr := regs, pc := pc })

/-- What O40 says of LDC of a register at an address that the transfer may use. -/
def LoadsCp14 (s : State) (i : Instr) (rn : RegNum) (ad : Address) (P : State → Prop) (undo : State → State) :
    Prop :=
  Completes i s fun t => P t ∧ BaseIs rn ad t ∧ Advances s t ∧ FlagsKept s t ∧ Frame (ad.base rn) s (undo t)

section

variable (hplain : s.plainData = true) (halign : s.alignedFor ad.at_ 4 = true)
include hplain halign

/-- The word loaded is handed to the register. -/
theorem loadThenWrite_eq : (do let v ← memRead ad.at_ 4 s.privileged; writeCp14 crd v : Exec Unit) s =
    writeCp14 crd (s.loaded ad.at_ 4) (s.noteAccess true) :=
  bind_apply_of_ok (memRead_plain hplain halign s.privileged) _

theorem loadCp14_ok (hw : writeCp14 crd (s.loaded ad.at_ 4) (s.noteAccess true) = .ok () u) :
    loadCp14 rn crd ad s = .next (u.updateBase rn ad).advance :=
  runThen_ok ((loadThenWrite_eq hplain halign).trans hw)

theorem loadCp14_refused {r : Refusal}
    (hw : writeCp14 crd (s.loaded ad.at_ 4) (s.noteAccess true) = .error (.refuse r) u) :
    loadCp14 rn crd ad s = .refused r :=
  runThen_error ((loadThenWrite_eq hplain halign).trans hw)

theorem loadsCp14_of_takesWord {P : State → Prop} (hbase : ad.writes = true → rn ≠ 15#4)
    (hi : exec i s = loadCp14 rn crd ad s) (htakes : TakesWord s crd (s.loaded ad.at_ 4) P undo)
    (hgpr : ∀ t, (undo t).gpr = t.gpr) : LoadsCp14 s i rn ad P undo := by
  obtain ⟨u, hw, hcore, heffect⟩ := htakes
  have ht := hcore.transferred (transferred_updateBase u hbase)
  have hregs := (differsInRegs_updateBase u rn ad).advance
  refine ⟨_, hi.trans (loadCp14_ok hplain halign hw), ?_⟩
  revert ht hregs
  generalize (u.updateBase rn ad).advance = t
  rintro ht ⟨regs, pc, rfl⟩
  obtain ⟨hP, hrest⟩ := heffect regs pc
  refine ⟨hP, ht.base, ht.pc, ht.flags, .of (fun i hi => ?_) hrest⟩
  rw [hgpr]
  exact ht.regs i hi

end

/-! ### Writes of the CP14 registers -/

/-- A write that touches the performance monitor and the clock alone. -/
theorem takesWord_pmu {v : Word} {p : Pmu}
    (hw : writeCp14 crd v (s.noteAccess true) = .ok () { s.noteAccess true with pmu := p }) :
    TakesWord s crd v (fun t => t.pmu = p) fun t => { t with pmu := s.pmu } :=
  ⟨_, hw, ⟨rfl, rfl, rfl⟩, fun _ _ => ⟨rfl, rfl⟩⟩

/-- A write that touches the debug unit alone. -/
theorem takesWord_debug {v : Word} {d : Debug}
    (hw : writeCp14 crd v (s.noteAccess true) = .ok () { s.noteAccess true with dbgUnit := d }) :
    TakesWord s crd v (fun t => t.dbgUnit = d) fun t => { t with dbgUnit := s.dbgUnit } :=
  ⟨_, hw, ⟨rfl, rfl, rfl⟩, fun _ _ => ⟨rfl, rfl⟩⟩

/-- A write of TBREG leaves the trace buffer and its checkpoints free (log 56). -/
theorem takesWord_tbreg (v : Word) : TakesWord s 11#4 v (fun _ => True) fun t =>
    { t with trace := s.trace
             dbgUnit := { t.dbgUnit with chkpt0 := s.dbgUnit.chkpt0, chkpt1 := s.dbgUnit.chkpt1 } } :=
  ⟨_, rfl, ⟨rfl, rfl, rfl⟩, fun _ _ => ⟨trivial, rfl⟩⟩

/-- What starting the trace buffer changes (48_debug_jtag.md R802). -/
theorem startTrace_eq (s : State) (was : Bool) : ∃ tr, s.startTrace was = { s with trace := tr } := by
  unfold State.startTrace
  split
  · exact ⟨_, rfl⟩
  · exact ⟨s.trace, rfl⟩

/-- Only OV is written (45_cp15_cp14_operations.md R641). -/
theorem setBit_overflow (x v : Word) :
    setBit x 30 (v.getLsbD 30) = (x &&& 0xBFFFFFFF#32) ||| (v &&& 0x40000000#32) := by
  have hkeep : 0xBFFFFFFF#32 = ~~~BitVec.twoPow 32 30 := by decide
  have htake : 0x40000000#32 = BitVec.twoPow 32 30 := by decide
  rw [hkeep, htake]
  apply BitVec.eq_of_getLsbD_eq
  intro i hi
  rw [getLsbD_setBit _ _ _ _ (by decide)]
  simp only [BitVec.getLsbD_or, BitVec.getLsbD_and, BitVec.getLsbD_not, BitVec.getLsbD_twoPow, hi,
    decide_true, Bool.true_and]
  by_cases he : i = 30
  · subst he
    simp
  · simp [he, Ne.symm he]

theorem writePwrmode_active {v : Word} (h : v.extractLsb' 0 2 = 0#2) : writePwrmode v = pure () := by
  rw [writePwrmode, h]
  rfl

theorem writePwrmode_idle {v : Word} (h : v.extractLsb' 0 2 = 1#2) : writePwrmode v = enterPowerMode .idle := by
  rw [writePwrmode, h]
  rfl

theorem writePwrmode_reserved {v : Word} (h : v.extractLsb' 0 2 = 2#2) :
    writePwrmode v = refuseWith .reservedPowerMode := by
  rw [writePwrmode, h]
  rfl

theorem writePwrmode_sleep {v : Word} (h : v.extractLsb' 0 2 = 3#2) : writePwrmode v = enterPowerMode .sleep := by
  rw [writePwrmode, h]
  rfl

/-- What O40 says of the word that PWRMODE takes (60_exceptions.md R910). -/
def PowerIs (s : State) (v : Word) (t : State) : Prop :=
  (v.extractLsb' 0 2 = 0#2 → t.power = s.power ∧ t.pmu = s.pmu) ∧
    (v.extractLsb' 0 2 = 1#2 → t.power = .idle) ∧ (v.extractLsb' 0 2 = 3#2 → t.power = .sleep)

theorem takesWord_pwrmode {v : Word} (hv : v.extractLsb' 0 2 ≠ 2#2) :
    TakesWord s 7#4 v (PowerIs s v) fun t => { t with power := s.power, pmu := s.pmu } := by
  have hmodes : ∀ x : BitVec 2, x = 0#2 ∨ x = 1#2 ∨ x = 2#2 ∨ x = 3#2 := by decide
  have hother : ∀ {x y : BitVec 2} {p : Prop}, v.extractLsb' 0 2 = x → x ≠ y → v.extractLsb' 0 2 = y → p :=
    fun hx hne hy => absurd (hx.symm.trans hy) hne
  rcases hmodes (v.extractLsb' 0 2) with h | h | h | h
  · exact ⟨_, congrFun (writePwrmode_active h) _, ⟨rfl, rfl, rfl⟩, fun _ _ =>
      ⟨⟨fun _ => ⟨rfl, rfl⟩, hother h (by decide), hother h (by decide)⟩, rfl⟩⟩
  · exact ⟨_, congrFun (writePwrmode_idle h) _, ⟨rfl, rfl, rfl⟩, fun _ _ =>
      ⟨⟨hother h (by decide), fun _ => rfl, hother h (by decide)⟩, rfl⟩⟩
  · exact absurd h hv
  · exact ⟨_, congrFun (writePwrmode_sleep h) _, ⟨rfl, rfl, rfl⟩, fun _ _ =>
      ⟨⟨hother h (by decide), hother h (by decide), fun _ => rfl⟩, rfl⟩⟩

theorem takesWord_dcsr (hlock : s.debugLocked = false) (v : Word) :
    TakesWord s 10#4 v
      (fun t => t.dbgUnit =
        { s.dbgUnit with dcsr := (s.dbgUnit.dcsr &&& 0x7FFFFFC0#32) ||| (v &&& 0x8000003F#32) })
      fun t => { t with dbgUnit := s.dbgUnit, trace := s.trace } := by
  obtain ⟨tr, htr⟩ := startTrace_eq { s.noteAccess true with dbgUnit :=
    { s.dbgUnit with dcsr := (s.dbgUnit.dcsr &&& 0x7FFFFFC0#32) ||| (v &&& 0x8000003F#32) } } s.tracing
  refine ⟨_, (writeLocked_open (s := s.noteAccess true) hlock _).trans (congrArg (EStateM.Result.ok ()) htr),
    ⟨rfl, rfl, rfl⟩, fun _ _ => ⟨rfl, rfl⟩⟩

theorem writeChkpt0_off (h : s.tracing = false) (v : Word) :
    writeChkpt0 v s = .ok ⟨⟩ { s with dbgUnit := { s.dbgUnit with chkpt0 := v } } := by
  unfold writeChkpt0
  rw [get_bind_apply, h]
  rfl

theorem writeChkpt1_off (h : s.tracing = false) (v : Word) :
    writeChkpt1 v s = .ok ⟨⟩ { s with dbgUnit := { s.dbgUnit with chkpt1 := v } } := by
  unfold writeChkpt1
  rw [get_bind_apply, h]
  rfl

/-! ### The register gives a word -/

/-- What O40 says of STC of a register at an address that the transfer may use. -/
def StoresCp14 (s : State) (i : Instr) (rn : RegNum) (ad : Address) (value mask : Word) (P : State → Prop)
    (undo : State → State) : Prop :=
  Completes i s fun t => (∃ v : Word, v &&& ~~~mask = value &&& ~~~mask ∧ Stored ad.at_ 4 v s t) ∧ P t ∧
    BaseIs rn ad t ∧ Advances s t ∧ FlagsKept s t ∧ RegsKept (ad.base rn) s t ∧ RestKeptButMemory s (undo t)

/-- The side effect of a read leaves accesses as plain as they were. -/
theorem ReadEffect.plainData (he : ReadEffect s after) (h : s.plainData = true) (n : Nat) :
    ({ after with freeCtr := n } : State).plainData = true := by
  obtain ⟨_, _, rfl⟩ := he
  exact h

/-- The store after the read puts the word into memory, and changes nothing else but notes. -/
theorem memWrite_afterRead {a : Word} (he : ReadEffect s after) (h : s.plainData = true)
    (ha : s.alignedFor a 4 = true) (n : Nat) (priv : Bool) (v : Word) :
    ∃ u, memWrite a 4 priv v { after with freeCtr := n } = .ok () u ∧ CoreKept s u ∧ RestKeptButMemory after u ∧
      u.mem = memSetList s.mem (s.plainLane a 4) 0 (bytesOf v 4) ∧ u.writeBuffer = [] := by
  have hplain := he.plainData h n
  obtain ⟨-, -, -, hbuffer, -⟩ := plainData_iff.1 hplain
  obtain ⟨link, tr, rfl⟩ := he
  exact ⟨_, memWrite_plain hplain ha priv v, ⟨rfl, rfl, rfl⟩, rfl, rfl, hbuffer⟩

theorem storeCp14_ok {v : Word} (hread : readCp14 crd s = .ok v u)
    (hwrite : memWrite ad.at_ 4 s.privileged v u = .ok () t) :
    storeCp14 rn crd ad s = .next (t.updateBase rn ad).advance := by
  refine runThen_ok (v := ()) (t := t) ((bind_apply_of_ok hread _).trans ?_)
  rw [hwrite]

/-- The part of an undone state that is not memory (`RestKeptButMemory`). -/
theorem Undoes.restButMemory (h : Undoes undo s after) (ht : RestKeptButMemory after t) :
    RestKeptButMemory s (undo t) := by
  have hmem : after.mem = s.mem := by
    obtain ⟨_, _, rfl⟩ := h.effect
    rfl
  rw [RestKeptButMemory, hmem] at ht
  rw [RestKeptButMemory, h.mem]
  exact h.rest _ ht

theorem storesCp14_of_readsAs {P : State → Prop} (hplain : s.plainData = true)
    (halign : s.alignedFor ad.at_ 4 = true) (hbase : ad.writes = true → rn ≠ 15#4)
    (hi : exec i s = storeCp14 rn crd ad s) (hread : ReadsAs (readCp14 crd) s value mask after)
    (hundo : Undoes undo s after) (hP : ∀ t, RestKeptButMemory after t → P t) :
    StoresCp14 s i rn ad value mask P undo := by
  obtain ⟨v, n, hv, hread⟩ := hread
  obtain ⟨u, hwrite, hcore, hrest, hmem, hbuffer⟩ :=
    memWrite_afterRead hundo.effect hplain halign n s.privileged v
  have ht := hcore.transferred (transferred_updateBase u hbase)
  have hregs := (differsInRegs_updateBase u rn ad).advance
  refine ⟨_, hi.trans (storeCp14_ok hread hwrite), ?_⟩
  revert ht hregs
  generalize (u.updateBase rn ad).advance = t
  rintro ht ⟨regs, pc, rfl⟩
  have hrest' : RestKeptButMemory after { u with gpr := regs, pc := pc } := hrest
  refine ⟨⟨v, hv, stored_plain hplain _ le_rfl v hmem hbuffer⟩, hP _ hrest', ht.base, ht.pc, ht.flags, ?_,
    hundo.restButMemory hrest'⟩
  exact ht.regs

/-! ### The forms of the two instructions -/

/-- LDC of a register of CP14, offset or pre-indexed and post-indexed, each with its address. -/
def State.ldcForms (s : State) (cond : BitVec 4) (up w : Bool) (rn : RegNum) (off : BitVec 8) (crd : BitVec 4) :
    List (Instr × Address) :=
  [(.ldcOffset cond up false w rn crd 14#4 off, s.mode5 true up w rn off),
   (.ldcPost cond up false rn crd 14#4 off, s.mode5 false up true rn off)]

/-- STC of a register of CP14, in the same forms. -/
def State.stcForms (s : State) (cond : BitVec 4) (up w : Bool) (rn : RegNum) (off : BitVec 8) (crd : BitVec 4) :
    List (Instr × Address) :=
  [(.stcOffset cond up false w rn crd 14#4 off, s.mode5 true up w rn off),
   (.stcPost cond up false rn crd 14#4 off, s.mode5 false up true rn off)]

theorem forall_ldcForms {Q : Instr × Address → Prop}
    (hQ : ∀ i ad, exec i s = transferCp14 cond false rn crd 14#4 ad (loadCp14 rn crd ad s) s → Q (i, ad)) :
    ∀ f ∈ s.ldcForms cond up w rn off crd, Q f := by
  simp only [State.ldcForms, List.forall_mem_cons]
  exact ⟨hQ _ _ rfl, hQ _ _ rfl, List.forall_mem_nil _⟩

theorem forall_stcForms {Q : Instr × Address → Prop}
    (hQ : ∀ i ad, exec i s = transferCp14 cond false rn crd 14#4 ad (storeCp14 rn crd ad s) s → Q (i, ad)) :
    ∀ f ∈ s.stcForms cond up w rn off crd, Q f := by
  simp only [State.stcForms, List.forall_mem_cons]
  exact ⟨hQ _ _ rfl, hQ _ _ rfl, List.forall_mem_nil _⟩

end

/-- Settles O40: a load is what its register does with a word (`TakesWord`), a store what its register reads as
(`ReadsAs`), and the access and the base are those of every transfer. -/
theorem coprocessorTransfers : Obligations.CoprocessorTransfers := by
  intro s cond u n w rn crd off h hpriv hplain p d pre post fits ldc stc loads stores any monitor debugs plainly
  have hdebug := inDebug_of_plainData hplain
  have htrace : s.tracing = false := by
    obtain ⟨-, -, -, -, -, -, -, hoff, -⟩ := plainData_iff.1 hplain
    exact tracing_of_debugOff hoff
  have hdone : ∀ {crd ad i body}, cp14Exists crd = true → fits ad →
      exec i s = transferCp14 cond false rn crd 14#4 ad body s → exec i s = body :=
    fun hcrd ⟨hbase, _⟩ hi => hi.trans (transferCp14_done h hpriv hcrd hdebug hbase _)
  have hloads : ∀ crd allows P undo, cp14Exists crd = true → (∀ t, (undo t).gpr = t.gpr) →
      (∀ v, allows v → TakesWord s crd v (P v) undo) → loads crd allows P undo :=
    fun crd allows P undo hcrd hgpr htakes => forall_ldcForms fun i ad hi ⟨hbase, halign⟩ hv =>
      loadsCp14_of_takesWord hplain halign hbase (hdone hcrd ⟨hbase, halign⟩ hi) (htakes _ hv) hgpr
  have hmonitor : ∀ crd f, cp14Exists crd = true →
      (∀ v, writeCp14 crd v (s.noteAccess true) = .ok () { s.noteAccess true with pmu := f v }) → monitor crd f :=
    fun crd f hcrd hw => hloads crd any (fun v t => t.pmu = f v) (fun t => { t with pmu := p }) hcrd (fun _ => rfl)
      fun v _ => takesWord_pmu (hw v)
  have hunit : ∀ crd f, cp14Exists crd = true →
      (∀ v, writeCp14 crd v (s.noteAccess true) = .ok () { s.noteAccess true with dbgUnit := f v }) →
      debugs crd f :=
    fun crd f hcrd hw => hloads crd any (fun v t => t.dbgUnit = f v) (fun t => { t with dbgUnit := d }) hcrd
      (fun _ => rfl) fun v _ => takesWord_debug (hw v)
  have hstores : ∀ crd value mask P undo after, cp14Exists crd = true →
      ReadsAs (readCp14 crd) s value mask after → Undoes undo s after →
      (∀ t, RestKeptButMemory after t → P t) → stores crd value mask P undo :=
    fun crd value mask P undo after hcrd hread hundo hP => forall_stcForms fun i ad hi ⟨hbase, halign⟩ =>
      storesCp14_of_readsAs hplain halign hbase (hdone hcrd ⟨hbase, halign⟩ hi) hread hundo hP
  have hplainly : ∀ crd value mask, cp14Exists crd = true → ReadsAs (readCp14 crd) s value mask s →
      plainly crd value mask :=
    fun crd value mask hcrd hread => hstores _ _ _ _ _ _ hcrd hread (undoes_none s) fun _ _ => trivial
  have hstops : ∀ {ad i body}, exec i s = transferCp14 cond false rn crd 14#4 ad body s →
      (crd ∈ [4#4, 5#4, 15#4] → exec i s = .refused .reservedCoprocessorRegister) ∧
        (crd ∉ [4#4, 5#4, 15#4] → ad.writes = true → rn = 15#4 → exec i s = .refused .r15Operand) := fun hi =>
    ⟨fun hcrd => hi.trans (transferCp14_reserved h hpriv (cp14Exists_eq_false hcrd) _),
      fun hcrd hw hrn => hi.trans (transferCp14_r15 h hpriv (cp14Exists_eq_true hcrd) hdebug hw hrn _)⟩
  clear_value monitor debugs plainly loads stores
  refine ⟨?_, ?_, ?_, ?_, ?_, ?_, ?_, ?_, fun hlock => ?_, ?_, ?_, ?_, ?_, ?_, ?_, ?_, ?_, ?_, ?_, ?_, ?_,
    fun hlock => ?_, ?_, ?_, ?_, ?_, ?_, ?_, ?_⟩
  · exact hmonitor _ _ rfl fun v => rfl
  · exact hmonitor _ _ rfl fun v => rfl
  · exact hmonitor _ _ rfl fun v => rfl
  · exact hmonitor _ _ rfl fun v => rfl
  · exact hmonitor _ _ rfl fun v => rfl
  · exact hloads _ _ _ _ rfl (fun _ => rfl) fun v hv => takesWord_pwrmode hv
  · exact hunit _ _ rfl fun v => rfl
  · exact hunit _ _ rfl fun v => rfl
  · exact hloads _ _ _ _ rfl (fun _ => rfl) fun v _ => takesWord_dcsr hlock v
  · exact hloads _ _ _ _ rfl (fun _ => rfl) fun v _ => takesWord_tbreg v
  · exact hunit _ _ rfl (writeChkpt0_off (s := s.noteAccess true) htrace)
  · exact hunit _ _ rfl (writeChkpt1_off (s := s.noteAccess true) htrace)
  · exact hunit _ _ rfl fun v => by rw [← setBit_overflow]; rfl
  · exact hplainly _ _ _ rfl (readsAs_free (·.pmu.pmnc) _ s)
  · exact hplainly _ _ _ rfl (readsAs_field (·.pmu.ccnt) s)
  · exact hplainly _ _ _ rfl (readsAs_field (·.pmu.pmn0) s)
  · exact hplainly _ _ _ rfl (readsAs_field (·.pmu.pmn1) s)
  · exact hplainly _ _ _ rfl (readsAs_free (·.pmu.cclkcfg.zeroExtend 32) _ s)
  · exact hplainly _ _ _ rfl (readsAs_freeUnder _ _ s)
  · exact hplainly _ _ _ rfl (readsAs_field (·.dbgUnit.tx) s)
  · refine hstores _ _ _ _ _ _ rfl (readsAs_readRx s) (undoes_link s 31 false) fun t ht => ?_
    have hlink := congrArg (fun x : State => x.dbgUnit.txrxctrl) ht
    exact hlink
  · exact hplainly _ _ _ rfl (readsAs_readDcsrReg hlock)
  · refine hstores _ _ _ _ _ _ rfl (readsAs_readTbreg htrace) (undoes_trace s _) fun t ht => ?_
    have htr := congrArg State.trace ht
    exact htr
  · exact hplainly _ _ _ rfl (readsAs_readChkpt0 htrace)
  · exact hplainly _ _ _ rfl (readsAs_readChkpt1 htrace)
  · exact hplainly _ _ _ rfl (readsAs_field (·.dbgUnit.txrxctrl &&& 0xF0000000#32) s)
  · exact List.forall_mem_append.2 ⟨forall_ldcForms fun i ad => hstops, forall_stcForms fun i ad => hstops⟩
  · exact forall_ldcForms fun i ad hi ⟨hbase, halign⟩ hv => (hdone rfl ⟨hbase, halign⟩ hi).trans
      (loadCp14_refused hplain halign (congrFun (writePwrmode_reserved hv) _))
  · simp only [List.forall_mem_cons]
    exact ⟨transferCp14_long h hpriv _, transferCp14_long h hpriv _, transferCp14_long h hpriv _,
      transferCp14_long h hpriv _, transferUnindexed_reaches h hpriv, transferUnindexed_reaches h hpriv,
      List.forall_mem_nil _⟩

end Sys2Proof.Machine

/-!
SUPPORT. Writes of the registers of CP14 by MCR (45_cp15_cp14_operations.md R631 to R641): each is one shape of meaning
(`exec_moveTo`), and takes the writable bits of the word. Settles O35.
-/

namespace Sys2Proof.Machine
section

variable {s : State} {cond : BitVec 4} {rd : RegNum}

/-! ### The bits of PMNC (45_cp15_cp14_operations.md R631) -/

/-- The event selections, the interrupt enables, D and E are taken from the word written. -/
theorem getLsbD_pmnc_taken (old v : Word) :
    ∀ i ∈ [0, 3, 4, 5, 6, 12, 13, 14, 15, 16, 17, 18, 19, 20, 21, 22, 23, 24, 25, 26, 27],
      ((v &&& 0x0FFFF079#32) ||| (old &&& ~~~v &&& 0x700#32)).getLsbD i = v.getLsbD i := by
  have hmasks : ∀ i ∈ [0, 3, 4, 5, 6, 12, 13, 14, 15, 16, 17, 18, 19, 20, 21, 22, 23, 24, 25, 26, 27],
      (0x0FFFF079#32).getLsbD i = true ∧ (0x700#32).getLsbD i = false := by decide
  intro i hi
  obtain ⟨htaken, hflag⟩ := hmasks i hi
  rw [BitVec.getLsbD_or, BitVec.getLsbD_and, BitVec.getLsbD_and, htaken, hflag, Bool.and_true, Bool.and_false,
    Bool.or_false]

/-- An overflow flag stays set until a one is written to it. -/
theorem getLsbD_pmnc_flag (old v : Word) :
    ∀ i ∈ [8, 9, 10], ((v &&& 0x0FFFF079#32) ||| (old &&& ~~~v &&& 0x700#32)).getLsbD i =
      (old.getLsbD i && !v.getLsbD i) := by
  have hmasks : ∀ i ∈ [8, 9, 10],
      i < 32 ∧ (0x0FFFF079#32).getLsbD i = false ∧ (0x700#32).getLsbD i = true := by decide
  intro i hi
  obtain ⟨hlt, htaken, hflag⟩ := hmasks i hi
  rw [BitVec.getLsbD_or, BitVec.getLsbD_and, BitVec.getLsbD_and, BitVec.getLsbD_and, BitVec.getLsbD_not, htaken, hflag,
    decide_eq_true hlt, Bool.and_false, Bool.false_or, Bool.and_true, Bool.true_and]

/-! ### The writes of DCSR and PWRMODE -/

/-- A write of DCSR may start the trace buffer (48_debug_jtag.md R802). -/
theorem writeDcsrReg_open (hlock : s.debugLocked = false) (v : Word) :
    ∃ tr, writeDcsrReg v s = .ok ⟨⟩ { s with
      dbgUnit := { s.dbgUnit with dcsr := (s.dbgUnit.dcsr &&& 0x7FFFFFC0#32) ||| (v &&& 0x8000003F#32) }
      trace := tr } := by
  obtain ⟨tr, htr⟩ := startTrace_eq { s with dbgUnit :=
    { s.dbgUnit with dcsr := (s.dbgUnit.dcsr &&& 0x7FFFFFC0#32) ||| (v &&& 0x8000003F#32) } } s.tracing
  exact ⟨tr, (writeLocked_open hlock _).trans (congrArg (EStateM.Result.ok ()) htr)⟩

section

variable (h : s.passes cond = true) (hpriv : s.privileged = true) (hrd : rd ≠ 15#4)
include h hpriv hrd

/-- PWRMODE leaves the ACTIVE mode for IDLE or SLEEP (60_exceptions.md R910). -/
theorem completes_mcrPwrmode (hv : (s.reg rd).extractLsb' 0 2 ≠ 2#2) :
    Completes (.mcrPwrmode cond rd) s fun t => PowerIs s (s.reg rd) t ∧ Advances s t ∧ FlagsKept s t ∧
      Frame [] s { t with power := s.power, pmu := s.pmu } := by
  have hmodes : ∀ x : BitVec 2, x = 0#2 ∨ x = 1#2 ∨ x = 2#2 ∨ x = 3#2 := by decide
  rcases hmodes ((s.reg rd).extractLsb' 0 2) with hx | hx | hx | hx
  · exact ⟨_, exec_moveTo h hpriv hrd rfl (congrFun (writePwrmode_active hx) s),
      by simp [PowerIs, hx], rfl, rfl, .of_eq rfl rfl⟩
  · exact ⟨_, exec_moveTo h hpriv hrd rfl (congrFun (writePwrmode_idle hx) s),
      by simp [PowerIs, hx, State.lowPower], rfl, rfl, .of_eq rfl rfl⟩
  · exact absurd hx hv
  · exact ⟨_, exec_moveTo h hpriv hrd rfl (congrFun (writePwrmode_sleep hx) s),
      by simp [PowerIs, hx, State.lowPower], rfl, rfl, .of_eq rfl rfl⟩

/-- A write that is cut short ends the move with its trap. -/
theorem exec_moveTo_error {i : Instr} {write : Word → Exec Unit} {trap : Trap} {u : State}
    (hi : exec i s = moveTo cond rd write s) (hwrite : write (s.reg rd) s = .error trap u) :
    exec i s = endTrap trap u :=
  hi.trans ((when_pass_noted h _ _).trans ((if_pos hpriv).trans ((if_neg hrd).trans (runThen_error hwrite))))

theorem completes_mcrDcsr (hlock : s.debugLocked = false) :
    Completes (.mcrDcsr cond rd) s fun t =>
      t.dbgUnit =
        { s.dbgUnit with dcsr := (s.dbgUnit.dcsr &&& 0x7FFFFFC0#32) ||| (s.reg rd &&& 0x8000003F#32) } ∧
      Advances s t ∧ FlagsKept s t ∧ Frame [] s { t with dbgUnit := s.dbgUnit, trace := s.trace } := by
  obtain ⟨tr, hwrite⟩ := writeDcsrReg_open hlock (s.reg rd)
  exact ⟨_, exec_moveTo h hpriv hrd rfl hwrite, rfl, rfl, rfl, .of_eq rfl rfl⟩

end
end

/-- Settles O35: each MCR is one shape of meaning (`exec_moveTo`), and they differ in their write. -/
theorem monitorAndDebugWrites : Obligations.MonitorAndDebugWrites := by
  intro s cond rd h hpriv hlock htrace hrd v p d monitor debugs
  have hmonitor : ∀ i (write : Word → Exec Unit) p', exec i s = moveTo cond rd write s →
      write v s = .ok () { s with pmu := p' } → monitor i p' :=
    fun i write p' hi hw => ⟨_, exec_moveTo h hpriv hrd hi hw, rfl, rfl, rfl, .of_eq rfl rfl⟩
  have hdebugs : ∀ i (write : Word → Exec Unit) d', exec i s = moveTo cond rd write s →
      write v s = .ok () { s with dbgUnit := d' } → debugs i d' :=
    fun i write d' hi hw => ⟨_, exec_moveTo h hpriv hrd hi hw, rfl, rfl, rfl, .of_eq rfl rfl⟩
  refine ⟨?_, ?_, ?_, ?_, ?_, fun hv => ?_, fun hv => ?_, ?_, ?_, ?_, ?_, ?_, ?_, ?_⟩
  · exact ⟨_, exec_moveTo h hpriv hrd rfl rfl, getLsbD_pmnc_taken _ _, getLsbD_pmnc_flag _ _, rfl, rfl, rfl, rfl,
      rfl, rfl, .of_eq rfl rfl⟩
  · exact hmonitor _ writeCcnt _ rfl rfl
  · exact hmonitor _ writePmn0 _ rfl rfl
  · exact hmonitor _ writePmn1 _ rfl rfl
  · exact hmonitor _ writeCclkcfg _ rfl rfl
  · refine (completes_mcrPwrmode h hpriv hrd hv).mono fun t ⟨⟨hactive, hidle, hsleep⟩, hrest⟩ => ?_
    exact ⟨hactive, hidle, hsleep, hrest⟩
  · exact exec_moveTo_error h hpriv hrd rfl (congrFun (writePwrmode_reserved hv) s)
  · exact hdebugs _ writeTx _ rfl rfl
  · exact hdebugs _ writeRx _ rfl rfl
  · exact completes_mcrDcsr h hpriv hrd hlock
  · exact hdebugs _ writeChkpt0 _ rfl (writeChkpt0_off htrace v)
  · exact hdebugs _ writeChkpt1 _ rfl (writeChkpt1_off htrace v)
  · exact hdebugs _ writeTxrxctrl _ rfl (by rw [← setBit_overflow]; rfl)
  · exact ⟨_, exec_moveTo h hpriv hrd rfl rfl, rfl, rfl, .of_eq rfl rfl⟩

end Sys2Proof.Machine

/-!
SUPPORT. The functions that invalidate caches, the branch target buffer and TLBs (45_cp15_cp14_operations.md R591 to
R597, R604 to R608; 21_mmu_caches_tlb.md R213, R228, R253): which lines and entries they leave. Settles O36 and O38.
-/

namespace Sys2Proof.Machine
section

/-! ### The lines that are left -/

theorem mem_invalidate_lines (c : ICache) (p : Nat × ILine) :
    p ∈ c.invalidate.lines ↔ p ∈ c.lines ∧ p.1 % 32 < lockedOf c.locked (p.1 / 32) := by
  simp only [ICache.invalidate, List.mem_filter, decide_eq_true_eq]

theorem mem_invalidateDCaches_lines (s : State) (p : Nat × DLine) :
    p ∈ s.invalidateDCaches.dcache.lines ↔
      p ∈ s.dcache.lines ∧ p.1 % 32 < lockedOf s.dcache.locked (p.1 / 32) := by
  simp only [State.invalidateDCaches, List.mem_filter, decide_eq_true_eq]

theorem mem_dropILine (lines : List (Nat × ILine)) (ways : Nat) (mva : Word) (p : Nat × ILine) :
    p ∈ dropILine lines ways mva ↔ p ∈ lines ∧ ¬ (p.1 / ways = setOf mva ∧ p.2.tag = tagOf mva) := by
  simp only [dropILine, List.mem_filter, Bool.not_eq_true', Bool.and_eq_false_iff, decide_eq_false_iff_not,
    beq_eq_false_iff_ne, ne_eq, not_and_or]

theorem isDLineOf_eq_false_iff {ways : Nat} {mva : Word} {p : Nat × DLine} :
    isDLineOf ways mva p = false ↔ ¬ (p.1 / ways = setOf mva ∧ p.2.tag = tagOf mva) := by
  simp only [isDLineOf, Bool.and_eq_false_iff, decide_eq_false_iff_not, beq_eq_false_iff_ne, ne_eq, not_and_or]

theorem mem_filter_not_isDLineOf (lines : List (Nat × DLine)) (ways : Nat) (mva : Word) (p : Nat × DLine) :
    p ∈ lines.filter (fun p => !isDLineOf ways mva p) ↔
      p ∈ lines ∧ ¬ (p.1 / ways = setOf mva ∧ p.2.tag = tagOf mva) := by
  rw [List.mem_filter, Bool.not_eq_true', isDLineOf_eq_false_iff]

/-- Invalidating instructions also settles notes of modified code, which no frame speaks of. -/
theorem invalidateICache_eq (s : State) : ∃ notes, s.invalidateICache =
    { s with modified := notes, icache := s.icache.invalidate, fetchBuffers := [] } := ⟨_, rfl⟩

theorem invalidateCaches_eq (s : State) : ∃ notes, s.invalidateICache.invalidateBtb.invalidateDCaches =
    { s with modified := notes, icache := s.icache.invalidate, fetchBuffers := [], btb := [],
             dcache := s.invalidateDCaches.dcache, miniDc := { s.miniDc with lines := [] } } := ⟨_, rfl⟩

theorem invalidateILine_eq (s : State) (mva : Word) : ∃ notes buffers, s.invalidateILine mva =
    { s with modified := notes, icache := { s.icache with lines := dropILine s.icache.lines 32 mva },
             miniIc := { s.miniIc with lines := dropILine s.miniIc.lines 2 mva }, fetchBuffers := buffers } :=
  ⟨_, _, rfl⟩

/-! ### The entries that are left -/

theorem mem_invalidate_entries (b : Tlb) (p : Nat × TlbEntry) :
    p ∈ b.invalidate.entries ↔ p ∈ b.entries ∧ p.1 < b.lock := by
  simp only [Tlb.invalidate, List.mem_filter, decide_eq_true_eq]

theorem mem_invalidateEntry_entries (b : Tlb) (mva : Word) (p : Nat × TlbEntry) :
    p ∈ (b.invalidateEntry mva).entries ↔ p ∈ b.entries ∧ p.2.covers mva = false := by
  simp only [Tlb.invalidateEntry, List.mem_filter, Bool.not_eq_true']

/-- No entry that is left covers the address (21_mmu_caches_tlb.md R213). -/
theorem lookup_invalidateEntry (b : Tlb) (mva : Word) : (b.invalidateEntry mva).lookup mva = none := by
  rw [Tlb.lookup, Option.map_eq_none_iff, List.find?_eq_none]
  intro p hp
  obtain ⟨-, huncovered⟩ := (mem_invalidateEntry_entries b mva p).1 hp
  rw [huncovered]
  exact Bool.false_ne_true

/-! ### MCR to a function that is one update -/

theorem exec_moveTo_modify {s : State} {cond : BitVec 4} {rd : RegNum} (h : s.passes cond = true)
    (hpriv : s.privileged = true) (hrd : rd ≠ 15#4) {i : Instr} (f : Word → State → State)
    (hi : exec i s = moveTo cond rd (fun v => modify (f v)) s) :
    exec i s = .next (f (s.reg rd) s).keepR13Dbg.advance := exec_moveTo h hpriv hrd hi rfl

end

/-- Settles O36: each function is one update of the state, and a line is left where the update's test leaves it. -/
theorem invalidateFunctions : Obligations.InvalidateFunctions := by
  intro s cond rd h hpriv hrd v iLocked dLocked iEmptied dEmptied atLine atDLine
  have hlines := mem_invalidate_lines s.icache
  have hdlines := mem_invalidateDCaches_lines s
  have hexec : ∀ i (f : Word → State → State), exec i s = moveTo cond rd (fun v => modify (f v)) s →
      exec i s = .next (f v s).keepR13Dbg.advance := fun i => exec_moveTo_modify h hpriv hrd
  obtain ⟨notes, hicache⟩ := invalidateICache_eq s
  obtain ⟨notes', hcaches⟩ := invalidateCaches_eq s
  obtain ⟨notes'', buffers, hiline⟩ := invalidateILine_eq s v
  refine ⟨?_, ?_, ?_, ?_, ?_, ?_⟩
  · have hi := hexec (.mcrInvICacheBtb cond rd) (fun _ s => s.invalidateICache.invalidateBtb) rfl
    rw [hicache] at hi
    exact ⟨_, hi, ⟨hlines, rfl, rfl, rfl, rfl⟩, rfl, rfl, .of_eq rfl rfl⟩
  · exact ⟨_, hexec _ (fun _ => State.invalidateDCaches) rfl, ⟨hdlines, rfl, rfl, rfl⟩, rfl, rfl, .of_eq rfl rfl⟩
  · have hi := hexec (.mcrInvIDCacheBtb cond rd)
      (fun _ s => s.invalidateICache.invalidateBtb.invalidateDCaches) rfl
    rw [hcaches] at hi
    exact ⟨_, hi, ⟨hlines, rfl, rfl, rfl, rfl⟩, ⟨hdlines, rfl, rfl, rfl⟩, rfl, rfl, .of_eq rfl rfl⟩
  · have hi := hexec (.mcrInvICacheLine cond rd) (fun v s => s.invalidateILine v) rfl
    rw [hiline] at hi
    exact ⟨_, hi, mem_dropILine s.icache.lines 32 v, mem_dropILine s.miniIc.lines 2 v, rfl, rfl, .of_eq rfl rfl⟩
  · exact ⟨_, hexec _ (fun v s => s.dropDLine v) rfl, mem_filter_not_isDLineOf s.dcache.lines 32 v,
      mem_filter_not_isDLineOf s.miniDc.lines 2 v, findDLine_dropDLine s v, rfl, rfl, .of_eq rfl rfl⟩
  · exact ⟨_, hexec _ (fun _ => State.invalidateBtb) rfl, rfl, rfl, rfl, .of_eq rfl rfl⟩

/-- Settles O38: each function is one update of a TLB, and an entry is left where the update's test leaves it. -/
theorem tlbFunctions : Obligations.TlbFunctions := by
  intro s cond rd h hpriv hrd v emptied without
  have hemptied : ∀ b : Tlb, emptied b b.invalidate := fun b => ⟨mem_invalidate_entries b, rfl, rfl⟩
  have hwithout : ∀ b : Tlb, without b (b.invalidateEntry v) := fun b =>
    ⟨lookup_invalidateEntry b v, mem_invalidateEntry_entries b v, rfl, rfl⟩
  have hexec : ∀ i (f : Word → State → State), exec i s = moveTo cond rd (fun v => modify (f v)) s →
      exec i s = .next (f v s).keepR13Dbg.advance := fun i => exec_moveTo_modify h hpriv hrd
  refine ⟨?_, ?_, ?_, ?_, ?_⟩
  · exact ⟨_, hexec _ (fun _ s => { s with itlb := s.itlb.invalidate, dtlb := s.dtlb.invalidate }) rfl,
      hemptied s.itlb, hemptied s.dtlb, rfl, rfl, .of_eq rfl rfl⟩
  · exact ⟨_, hexec _ (fun _ s => { s with itlb := s.itlb.invalidate }) rfl, hemptied s.itlb, rfl, rfl, .of_eq rfl rfl⟩
  · exact ⟨_, hexec _ (fun _ s => { s with dtlb := s.dtlb.invalidate }) rfl, hemptied s.dtlb, rfl, rfl, .of_eq rfl rfl⟩
  · exact ⟨_, hexec _ (fun v s => { s with itlb := s.itlb.invalidateEntry v }) rfl, hwithout s.itlb, rfl, rfl,
      .of_eq rfl rfl⟩
  · exact ⟨_, hexec _ (fun v s => { s with dtlb := s.dtlb.invalidateEntry v }) rfl, hwithout s.dtlb, rfl, rfl,
      .of_eq rfl rfl⟩

end Sys2Proof.Machine

/-!
SUPPORT. The functions that lock and unlock lines and translations (45_cp15_cp14_operations.md R609 to R618;
21_mmu_caches_tlb.md R215, R229): where a line or a translation is put, and how a lock that cannot be made ends.
Settles O39.
-/

namespace Sys2Proof.Machine
section

variable {s t u : State} {e : TlbEntry} {l1 mva v : Word} {x : Exec Unit}

/-! ### The line of an address, and its place -/

theorem extractLsb'_lineBase (a : Word) {lo n : Nat} (h : 5 ≤ lo) :
    (lineBase a).extractLsb' lo n = a.extractLsb' lo n := by
  apply BitVec.eq_of_getLsbD_eq
  intro i hi
  rw [BitVec.getLsbD_extractLsb', BitVec.getLsbD_extractLsb', lineBase, BitVec.getLsbD_append,
    if_neg (show ¬ lo + i < 5 by omega), BitVec.getLsbD_extractLsb', show 5 + (lo + i - 5) = lo + i by omega]
  by_cases hlt : lo + i < 32
  · rw [decide_eq_true (show lo + i - 5 < 27 by omega), Bool.true_and]
  · rw [BitVec.getLsbD_of_ge a (lo + i) (by omega), Bool.and_false]

theorem setOf_lineBase (a : Word) : setOf (lineBase a) = setOf a :=
  congrArg BitVec.toNat (extractLsb'_lineBase a (by decide))

theorem tagOf_lineBase (a : Word) : tagOf (lineBase a) = tagOf a := extractLsb'_lineBase a (by decide)

theorem findILine_lineBase (lines : List (Nat × ILine)) (ways : Nat) (a : Word) :
    findILine lines ways (lineBase a) = findILine lines ways a := by
  rw [findILine, findILine, setOf_lineBase, tagOf_lineBase]

/-- A locking fill takes the first free way while fewer than 28 are locked, else the one at the pointer. -/
theorem placeLine_locking_way (rr locked : List (Nat × Nat)) (set : Nat) :
    (placeLine rr locked set true).1 = if lockedOf locked set < 28 then lockedOf locked set else rrOf rr set := by
  unfold placeLine
  by_cases hfull : lockedOf locked set < 28 <;> simp [hfull]

theorem placeLine_locking_locked (rr locked : List (Nat × Nat)) (set : Nat) :
    lockedOf (placeLine rr locked set true).2.2 set =
      if lockedOf locked set < 28 then lockedOf locked set + 1 else lockedOf locked set := by
  unfold placeLine
  by_cases hfull : lockedOf locked set < 28
  · simp [hfull, lockedOf_tblPut]
  · simp [hfull]

theorem tblGet_install_locking (c : ICache) (mva pa : Word) (words : List Word) (bad : BitVec 8) (downloaded : Bool) :
    tblGet (c.install mva pa words bad true downloaded).lines
      (32 * setOf mva + (if lockedOf c.locked (setOf mva) < 28 then lockedOf c.locked (setOf mva)
        else rrOf c.rr (setOf mva))) =
      some { tag := tagOf mva, paLine := pa.extractLsb' 5 27, words := words, bad := bad,
             downloaded := downloaded } := by
  rw [← placeLine_locking_way c.rr c.locked]
  exact tblGet_tblSet_self _ _ _

theorem install_lineBase (c : ICache) (mva pa : Word) (words : List Word) (bad : BitVec 8) (lock downloaded : Bool) :
    c.install (lineBase mva) pa words bad lock downloaded = c.install mva pa words bad lock downloaded := by
  rw [ICache.install, ICache.install, setOf_lineBase, tagOf_lineBase]

/-! ### How a lock ends (60_exceptions.md R873) -/

theorem locking_ok (h : x s = .ok () t) : locking x s = .ok () t := by
  simp only [locking, ignoreAbortInSds, onAbort, h]

/-- Outside Special Debug State an abort on the way becomes the Lock Abort. -/
theorem locking_abort {code : BitVec 5} {domain : Option (BitVec 4)} {far : Option Word}
    (h : x s = .error (.dataAbort code domain far) t) (hsds : t.dbgUnit.sds = false) :
    locking x s = .error lockAbort t := by
  simp only [locking, ignoreAbortInSds, onAbort, h, lockAbort, hsds, Bool.false_eq_true, if_false]

/-- The FSR of a Lock Abort: its domain is not valid. -/
theorem faultStatus_lockAbort (free : BitVec 4) : faultStatus 0b10100#5 free &&& 0xFFFFFF0F#32 = 0x404#32 := by
  revert free
  decide

/-- What a Lock Abort leaves (60_exceptions.md R873, R880). -/
theorem entered_lockAbort (hd : s.debugOn = false) :
    ∃ t, endTrap lockAbort s = .next t ∧ Entered .abt 0x10#32 (s.pc + 8#32) false s t ∧
      t.cp15.fsr &&& 0xFFFFFF0F#32 = 0x404#32 := by
  have hreport : ∃ free far n, s.reportFault 0b10100#5 none none =
      { s with cp15 := { s.cp15 with fsr := faultStatus 0b10100#5 free, far := far }, freeCtr := n } :=
    ⟨_, _, _, rfl⟩
  obtain ⟨free, far, n, hreport⟩ := hreport
  have htaken : endTrap lockAbort s = .next ((Exception.dataAbort 0b10100#5 none none).enterFrom
      (s.reportFault 0b10100#5 none none)) := congrArg Host.Outcome.next (takeException_of_debugOff hd _)
  refine ⟨_, htaken, ?_, ?_⟩
  · have hentered := entered_enterFrom_dataAbort 0b10100#5 none none (s.reportFault 0b10100#5 none none)
    rw [hreport] at hentered ⊢
    exact hentered.of_noted (s := s) (d := s.dtlb) (notes := s.scratch) rfl
  · rw [hreport]
    exact faultStatus_lockAbort free

/-- MCR to a function whose lock aborts. -/
theorem completes_lockAbort {cond : BitVec 4} {rd : RegNum} {i : Instr} {write : Word → Exec Unit}
    (h : s.passes cond = true) (hpriv : s.privileged = true) (hrd : rd ≠ 15#4) (hd : s.noDebug = true)
    (hi : exec i s = moveTo cond rd write s) (hwrite : write (s.reg rd) s = .error lockAbort s) :
    Completes i s fun t =>
      Entered .abt 0x10#32 (s.pc + 8#32) false s t ∧ t.cp15.fsr &&& 0xFFFFFF0F#32 = 0x404#32 := by
  obtain ⟨hoff, -⟩ := noDebug_iff.1 hd
  obtain ⟨t, hend, hleft⟩ := entered_lockAbort hoff
  exact ⟨t, (exec_moveTo_error h hpriv hrd hi hwrite).trans hend, hleft⟩

/-! ### What a fetch's translation leaves where every address is memory -/

/-- Where every address is memory, only the instruction TLB and the model's notes differ. -/
def FetchNoted (s t : State) : Prop := s.physMap = [] → ∃ notes b, t = { s with scratch := notes, itlb := b }

theorem FetchNoted.refl (s : State) : FetchNoted s s := fun _ => ⟨s.scratch, s.itlb, rfl⟩

theorem FetchNoted.trans (h : FetchNoted s t) (h' : FetchNoted t u) : FetchNoted s u := by
  intro hm
  obtain ⟨_, _, rfl⟩ := h hm
  obtain ⟨notes, b, rfl⟩ := h' hm
  exact ⟨notes, b, rfl⟩

theorem readDescriptor_fetchNoted (a : Word) (code : BitVec 5) (domain : Option (BitVec 4)) (mva : Word) :
    Within FetchNoted (readDescriptor a code domain mva) := by
  intro s
  cases hregion : s.regionAt a 4 with
  | none =>
    rw [At, readDescriptor_memory hregion]
    exact .refl s
  | some kind =>
    have hmapped : s.physMap ≠ [] := fun hm => Option.some_ne_none kind (hregion.symm.trans (regionAt_plain hm a 4))
    unfold At
    split <;> exact fun hm => absurd hm hmapped

theorem walk_fetchNoted (mva : Word) : Within FetchNoted (walk mva) := by
  refine within_get_bind fun s => (readDescriptor_fetchNoted _ _ _ _).bind .trans (fun l1 => ?_) s
  unfold walkFrom
  dsimp only
  split
  · exact ofExcept_within .refl _
  · split
    · exact fun s => at_fault _ (.refl s)
    · split
      · exact pure_within .refl _
      · exact (readDescriptor_fetchNoted _ _ _ _).bind .trans fun _ => ofExcept_within .refl _

theorem translate_fetchNoted (mva : Word) (priv write : Bool) : Within FetchNoted (translate true mva priv write) := by
  have hfind : Within FetchNoted (findEntry true mva) := by
    refine within_get_bind fun s => ?_
    split
    · exact at_pure _ (.refl s)
    · have hmiss : FetchNoted s (s.noteTlbMiss true) := fun _ => ⟨_, s.itlb, rfl⟩
      refine at_set_bind (at_bind ((walk_fetchNoted mva).at .trans hmiss) fun e t h => ?_)
      have hinsert : FetchNoted t (t.setTlb true ((t.tlb true).insert e)) := fun _ => ⟨t.scratch, _, rfl⟩
      exact at_modify_bind (at_pure _ (h.trans hinsert))
  exact hfind.bind .trans fun _ => within_get_bind fun s =>
    (ofExcept_within .refl _).bind .trans (fun _ => pure_within .refl _) s

/-! ### Locking an instruction line (R610) -/

theorem readILine_memory (h : s.physMap = []) (pa : Word) : s.readILine pa = some (lineWords s.mem pa, s) := by
  rw [State.readILine, regionAt_plain h]

/-- The requirements of R229 are not met, or the line is resident. -/
def State.refusesLock (s : State) (v : Word) : Bool :=
  !s.mayLockCode || (findILine s.icache.lines 32 (lineBase v)).isSome

theorem refusesLock_iff :
    s.refusesLock v = true ↔ s.mayLockCode = false ∨ (findILine s.icache.lines 32 v).isSome = true := by
  rw [State.refusesLock, findILine_lineBase, Bool.or_eq_true, Bool.not_eq_true']

theorem lockILine_refused (h : s.refusesLock v = true) :
    lockILine v s = .error (.refuse .lockFunction) s := congrFun (if_pos h) s

theorem lockILine_ok {pa : Word} {a : Attrs} (h : s.refusesLock v = false) (hpriv : s.privileged = true)
    (htranslate : translate true (lineBase v) true false s = .ok (pa, a) u) (hc : a.c = true) (hm : u.physMap = []) :
    lockILine v s =
      .ok () { u with icache := u.icache.install v pa (lineWords u.mem pa) 0#8 true false } := by
  have hplace : lockPlace (lineBase v) s = .ok pa u := by
    unfold lockPlace
    rw [get_bind_apply, hpriv, bind_apply_of_ok htranslate]
    exact congrFun (if_pos hc) u
  refine (congrFun (if_neg (Bool.eq_false_iff.1 h)) s).trans (locking_ok ((bind_apply_of_ok hplace _).trans ?_))
  rw [get_bind_apply, readILine_memory hm, ← install_lineBase]
  rfl

/-! ### Locking a translation (R615, R616) -/

theorem lockTlbEntry_walks (instr : Bool) (hon : s.mmuOn = true) (hmiss : (s.tlb instr).lookup mva = none) :
    lockTlbEntry instr mva s =
      locking (do let e ← walk mva; modify fun s => s.setTlb instr ((s.tlb instr).insertLocked e)) s := by
  unfold lockTlbEntry
  rw [get_bind_apply, hon, hmiss]
  rfl

theorem walk_firstLevel_here (hm : s.physMap = []) (mva : Word) :
    walk mva s = walkFrom (s.firstLevel mva) mva s := walk_memory (regionAt_plain hm _ _)

/-- What O39 says that locking a section's translation does to a TLB. -/
def LocksSection (l1 v : Word) (a b : Tlb) : Prop :=
  (∃ e, tblGet b.entries (if a.lock ≤ 30 then a.lock else 31) = some e ∧ e.covers v = true ∧
    e.physical v = l1.extractLsb' 20 12 ++ v.extractLsb' 0 20) ∧
    b.lock = (if a.lock ≤ 30 then a.lock + 1 else a.lock) ∧ b.rr = 31

/-- A locked translation goes to the lock pointer (21_mmu_caches_tlb.md R215). -/
theorem insertLocked_eq (b : Tlb) (e : TlbEntry) :
    b.insertLocked e = { entries := tblSet b.entries (if b.lock ≤ 30 then b.lock else 31) e, rr := 31,
                         lock := if b.lock ≤ 30 then b.lock + 1 else b.lock } := by
  unfold Tlb.insertLocked
  split <;> rfl

theorem locksSection_insertLocked {attr : Bool} (he : e.IsPageOf .section1M l1 v attr) (b : Tlb) :
    LocksSection l1 v b (b.insertLocked e) := by
  rw [insertLocked_eq]
  exact ⟨⟨e, tblGet_tblSet_self _ _ _, he.covers, he.physical fun i hi => getLsbD_splice l1 v 20 12 hi⟩, rfl, rfl⟩

/-- A section is put into the TLB. -/
theorem lockTlbEntry_section (instr : Bool) (hon : s.mmuOn = true) (hmiss : (s.tlb instr).lookup v = none)
    (hm : s.physMap = []) (hkind : (s.firstLevel v).extractLsb' 0 2 = 2#2) (h9 : (s.firstLevel v).getLsbD 9 = false) :
    ∃ b, lockTlbEntry instr v s = .ok () (s.setTlb instr b) ∧ LocksSection (s.firstLevel v) v (s.tlb instr) b := by
  obtain ⟨e, he, -⟩ := walkFrom_section (s := s) (mva := v) hkind h9
  have hwalk := (walk_firstLevel_here hm v).trans he
  exact ⟨_, (lockTlbEntry_walks instr hon hmiss).trans (locking_ok (bind_apply_of_ok hwalk _)),
    locksSection_insertLocked (walkFrom_section_page hkind h9 he) _⟩

/-- An address without a descriptor is a Lock Abort. -/
theorem lockTlbEntry_fault (instr : Bool) (hon : s.mmuOn = true) (hmiss : (s.tlb instr).lookup v = none)
    (hm : s.physMap = []) (hkind : (s.firstLevel v).extractLsb' 0 2 = 0#2) (hsds : s.dbgUnit.sds = false) :
    lockTlbEntry instr v s = .error lockAbort s := by
  have hwalk := (walk_firstLevel_here hm v).trans (walkFrom_fault hkind)
  exact (lockTlbEntry_walks instr hon hmiss).trans (locking_abort (bind_apply_of_error hwalk _) hsds)

theorem lockTlbEntry_refused (hoff : s.mmuOn = false) (instr : Bool) (v : Word) :
    lockTlbEntry instr v s = .error (.refuse .lockFunction) s := by
  unfold lockTlbEntry
  rw [get_bind_apply, hoff]
  rfl

/-! ### Functions that need their unit on (R609, R614) -/

theorem whereOn_on {on : State → Bool} (h : on s = true) (f : State → State) (r : Refusal) :
    (do let s ← get; if on s then set (f s) else refuseWith r : Exec Unit) s = .ok () (f s) := by
  rw [get_bind_apply, if_pos h]
  rfl

theorem whereOn_off {on : State → Bool} (h : on s = false) (x : State → Exec Unit) (r : Refusal) :
    (do let s ← get; if on s then x s else refuseWith r : Exec Unit) s = .error (.refuse r) s := by
  rw [get_bind_apply, h]
  rfl

end

/-- Settles O39: a lock that its requirements allow puts the line or the translation in its place (`lockILine_ok`,
`lockTlbEntry_section`), one of an address without a descriptor is the Lock Abort (`entered_lockAbort`), and the rest
have no meaning. -/
theorem lockFunctions : Obligations.LockFunctions := by
  intro s cond rd h hpriv hrd v l1 locks n
  have hunlocks : ∀ i (on : State → Bool) (f : State → State),
      exec i s = moveTo cond rd (fun _ => do let s ← get; if on s then set (f s) else refuseWith .lockFunction) s →
      on s = true → exec i s = .next (f s).keepR13Dbg.advance :=
    fun i on f hi hon => exec_moveTo h hpriv hrd hi (whereOn_on hon f _)
  have hstops : ∀ i (write : Word → Exec Unit), exec i s = moveTo cond rd write s →
      write v s = .error (.refuse .lockFunction) s → exec i s = .refused .lockFunction :=
    fun i write hi hw => exec_moveTo_error h hpriv hrd hi hw
  refine ⟨fun pa a u hmay hmiss hm htranslate hc => ?_, fun hon => ?_, fun hon => ?_,
    fun hon hm hkind h9 => ⟨fun hmiss => ?_, fun hmiss => ?_⟩, fun hon => ⟨?_, ?_⟩, fun hbad => ?_, fun hoff => ?_,
    fun hoff => ⟨?_, ?_⟩, fun hoff => ?_, fun hon hd hm hkind => ⟨fun hmiss => ?_, fun hmiss => ?_⟩⟩
  · obtain ⟨notes, b, rfl⟩ := (translate_fetchNoted _ _ _).ok htranslate hm
    have hallowed : s.refusesLock v = false := by
      rw [State.refusesLock, findILine_lineBase, hmay, hmiss]
      rfl
    have hlock := lockILine_ok hallowed hpriv htranslate hc hm
    exact ⟨_, exec_moveTo h hpriv hrd rfl hlock, tblGet_install_locking s.icache v pa _ _ _,
      placeLine_locking_locked _ _ _, rfl, rfl, rfl, .of_eq rfl rfl⟩
  · exact ⟨_, hunlocks _ State.icacheOn (fun s => { s with icache := { s.icache with locked := [] } }) rfl hon, rfl,
      rfl, rfl, .of_eq rfl rfl⟩
  · exact ⟨_, hunlocks _ State.dcacheOn (fun s => { s with dcache := { s.dcache with locked := [] } }) rfl hon, rfl,
      rfl, rfl, .of_eq rfl rfl⟩
  · obtain ⟨b, hlock, hlocks⟩ := lockTlbEntry_section true hon hmiss hm hkind h9
    exact ⟨_, exec_moveTo h hpriv hrd rfl hlock, hlocks, rfl, rfl, .of_eq rfl rfl⟩
  · obtain ⟨b, hlock, hlocks⟩ := lockTlbEntry_section false hon hmiss hm hkind h9
    exact ⟨_, exec_moveTo h hpriv hrd rfl hlock, hlocks, rfl, rfl, .of_eq rfl rfl⟩
  · exact ⟨_, hunlocks _ State.mmuOn (fun s => { s with itlb := s.itlb.unlock }) rfl hon, rfl,
      rfl, rfl, .of_eq rfl rfl⟩
  · exact ⟨_, hunlocks _ State.mmuOn (fun s => { s with dtlb := s.dtlb.unlock }) rfl hon, rfl,
      rfl, rfl, .of_eq rfl rfl⟩
  · exact hstops _ lockILine rfl (lockILine_refused (refusesLock_iff.2 hbad))
  · exact hstops _ (fun _ => unlockICache) rfl (whereOn_off hoff _ _)
  · exact hstops _ (fun _ => unlockDCache) rfl (whereOn_off hoff _ _)
  · exact hstops _ writeDCacheLock rfl (whereOn_off hoff _ _)
  · simp only [List.forall_mem_cons]
    exact ⟨hstops _ (lockTlbEntry true) rfl (lockTlbEntry_refused hoff true v),
      hstops _ (lockTlbEntry false) rfl (lockTlbEntry_refused hoff false v),
      hstops _ (fun _ => unlockTlb true) rfl (whereOn_off hoff _ _),
      hstops _ (fun _ => unlockTlb false) rfl (whereOn_off hoff _ _), List.forall_mem_nil _⟩
  · exact completes_lockAbort h hpriv hrd hd rfl
      (lockTlbEntry_fault true hon hmiss hm hkind (sds_of_noDebug hd))
  · exact completes_lockAbort h hpriv hrd hd rfl
      (lockTlbEntry_fault false hon hmiss hm hkind (sds_of_noDebug hd))

end Sys2Proof.Machine

/-!
SUPPORT. The Thumb data-processing instructions (46_thumb.md R664, R670 to R696): a register is written or none, then
the flags. Settles O43 and O44.
-/

namespace Sys2Proof.Machine

theorem lowReg_ne_pc : ∀ r : BitVec 3, lowReg r ≠ 15#4 := by decide

/-- What O43 and O44 say of an instruction: its result in these registers, N and Z of the result, C and V. -/
def GivesFlagged (i : Instr) (dest : List RegNum) (v : Word) (c o : Bool) (s : State) : Prop :=
  Completes i s fun t => (∀ k ∈ dest, t.reg k = v) ∧ Advances s t ∧ Frame dest s t ∧
    FlagsAre v.msb (decide (v = 0#32)) c o s t

section

variable {s u : State} {dest : List RegNum} {i : Instr} {rd : BitVec 3} {v : Word} {c o : Bool}

theorem WritesRegs.refl (s : State) : WritesRegs [] s s := ⟨.refl _ s, rfl, rfl⟩

theorem WritesRegs.keepR13Dbg (h : WritesRegs dest s u) : WritesRegs dest s u.keepR13Dbg :=
  ⟨h.frame.trans h.mode (frame_keepR13Dbg u), h.cpsr, h.pc⟩

/-- A low register written, with the note that R13_dbg stays reliable (48_debug_jtag.md R813). -/
theorem writesRegs_low (s : State) (rd : BitVec 3) (v : Word) :
    WritesRegs [lowReg rd] s (s.setReg (lowReg rd) v).keepR13Dbg := (writesRegs_setReg s (lowReg rd) v).keepR13Dbg

/-! ### The shapes of meaning -/

/-- Registers written, then N and Z of the result, C and V. -/
theorem givesFlagged (h : WritesRegs dest s u) (hv : ∀ k ∈ dest, k ≠ 15#4 ∧ u.reg k = v)
    (hi : exec i s = .next (u.setNzcv v.msb (v == 0#32) c o).advance) : GivesFlagged i dest v c o s :=
  (completes_flagged (sf := true) h hi).mono fun _ ⟨hreg, hrest⟩ =>
    ⟨fun k hk => (hreg k (hv k hk).1).trans (hv k hk).2, hrest⟩

/-- A low register is written with the result, and notes may be taken. -/
theorem givesFlagged_low (h : WritesRegs [lowReg rd] s u) (hv : u.reg (lowReg rd) = v)
    (hi : exec i s = .next (u.setNzcv v.msb (v == 0#32) c o).advance) : GivesFlagged i [lowReg rd] v c o s :=
  givesFlagged h (List.forall_mem_singleton.2 ⟨lowReg_ne_pc rd, hv⟩) hi

theorem reg_setReg_low (s : State) (rd : BitVec 3) (v : Word) : (s.setReg (lowReg rd) v).reg (lowReg rd) = v :=
  reg_setReg_self s _ v (lowReg_ne_pc rd)

/-- A result with C from a shift or kept; V stays (R664). -/
theorem givesFlagged_logical (hi : exec i s = thumbLogical rd v c s) :
    GivesFlagged i [lowReg rd] v c s.flagV s := by
  refine givesFlagged_low (writesRegs_low s rd v) (reg_setReg_low s rd v) (hi.trans ?_)
  simp only [thumbLogical, State.setLogical, State.setNzc, flagV_setReg]
  rfl

/-- The same as O43 says it of a shift. -/
theorem gives_shift {x : Shifted} (hi : exec i s = thumbLogical rd x.value x.carry s) :
    Completes i s fun t => t.reg (lowReg rd) = x.value ∧ Advances s t ∧ Frame [lowReg rd] s t ∧
      FlagsAre x.value.msb (decide (x.value = 0#32)) x.carry s.flagV s t :=
  (givesFlagged_logical hi).mono fun _ ⟨hreg, hrest⟩ => ⟨hreg _ (List.mem_singleton_self _), hrest⟩

/-- MUL takes no note of R13_dbg; C and V stay (R694). -/
theorem givesFlagged_mul (rm rd : BitVec 3) (s : State) :
    GivesFlagged (.tMul rm rd) [lowReg rd] (s.low rm * s.low rd) s.flagC s.flagV s := by
  refine givesFlagged_low (writesRegs_setReg s (lowReg rd) _) (reg_setReg_low s rd _) ?_
  rw [← flagC_setReg s (lowReg rd) (s.low rm * s.low rd), ← flagV_setReg s (lowReg rd) (s.low rm * s.low rd)]
  rfl

theorem givesFlagged_tst (rm rn : BitVec 3) (s : State) :
    GivesFlagged (.tTst rm rn) [] (s.low rn &&& s.low rm) s.flagC s.flagV s :=
  givesFlagged (WritesRegs.refl s).keepR13Dbg (List.forall_mem_nil _) rfl

variable {x y : Word} {carryIn : Bool} {total : Int}

/-- A sum in a low register. -/
theorem givesFlagged_sum (h : AddsTo x y carryIn v c total) (hi : exec i s = thumbSum rd (addWithCarry x y carryIn) s) :
    GivesFlagged i [lowReg rd] v c (decide (v.toInt ≠ total)) s := by
  refine givesFlagged_low (writesRegs_low s rd v) (reg_setReg_low s rd v) (hi.trans ?_)
  rw [thumbSum, setSum_of_addsTo h, ← h.value]
  rfl

/-- A comparison writes no register (R678, R691, R692). -/
theorem givesFlagged_compare (h : AddsTo x y carryIn v c total)
    (hi : exec i s = thumbCompare (addWithCarry x y carryIn) s) :
    GivesFlagged i [] v c (decide (v.toInt ≠ total)) s := by
  refine givesFlagged (WritesRegs.refl s).keepR13Dbg (List.forall_mem_nil _) (hi.trans ?_)
  rw [thumbCompare, setSum_of_addsTo h]
  rfl

end

/-- Settles O43: each instruction is `thumbLogical` of its result, but for MUL and TST. -/
theorem thumbShiftsAndLogic : Obligations.ThumbShiftsAndLogic := by
  intro s imm5 rs rm rd imm8 r sets n gives
  have hmul := givesFlagged_mul rm rd s
  rw [BitVec.mul_comm] at hmul
  exact ⟨gives_shift rfl, gives_shift rfl, gives_shift rfl, gives_shift rfl, gives_shift rfl, gives_shift rfl,
    gives_shift rfl, givesFlagged_logical rfl, givesFlagged_logical rfl, givesFlagged_logical rfl,
    givesFlagged_logical rfl, givesFlagged_logical rfl, givesFlagged_logical rfl, hmul, givesFlagged_tst rm rd s⟩

/-- Settles O44: each instruction is an AddWithCarry, of an inverted operand for a difference. -/
theorem thumbArithmetic : Obligations.ThumbArithmetic := by
  intro s imm3 rm rn rd imm8 r c b sets plus minus
  exact ⟨givesFlagged_sum (addsTo_add _ _) rfl, givesFlagged_sum (addsTo_sub _ _) rfl,
    givesFlagged_sum (addsTo_add _ _) rfl, givesFlagged_sum (addsTo_sub _ _) rfl,
    givesFlagged_sum (addsTo_add _ _) rfl, givesFlagged_sum (addsTo_sub _ _) rfl,
    givesFlagged_sum (addsTo_add_carry _ _ _) rfl, givesFlagged_sum (addsTo_sub_borrow _ _ _) rfl,
    givesFlagged_sum (addsTo_sub _ _).symm rfl, givesFlagged_compare (addsTo_sub _ _) rfl,
    givesFlagged_compare (addsTo_sub _ _) rfl, givesFlagged_compare (addsTo_add _ _) rfl⟩

end Sys2Proof.Machine

/-!
SUPPORT. The Thumb high-register operations and address forms (46_thumb.md R700 to R702, R722 to R725): a result into a
register, or into R15 as a branch that keeps T. Settles O45.
-/

namespace Sys2Proof.Machine
section

variable {s : State} {i : Instr} {d : RegNum} {v : Word} {h1 h2 : Bool} {rm rd : BitVec 3}

/-- A scaled immediate (46_thumb.md R705 to R725). -/
theorem zeroExtend_shift {n : Nat} (imm : BitVec n) (k : Nat) :
    ((imm.zeroExtend 32) <<< k : Word) = BitVec.ofNat 32 (2 ^ k * imm.toNat) := by
  apply BitVec.eq_of_toNat_eq
  rw [BitVec.toNat_shiftLeft, BitVec.toNat_ofNat, BitVec.toNat_setWidth, Nat.shiftLeft_eq, Nat.mul_comm,
    Nat.mul_mod_mod]

theorem imm4_eq {n : Nat} (imm : BitVec n) : imm4 imm = BitVec.ofNat 32 (4 * imm.toNat) := zeroExtend_shift imm 2

/-- In Thumb state R15 reads as the instruction's address plus 4 (10_state.md R24). -/
theorem pcRead_thumb (h : s.thumb = true) : s.pcRead = s.pc + 4#32 := by
  rw [State.pcRead, if_pos h]

/-! ### A result without flags -/

theorem completes_thumbHigh (hd : d ≠ 15#4) (hi : exec i s = thumbHigh d v s) :
    Completes i s fun t => t.reg d = v ∧ Advances s t ∧ FlagsKept s t ∧ Frame [d] s t :=
  (completes_flagged (sf := false) (n := false) (z := false) (c := false) (v := false)
    (writesRegs_setReg s d v).keepR13Dbg (hi.trans (if_neg hd))).mono
    fun _ ⟨hreg, hpc, hframe, hflags⟩ => ⟨(hreg d hd).trans (reg_setReg_self s d v hd), hpc, hflags, hframe⟩

/-- A result for R15 is a branch in Thumb state (43_branch_status_system.md R520). -/
theorem completes_thumbHigh_pc (hd : d = 15#4) (hi : exec i s = thumbHigh d v s) :
    Completes i s fun t => t.pc = v &&& 0xFFFFFFFE#32 ∧ FlagsKept s t ∧ Frame [] s t :=
  ⟨_, hi.trans (if_pos hd), rfl, rfl, .of_eq rfl rfl⟩

/-! ### The forms with a high register -/

section

variable (h : h1 = true ∨ h2 = true)
include h

theorem not_bothLow : ¬ (!h1 && !h2) = true := by
  rcases h with rfl | rfl <;> simp

theorem exec_tAdd4 : exec (.tAdd4 h1 h2 rm rd) s =
    thumbHigh (highReg h1 rd) (s.reg (highReg h1 rd) + s.reg (highReg h2 rm)) s := if_neg (not_bothLow h)

theorem exec_tMov3 : exec (.tMov3 h1 h2 rm rd) s = thumbHigh (highReg h1 rd) (s.reg (highReg h2 rm)) s :=
  if_neg (not_bothLow h)

theorem exec_tCmp3 : exec (.tCmp3 h1 h2 rm rd) s =
    if highReg h1 rd = 15#4 then .refused .r15Operand
    else thumbCompare (addWithCarry (s.reg (highReg h1 rd)) (~~~(s.reg (highReg h2 rm))) true) s :=
  if_neg (not_bothLow h)

end

/-! ### The address forms -/

/-- The sum of a word and a scaled immediate, in a register other than R15. -/
theorem completes_addressForm {n : Nat} {imm : BitVec n} {base : Word} {f : Word → Word → Word} (hd : d ≠ 15#4)
    (hi : exec i s = thumbHigh d (f base (imm4 imm)) s) :
    Completes i s fun t => t.reg d = f base (BitVec.ofNat 32 (4 * imm.toNat)) ∧ Advances s t ∧ FlagsKept s t ∧
      Frame [d] s t := by
  rw [imm4_eq] at hi
  exact completes_thumbHigh hd hi

end

/-- Settles O45: `thumbHigh` of the result, a comparison, or both registers low. -/
theorem thumbHighRegisters : Obligations.ThumbHighRegisters := by
  intro s h1 h2 rm rd imm8 imm7 d x y gives
  refine ⟨fun h => ⟨⟨fun hd => ?_, fun hd => ?_⟩, ⟨fun hd => ?_, fun hd => ?_⟩, fun hd => ?_, fun hd => ?_⟩,
    fun hlow hlow' => ?_, fun hthumb => ?_⟩
  · exact completes_thumbHigh hd (exec_tAdd4 h)
  · exact completes_thumbHigh_pc hd (exec_tAdd4 h)
  · exact completes_thumbHigh hd (exec_tMov3 h)
  · exact completes_thumbHigh_pc hd (exec_tMov3 h)
  · exact (givesFlagged_compare (addsTo_sub x y) ((exec_tCmp3 h).trans (if_neg hd))).mono fun _ ht => ht.2
  · exact (exec_tCmp3 h).trans (if_pos hd)
  · subst hlow hlow'
    simp only [List.forall_mem_cons]
    exact ⟨rfl, rfl, rfl, List.forall_mem_nil _⟩
  · rw [← pcRead_thumb hthumb]
    have hlow := lowReg_ne_pc rd
    exact ⟨completes_addressForm (f := (· + ·)) hlow rfl, completes_addressForm (f := (· + ·)) hlow rfl,
      completes_addressForm (f := (· + ·)) (by decide) rfl, completes_addressForm (f := (· - ·)) (by decide) rfl⟩

end Sys2Proof.Machine

/-!
SUPPORT. The Thumb loads and stores of one register where data accesses are plain (46_thumb.md R665, R705 to R721): the
same two shapes of meaning as in ARM state, at an address without write-back. Settles O46 and O47.
-/

namespace Sys2Proof.Machine
section

variable {s : State} {i : Instr} {rd : BitVec 3} {a : Word} {n : Nat}

/-! ### The two shapes of meaning -/

/-- What O46 says of a load of n bytes. -/
def ThumbLoadsAt (s : State) (i : Instr) (rd : BitVec 3) (a : Word) (n : Nat) (v : Word) : Prop :=
  s.alignedFor a n = true →
    Completes i s fun t => t.reg (lowReg rd) = v ∧ Advances s t ∧ FlagsKept s t ∧ Frame [lowReg rd] s t

/-- What O47 says of a store of n bytes. -/
def ThumbStoresAt (s : State) (i : Instr) (rd : BitVec 3) (a : Word) (n : Nat) : Prop :=
  s.alignedFor a n = true →
    Completes i s fun t => Stored a n (s.reg (lowReg rd)) s t ∧ Advances s t ∧ FlagsKept s t ∧ RegsKept [] s t ∧
      RestKeptButMemory s t

/-- An address without write-back asks nothing of the base. -/
theorem baseFree_plain (r r' : RegNum) (a : Word) : BaseFree r r' (plainAddress a) :=
  fun hw => absurd hw Bool.false_ne_true

variable (h : s.plainData = true)
include h

theorem thumbLoad_plain {f : Word → List Byte → Word} {v : Word}
    (hi : exec i s = thumbLoad rd a (fun a => memReadAs (f a) a n s.privileged) s)
    (hv : f a ((s.lanes a n).map s.dataByte) = v) : ThumbLoadsAt s i rd a n v := fun ha =>
  (loadsRegister_plain h (lowReg_ne_pc rd) (baseFree_plain 0#4 _ a) hi hv ha).mono
    fun _ ⟨hreg, _, hrest⟩ => ⟨hreg, hrest⟩

theorem thumbStore_plain (hn : n ≤ 4) (hi : exec i s = thumbStore rd a n s) : ThumbStoresAt s i rd a n := fun ha =>
  (storesRegister_plain (rn := 0#4) (ad := plainAddress a) h (baseFree_plain 0#4 (lowReg rd) a) hn hi ha).mono
    fun _ ⟨hstored, _, hrest⟩ => ⟨hstored, hrest⟩

/-- A word is rotated by the bytes that its address is off (20_memory.md R131). -/
theorem thumbLoad_word (hi : exec i s = thumbLoad rd a (fun a => memReadWord a s.privileged) s) :
    ThumbLoadsAt s i rd a 4 ((s.loaded a 4).rotateRight (8 * (a.toNat % 4))) :=
  thumbLoad_plain (f := fun a bs => rotateLoaded a (wordOf bs)) h hi (rotateLoaded_eq _ _)

theorem thumbLoad_unsigned (hi : exec i s = thumbLoad rd a (fun a => memRead a n s.privileged) s) :
    ThumbLoadsAt s i rd a n (s.loaded a n) :=
  thumbLoad_plain (f := fun _ => wordOf) h hi rfl

omit h

/-! ### Scaled immediates -/

variable {b : Word} (base : Word) (imm5 : BitVec 5)

theorem scaledWord : base + (imm5.zeroExtend 32) <<< 2 = base + BitVec.ofNat 32 (4 * imm5.toNat) :=
  congrArg (base + ·) (zeroExtend_shift imm5 2)

theorem scaledHalf : base + (imm5.zeroExtend 32) <<< 1 = base + BitVec.ofNat 32 (2 * imm5.toNat) :=
  congrArg (base + ·) (zeroExtend_shift imm5 1)

theorem scaledByte : base + imm5.zeroExtend 32 = base + BitVec.ofNat 32 (1 * imm5.toNat) :=
  congrArg (base + ·) ((BitVec.shiftLeft_zero _).symm.trans (zeroExtend_shift imm5 0))

/-- The address of a load, written another way. -/
theorem exec_thumbLoad_at {read : Word → Exec Word} (hi : exec i s = thumbLoad rd a read s) (hab : a = b) :
    exec i s = thumbLoad rd b read s := hab ▸ hi

theorem exec_thumbStore_at (hi : exec i s = thumbStore rd a n s) (hab : a = b) :
    exec i s = thumbStore rd b n s := hab ▸ hi

end

/-- Settles O46: every load is `thumbLoad` at its address. -/
theorem thumbLoads : Obligations.ThumbLoads := by
  intro s imm5 imm8 rm rn rd hthumb h base index scaled loads word
  rw [← pcRead_thumb hthumb, ← imm4_eq]
  exact ⟨thumbLoad_word h (exec_thumbLoad_at rfl (scaledWord base imm5)), thumbLoad_word h rfl, thumbLoad_word h rfl,
    thumbLoad_word h rfl, thumbLoad_unsigned h (exec_thumbLoad_at rfl (scaledHalf base imm5)),
    thumbLoad_unsigned h rfl, thumbLoad_unsigned h (exec_thumbLoad_at rfl (scaledByte base imm5)),
    thumbLoad_unsigned h rfl, thumbLoad_plain (f := fun _ => signedOf 1) h rfl (signedOf_byte _),
    thumbLoad_plain (f := fun _ => signedOf 2) h rfl (signedOf_half _)⟩

/-- Settles O47: every store is `thumbStore` at its address. -/
theorem thumbStores : Obligations.ThumbStores := by
  intro s imm5 imm8 rm rn rd h base index scaled stores
  rw [← imm4_eq]
  exact ⟨thumbStore_plain h le_rfl (exec_thumbStore_at rfl (scaledWord base imm5)), thumbStore_plain h le_rfl rfl,
    thumbStore_plain h le_rfl rfl, thumbStore_plain h (by decide) (exec_thumbStore_at rfl (scaledHalf base imm5)),
    thumbStore_plain h (by decide) rfl, thumbStore_plain h (by decide) (exec_thumbStore_at rfl (scaledByte base imm5)),
    thumbStore_plain h (by decide) rfl⟩

end Sys2Proof.Machine

/-!
SUPPORT. PUSH, POP, STMIA and LDMIA where data accesses are plain (46_thumb.md R726 to R729): POP is LDM (1) of the same
list, the others are the shared transfers of a list. Settles O48.
-/

namespace Sys2Proof.Machine
section

variable {s : State} {r : Bool} {rn : BitVec 3} {list : BitVec 8} {regs : List RegNum} {q : RegNum}

/-! ### The lists -/

/-- The eight bits of a Thumb list name low registers. -/
theorem high_not_mem_low (hq : 8 ≤ q.toNat) : q ∉ listRegs (list.zeroExtend 16) := by
  rw [mem_listRegs]
  simp [hq]

theorem sp_not_mem_low (list : BitVec 8) : 13#4 ∉ listRegs (list.zeroExtend 16) := high_not_mem_low (by decide)

theorem low_ne_nil (h : list ≠ 0#8) : listRegs (list.zeroExtend 16) ≠ [] := by
  refine listRegs_ne_nil fun he => h ?_
  have hshort := congrArg (BitVec.setWidth 8) he
  simpa using hshort

theorem thumbRegs_none (list : BitVec 8) : thumbRegs list none = listRegs (list.zeroExtend 16) := List.append_nil _

theorem thumbRegs_if (list : BitVec 8) (r : Bool) (q : RegNum) :
    thumbRegs list (if r then some q else none) = listRegs (list.zeroExtend 16) ++ if r then [q] else [] := by
  cases r <;> rfl

/-- A list that is not refused (U44). -/
theorem pushed_ne_nil (h : list ≠ 0#8 ∨ r = true) (q : RegNum) :
    (listRegs (list.zeroExtend 16) ++ if r then [q] else []) ≠ [] := by
  rcases h with h | rfl
  · exact List.append_ne_nil_of_left_ne_nil (low_ne_nil h) _
  · exact List.append_ne_nil_of_right_ne_nil _ (List.cons_ne_nil _ _)

theorem length_pushed (low : List RegNum) (r : Bool) (q : RegNum) :
    (low ++ if r then [q] else []).length = low.length + bit r := by
  cases r <;> simp [bit]

theorem orRefuse_emptyRefusal (h : regs ≠ []) (b : Result) : orRefuse (emptyRefusal regs) b = b := by
  rw [emptyRefusal, if_neg (by simpa using h)]
  rfl

/-! ### Stores -/

/-- A base that is not in the list spoils no word. -/
theorem listedWords_of_not_mem {w : Bool} {base : RegNum} (h : base ∉ regs) (value : RegNum → Word) (a : Word) :
    listedWords w base regs value a =
      regs.mapIdx fun j q => (a + BitVec.ofNat 32 (4 * j), some (value q)) := by
  refine List.ext_getElem? fun j => ?_
  simp only [listedWords, List.getElem?_mapIdx]
  refine Option.map_congr fun q hq => ?_
  have hne : (q == base) = false := beq_eq_false_iff_ne.2 fun he => h (he ▸ List.mem_of_getElem? hq)
  rw [hne]
  simp

theorem exec_tPush (h : list ≠ 0#8 ∨ r = true) : exec (.tPush r list) s =
    storeMultiple true false true 13#4 (listRegs (list.zeroExtend 16) ++ if r then [14#4] else []) s.reg s := by
  rw [← thumbRegs_if]
  exact orRefuse_emptyRefusal (thumbRegs_if list r 14#4 ▸ pushed_ne_nil h 14#4) _

/-- PUSH stores the list below SP, R14 last (R726). -/
theorem completes_tPush (hplain : s.plainData = true) (h : list ≠ 0#8 ∨ r = true) :
    let regs := listRegs (list.zeroExtend 16) ++ if r then [14#4] else []
    let n := (listRegs (list.zeroExtend 16)).length + bit r
    let top := s.reg 13#4 - BitVec.ofNat 32 (4 * n)
    s.alignedFor top 4 = true → top.toNat / 4 + n ≤ 2 ^ 30 →
    (∀ j, j < n → s.mva (top + BitVec.ofNat 32 (4 * j)) = s.mva top + BitVec.ofNat 32 (4 * j)) →
    Completes (.tPush r list) s fun t =>
      StoredWords (regs.mapIdx fun j q => (top + BitVec.ofNat 32 (4 * j), some (s.reg q))) s t ∧ t.reg 13#4 = top ∧
        Advances s t ∧ FlagsKept s t ∧ RegsKept [13#4] s t ∧ RestKeptButMemory s t := by
  intro regs n top ha hspan hmva
  have hlength : regs.length = n := length_pushed _ r 14#4
  have hsp : 13#4 ∉ regs := by
    cases r <;> simpa [regs] using sp_not_mem_low list
  have hstored := storeMultiple_plain hplain (by decide) (exec_tPush h) (by rwa [hlength]) (by rwa [hlength])
    (by rwa [hlength])
  rw [hlength, listedWords_of_not_mem hsp] at hstored
  refine hstored.mono ?_
  rintro t ⟨hwords, hbase, hrest⟩
  exact ⟨hwords, hbase rfl, hrest⟩

theorem exec_tStmia (h : list ≠ 0#8) : exec (.tStmia rn list) s =
    storeMultiple false true true (lowReg rn) (listRegs (list.zeroExtend 16)) s.reg s := by
  rw [← thumbRegs_none]
  exact orRefuse_emptyRefusal (thumbRegs_none list ▸ low_ne_nil h) _

/-! ### Loads -/

/-- Two instructions of one meaning. -/
theorem Completes.of_exec_eq {i j : Instr} {P : State → Prop} (h : Completes j s P) (hij : exec i s = exec j s) :
    Completes i s P := by
  rwa [Completes, hij]

theorem passes_always (s : State) : s.passes 14#4 = true := rfl

variable (hplain : s.plainData = true)
include hplain

theorem exec_tLdmia (h : list ≠ 0#8) : exec (.tLdmia rn list) s =
    loadMultiple s.mode false true (!(listRegs (list.zeroExtend 16)).contains (lowReg rn)) (lowReg rn)
      (listRegs (list.zeroExtend 16)) (fun vs t => endLoad none (t.setRegs vs)) s := by
  rw [← thumbRegs_none]
  refine (orRefuse_emptyRefusal (thumbRegs_none list ▸ low_ne_nil h) _).trans ?_
  rw [inDebug_of_plainData hplain]
  rfl

/-- LDMIA of its own base writes nothing back (R729). -/
theorem completes_tLdmia (h : list ≠ 0#8) (ha : s.alignedFor (s.reg (lowReg rn)) 4 = true)
    (hspan : (s.reg (lowReg rn)).toNat / 4 + (listRegs (list.zeroExtend 16)).length ≤ 2 ^ 30) :
    let low := listRegs (list.zeroExtend 16)
    let base := s.reg (lowReg rn)
    Completes (.tLdmia rn list) s fun t =>
      (∀ j q, low[j]? = some q → t.reg q = s.loaded (base + BitVec.ofNat 32 (4 * j)) 4) ∧
        (low.contains (lowReg rn) = false → t.reg (lowReg rn) = base + BitVec.ofNat 32 (4 * low.length)) ∧
        Advances s t ∧ FlagsKept s t ∧ Frame (lowReg rn :: low) s t := by
  intro low base
  have h15 : 15#4 ∉ low := high_not_mem_low (by decide)
  have hbase : (!low.contains (lowReg rn)) = true → lowReg rn ≠ 15#4 ∧ lowReg rn ∉ low := fun hw =>
    ⟨lowReg_ne_pc rn, by simpa using hw⟩
  obtain ⟨notes, hload⟩ := loadMultiple_plain hplain s.mode false true (!low.contains (lowReg rn)) (lowReg rn)
    (fun vs t => endLoad none (t.setRegs vs)) (regs := low) ha hspan
  obtain ⟨g, hset, hloaded⟩ := listLoaded_setRegs (nodup_listRegs _) h15 hbase base
    (base + BitVec.ofNat 32 (4 * low.length)) notes
  have hframe : Frame _ s (State.advance { s with gpr := g, scratch := notes }) := .of hloaded.others rfl
  refine ⟨State.advance { s with gpr := g, scratch := notes }, ?_, fun j q hj => ?_, fun hnot => ?_, rfl, rfl,
    hframe.mono ?_⟩
  · exact (exec_tLdmia hplain h).trans (hload.trans (congrArg (endLoad none) hset))
  · exact (reg_eq_bankReg (fun he => h15 (he ▸ List.mem_of_getElem? hj)) rfl).trans (hloaded.words j q hj)
  · exact (reg_eq_bankReg (lowReg_ne_pc rn) rfl).trans (hloaded.base (by rw [hnot]; rfl))
  · intro q hq
    split at hq
    · exact hq
    · exact List.mem_cons_of_mem _ hq

/-- POP is LDM of the list with SP as its base (R727). -/
theorem exec_tPop {l : BitVec 16} (hl : thumbRegs list (if r then some 15#4 else none) = listRegs l)
    (hne : listRegs l ≠ []) (hsp : 13#4 ∉ listRegs l) :
    exec (.tPop r list) s = exec (.ldm1 14#4 false true true 13#4 l) s := by
  rw [exec_ldm1 (passes_always s) (inDebug_of_plainData hplain) (by decide) hne fun _ => by simpa using hsp, ← hl]
  refine (orRefuse_emptyRefusal (hl ▸ hne) _).trans ?_
  rw [inDebug_of_plainData hplain]
  rfl

omit hplain

/-- A Thumb list as the list of LDM (1) without R15. -/
theorem zeroExtend_short (list : BitVec 8) : (list.zeroExtend 15).zeroExtend 16 = list.zeroExtend 16 := by
  simp

theorem short_ne_zero (h : list ≠ 0#8) : list.zeroExtend 15 ≠ 0#15 := fun he => h (by
  have hbyte := congrArg (BitVec.setWidth 8) he
  simpa using hbyte)

/-- What POP asks is what LDM of the same list asks. -/
theorem loadsList_pop {n : Nat} (hplain : s.plainData = true) (ha : s.alignedFor (s.reg 13#4) 4 = true)
    (hspan : (s.reg 13#4).toNat / 4 + n ≤ 2 ^ 30) :
    LoadsList s 14#4 false true true 13#4 (list.zeroExtend 15) n where
  plain := hplain
  passes := passes_always s
  notPc := by decide
  aligned := ha
  span := hspan
  base _ := by
    rw [zeroExtend_short]
    simpa using sp_not_mem_low list

/-- POP without R15. -/
theorem completes_tPop (hplain : s.plainData = true) (hlist : list ≠ 0#8) (ha : s.alignedFor (s.reg 13#4) 4 = true)
    (hspan : (s.reg 13#4).toNat / 4 + (listRegs (list.zeroExtend 16)).length ≤ 2 ^ 30) :
    let low := listRegs (list.zeroExtend 16)
    Completes (.tPop false list) s fun t =>
      (∀ j q, low[j]? = some q → t.reg q = s.loaded (s.reg 13#4 + BitVec.ofNat 32 (4 * j)) 4) ∧
        t.reg 13#4 = s.reg 13#4 + BitVec.ofNat 32 (4 * low.length) ∧ Advances s t ∧ FlagsKept s t ∧
        Frame (13#4 :: low) s t := by
  intro low
  have hldm := ldm1_plain (loadsList_pop (list := list) hplain ha hspan) (by rw [zeroExtend_short])
    (short_ne_zero hlist)
  rw [zeroExtend_short] at hldm
  have hexec := exec_tPop (r := false) hplain (thumbRegs_none list) (low_ne_nil hlist) (sp_not_mem_low list)
  refine (hldm.of_exec_eq hexec).mono ?_
  rintro t ⟨hwords, hsp, hrest⟩
  exact ⟨hwords, hsp rfl, hrest⟩

/-- POP of R15 branches to the last word, whose bit 0 selects the state (R727). -/
theorem completes_tPop_pc (hplain : s.plainData = true) (ha : s.alignedFor (s.reg 13#4) 4 = true)
    (hspan : (s.reg 13#4).toNat / 4 + ((listRegs (list.zeroExtend 16)).length + 1) ≤ 2 ^ 30) :
    let low := listRegs (list.zeroExtend 16)
    let v := s.loaded (s.reg 13#4 + BitVec.ofNat 32 (4 * low.length)) 4
    v.extractLsb' 0 2 ≠ 2#2 → Completes (.tPop true list) s fun t =>
      (∀ j q, low[j]? = some q → t.reg q = s.loaded (s.reg 13#4 + BitVec.ofNat 32 (4 * j)) 4) ∧
        t.reg 13#4 = s.reg 13#4 + BitVec.ofNat 32 (4 * (low.length + 1)) ∧ Interworks v s t ∧
        Frame (13#4 :: low) s t := by
  intro low v hv
  have hlow := zeroExtend_short list
  have hl : thumbRegs list (some 15#4) = listRegs (1#1 ++ list.zeroExtend 15) := by
    rw [listRegs_pc, hlow]
    rfl
  have hsp : 13#4 ∉ listRegs (1#1 ++ list.zeroExtend 15) := by
    rw [listRegs_pc, hlow]
    simpa using sp_not_mem_low list
  obtain ⟨hldm, -⟩ := ldm1_pc (loadsList_pop (list := list) hplain ha (hlow.symm ▸ hspan))
  rw [hlow] at hldm
  refine ((hldm hv).of_exec_eq (exec_tPop (r := true) hplain hl (listRegs_pc_ne_nil _) hsp)).mono ?_
  rintro t ⟨hwords, hbase, hrest⟩
  exact ⟨hwords, hbase rfl, hrest⟩

end

/-- Settles O48: the stores as store multiple, LDMIA by `completes_tLdmia`, POP as LDM (1). -/
theorem thumbMultiple : Obligations.ThumbMultiple := by
  intro s r rn list h low k sp base top at_ fits
  refine ⟨fun hlist ⟨ha, hspan, hmva⟩ => ?_, fun hlist ⟨ha, hspan, hmva⟩ => ?_,
    fun hlist ⟨ha, hspan, _⟩ => completes_tLdmia h hlist ha hspan, fun hlist ⟨ha, hspan, _⟩ => ⟨?_, ?_⟩, ?_⟩
  · exact completes_tPush h hlist ha hspan hmva
  · refine (storeMultiple_plain h (lowReg_ne_pc rn) (exec_tStmia hlist) ha hspan hmva).mono ?_
    rintro t ⟨hwords, hbase, hrest⟩
    exact ⟨hwords, hbase rfl, hrest⟩
  · rintro rfl
    exact completes_tPop h (hlist.resolve_right Bool.false_ne_true) ha hspan
  · rintro rfl
    exact completes_tPop_pc h ha hspan
  · simp only [List.forall_mem_cons]
    exact ⟨rfl, rfl, rfl, rfl, List.forall_mem_nil _⟩

end Sys2Proof.Machine

/-!
SUPPORT. The Thumb branches (46_thumb.md R703, R704, R730, R740 to R743): targets, the link register with bit 0 set, and
what the branch target buffer may change. Settles O49.
-/

namespace Sys2Proof.Machine
section

variable {s : State} {i : Instr}

/-! ### Targets -/

/-- An offset field that counts units of 2 to the k bytes is extended with its sign once k zero bits stand under it. -/
theorem signExtend_shift {n : Nat} (hn : 0 < n) (imm : BitVec n) (k : Nat) :
    ((imm.signExtend 32) <<< k : Word) = (imm ++ 0#k).signExtend 32 := by
  refine BitVec.eq_of_getLsbD_eq fun i hi => ?_
  have hmsb : (imm ++ 0#k).msb = imm.msb := by rw [BitVec.msb_append, if_neg hn.ne']
  simp only [BitVec.getLsbD_shiftLeft, BitVec.getLsbD_signExtend, BitVec.getLsbD_append, hmsb, hi, decide_true,
    Bool.true_and]
  by_cases hk : i < k
  · simp [hk, show i < n + k by omega]
  · have hfield : i - k < n ↔ i < n + k := by omega
    simp [hk, hfield, show i - k < 32 by omega]

/-- In Thumb state (R730, R740). -/
theorem thumbTarget_eq {n : Nat} (hn : 0 < n) (hthumb : s.thumb = true) (imm : BitVec n) :
    s.thumbTarget imm = s.pc + 4#32 + (imm ++ 0#1).signExtend 32 := by
  rw [State.thumbTarget, pcRead_thumb hthumb, signExtend_shift hn]

theorem instrBytes_thumb (hthumb : s.thumb = true) : s.instrBytes = 2#32 := by
  rw [State.instrBytes, if_pos hthumb]

/-! ### The link register -/

theorem cpsr_linkThumb (s : State) : s.linkThumb.cpsr = s.cpsr := setReg_cpsr s _ _

theorem reg_linkThumb (s : State) : s.linkThumb.reg 14#4 = (s.pc + 2#32) ||| 1#32 := reg_setReg_self s _ _ (by decide)

theorem bankReg_linkThumb (s : State) : s.linkThumb.bankReg s.mode 14#4 = (s.pc + 2#32) ||| 1#32 :=
  bankReg_setReg_self s _ _ (by decide)

/-- The note of the branch, the link, and then an update of the CPSR, the PC and the notes alone. -/
theorem frame_linkedThumb {t : State} (hg : t.gpr = s.noteBranch.linkThumb.gpr)
    (hr : RestKept s.noteBranch.linkThumb t) : Frame [14#4] s t :=
  ((frame_noteBranch s).trans rfl (frame_setReg s.noteBranch 14#4 _)).trans (mode_setReg s.noteBranch _ _)
    (.of_eq hg hr)

/-! ### Branches that the branch target buffer knows -/

/-- A taken branch, for a BL with its offset field: the buffer may have changed before the link and the jump. -/
theorem directBranch_taken_suffix (target : Word) (suffix : Option (BitVec 11)) (link : State → State) (s : State) :
    ∃ b, directBranch true target suffix link s = .next ((link { s.noteBranch with btb := b }).jump target false) := by
  obtain ⟨b, hb⟩ := btbUpdate_eq (s := s.noteBranch) target true suffix
  exact ⟨b, by rw [directBranch, hb]; rfl⟩

theorem completes_directBranch {taken : Bool} {target : Word}
    (hi : exec i s = directBranch taken target none (fun t => t) s) :
    Completes i s fun t => t.pc = (if taken then target else s.pc + s.instrBytes) ∧ FlagsKept s t ∧
      Frame [] s { t with btb := s.btb } := by
  cases taken
  · obtain ⟨m, b, hb⟩ := directBranch_fail (s := s) target (fun t => t)
    exact ⟨_, hi.trans hb, rfl, rfl, .of_eq rfl rfl⟩
  · obtain ⟨b, hb⟩ := directBranch_taken target (fun t => t) s
    exact ⟨_, hi.trans hb, rfl, rfl, .of_eq rfl rfl⟩

/-- B with an offset from the PC (R730, R740). -/
theorem completes_thumbBranch {taken : Bool} {n : Nat} {imm : BitVec n} (hn : 0 < n) (hthumb : s.thumb = true)
    (hi : exec i s = directBranch taken (s.thumbTarget imm) none (fun t => t) s) :
    Completes i s fun t =>
      t.pc = (if taken then s.pc + 4#32 + (imm ++ 0#1).signExtend 32 else s.pc + 2#32) ∧ FlagsKept s t ∧
        Frame [] s { t with btb := s.btb } := by
  rw [← thumbTarget_eq hn hthumb, ← instrBytes_thumb hthumb]
  exact completes_directBranch hi

/-! ### The halves of a long call -/

theorem completes_tBlPrefix (hthumb : s.thumb = true) (off11 : BitVec 11) :
    Completes (.tBlPrefix off11) s fun t =>
      t.reg 14#4 = s.pc + 4#32 + (off11 ++ 0#12).signExtend 32 ∧ t.pc = s.pc + 2#32 ∧ FlagsKept s t ∧
        Frame [14#4] s t := by
  have hregs := writesRegs_setReg s 14#4 (s.pcRead + (off11.signExtend 32) <<< 12)
  rw [← pcRead_thumb hthumb, ← signExtend_shift (by decide), ← instrBytes_thumb hthumb]
  refine (completes_flagged (sf := false) (n := false) (z := false) (c := false) (v := false) hregs rfl).mono ?_
  rintro t ⟨hreg, hpc, hframe, hflags⟩
  exact ⟨(hreg 14#4 (by decide)).trans (reg_setReg_self s _ _ (by decide)), hpc, hflags, hframe⟩

theorem completes_tBlSuffix (off11 : BitVec 11) (s : State) :
    Completes (.tBlSuffix off11) s fun t =>
      t.pc = (s.reg 14#4 + BitVec.ofNat 32 (2 * off11.toNat)) &&& 0xFFFFFFFE#32 ∧
        t.reg 14#4 = (s.pc + 2#32) ||| 1#32 ∧ FlagsKept s t ∧ Frame [14#4] s { t with btb := s.btb } := by
  obtain ⟨b, hb⟩ := directBranch_taken_suffix
    ((s.reg 14#4 + ((off11.zeroExtend 32) <<< 1)) &&& 0xFFFFFFFE#32) (some off11) State.linkThumb s
  have hkept := regsKept_setReg { s.noteBranch with btb := b } 14#4 ((s.pc + 2#32) ||| 1#32)
  refine ⟨_, hb, ?_, reg_linkThumb { s.noteBranch with btb := b }, cpsr_linkThumb _, .of hkept ?_⟩
  · exact congrArg (fun offset => (s.reg 14#4 + offset) &&& 0xFFFFFFFE#32) (zeroExtend_shift off11 1)
  · rw [State.linkThumb, State.setReg, if_neg (by decide)]
    rfl

/-- The second half of BLX leaves Thumb state after R14 is written. -/
theorem completes_tBlxSuffix (off10 : BitVec 10) (s : State) :
    Completes (.tBlxSuffix off10) s fun t =>
      t.pc = (s.reg 14#4 + BitVec.ofNat 32 (4 * off10.toNat)) &&& 0xFFFFFFFC#32 ∧
        t.reg 14#4 = (s.pc + 2#32) ||| 1#32 ∧ t.thumb = false ∧
        t.cpsr &&& 0xFFFFFFDF#32 = s.cpsr &&& 0xFFFFFFDF#32 ∧ Frame [14#4] s t := by
  have hlink : (s.noteBranch.linkThumb.setThumb false).reg 14#4 = (s.pc + 2#32) ||| 1#32 :=
    (reg_setThumb (by decide) s.noteBranch.linkThumb false).trans (reg_linkThumb s.noteBranch)
  have hcpsr := setThumb_allButT s.noteBranch.linkThumb false
  rw [cpsr_linkThumb] at hcpsr
  refine ⟨_, rfl, ?_, hlink, thumb_setThumb (s := s.noteBranch.linkThumb) false, hcpsr, frame_linkedThumb rfl rfl⟩
  exact congrArg (fun offset => (s.reg 14#4 + offset) &&& 0xFFFFFFFC#32) (zeroExtend_shift off10 2)

/-! ### BX and BLX with a register -/

variable {h2 : Bool} {rm : BitVec 3}

theorem exec_tBx : exec (.tBx h2 rm) s = s.noteBranch.interwork (s.reg (highReg h2 rm)) := rfl

theorem exec_tBlx2 (hrm : highReg h2 rm ≠ 15#4) :
    exec (.tBlx2 h2 rm) s = s.noteBranch.linkThumb.interwork (s.reg (highReg h2 rm)) := if_neg hrm

variable (hv : (s.reg (highReg h2 rm)).extractLsb' 0 2 ≠ 2#2)
include hv

theorem completes_tBx :
    Completes (.tBx h2 rm) s fun t => Interworks (s.reg (highReg h2 rm)) s t ∧ Frame [] s t :=
  ⟨_, exec_tBx.trans (interwork_legal hv _), interworks_branched rfl _, .of_eq rfl rfl⟩

theorem completes_tBlx2 (hrm : highReg h2 rm ≠ 15#4) :
    Completes (.tBlx2 h2 rm) s fun t => Interworks (s.reg (highReg h2 rm)) s t ∧
      t.bankReg s.mode 14#4 = (s.pc + 2#32) ||| 1#32 ∧ Frame [14#4] s t :=
  ⟨_, (exec_tBlx2 hrm).trans (interwork_legal hv _), interworks_branched (cpsr_linkThumb s.noteBranch) _,
    bankReg_linkThumb s.noteBranch, frame_linkedThumb rfl rfl⟩

end

/-- Settles O49: the branches with an offset by `completes_thumbBranch`, the others each by its own lemma. -/
theorem thumbBranches : Obligations.ThumbBranches := by
  intro s lo mid hi h2 imm8 imm11 imm10 rm hthumb here link lr r v conditional
  exact ⟨completes_thumbBranch (by decide) hthumb rfl, completes_thumbBranch (by decide) hthumb rfl,
    completes_thumbBranch (by decide) hthumb rfl,
    completes_thumbBranch (taken := true) (by decide) hthumb rfl, completes_tBlPrefix hthumb imm11,
    completes_tBlSuffix imm11 s, completes_tBlxSuffix imm10 s,
    fun hv => ⟨completes_tBx hv, completes_tBlx2 hv⟩,
    fun hv => exec_tBx.trans (interwork_unaligned hv _), rfl⟩

end Sys2Proof.Machine

/-!
SUPPORT. Taking an exception with debugging off, and the return from a SWI (60_exceptions.md R880 to R882, R885;
43_branch_status_system.md R521). Settles O29 and O30.
-/

namespace Sys2Proof.Machine
section

variable {s t u : State} {m : Mode} {offset link : Word} {f : Bool}

/-! ### Taking an exception -/

/-- Before the entry the fault registers and the count of free values may have changed. -/
theorem Entered.of_reported {fsr far : Word} {n : Nat}
    (hu : u = { s with cp15 := { s.cp15 with fsr := fsr, far := far }, freeCtr := n })
    (h : Entered m offset link f u t) : Entered m offset link f s t := by
  subst hu
  obtain ⟨hlink, hregs, hspsr, hmode, hthumb, hI, hF, hcpsr, hpc, hbytes, hrest⟩ := h
  refine ⟨hlink, hregs, hspsr, hmode, hthumb, hI, hF, hcpsr, hpc, hbytes, ?_⟩
  exact congrArg (fun x : State => { x with
    cp15 := { x.cp15 with fsr := s.cp15.fsr, far := s.cp15.far }, freeCtr := s.freeCtr }) hrest

/-- Every exception is the entry that its row of the table gives, at the offset of its vector (R881). -/
theorem entered_takeException (h : s.debugOn = false) (e : Exception) (vector : BitVec 3) (hvector : e.vector = vector)
    (hoffset : 0#27 ++ vector ++ 0#2 = offset) :
    Entered e.mode offset (e.link s.pc s.thumb) (e == .fiq) s (takeException e s) := by
  obtain ⟨fsr, far, n, hreport⟩ := report_rest e s
  have hentered := entered_enterFrom e (e.report s)
  rw [takeException_of_debugOff h, ← hoffset, ← hvector]
  rw [hreport] at hentered ⊢
  exact hentered.of_reported rfl

/-! ### The return from a SWI -/

theorem Entered.spsrOf (h : Entered m offset link f s t) {k : Fin 6} (hm : m.spsrIndex = some k) :
    t.spsrOf = some s.cpsr := by
  obtain ⟨-, -, hspsr, hmode, -⟩ := h
  rw [State.spsrOf, hmode, hm, Option.map_some, hspsr k, if_pos hm]

/-- The link register of the mode that was entered. -/
theorem Entered.reg_link (h : Entered m offset link f s t) : t.reg 14#4 = link := by
  obtain ⟨hlink, -, -, hmode, -⟩ := h
  rw [State.reg, if_neg (by decide), hmode, hlink]

/-- MOVS PC, R14 is the return to the link value (43_branch_status_system.md R521). -/
theorem completes_movs_pc_link {w : Word} (hw : t.spsrOf = some w) (hm : (modeOf (w.extractLsb' 0 5)).isSome = true)
    (hv : (t.reg 14#4).extractLsb' 0 2 = 0#2) :
    Completes (.mov 14#4 true 15#4 (.shift 0#5 0#2 14#4)) t fun u =>
      u.cpsr = w ∧ u.pc = (if w.getLsbD 5 then t.reg 14#4 &&& 0xFFFFFFFE#32 else t.reg 14#4) ∧ BytesKept t u ∧
        RegsKept [] t u := by
  let op2 : Op2 := .shift 0#5 0#2 14#4
  obtain ⟨hregs, hbytes, -⟩ := frame_restored_jump t op2 w
    (if w.getLsbD 5 then t.reg 14#4 &&& 0xFFFFFFFE#32 else t.reg 14#4)
  have hreturn := exceptionReturn_completes (s := t.dpBegin op2) (v := t.reg 14#4) ((spsrOf_dpBegin t op2).trans hw) hm
    (.inl hv)
  have hexec := (exec_mov 14#4 true 15#4 op2 t).trans (logicalOp_pc (passes_always t) rfl _)
  exact ⟨_, hexec.trans hreturn, rfl, rfl, hbytes, hregs⟩

/-- The word after an aligned word is aligned. -/
theorem next_aligned {a : Word} (h : a.extractLsb' 0 2 = 0#2) : (a + 4#32).extractLsb' 0 2 = 0#2 := by
  have hmod : a.toNat % 4 = 0 := by simpa using congrArg BitVec.toNat h
  apply BitVec.eq_of_toNat_eq
  rw [toNat_low2, BitVec.toNat_add, BitVec.toNat_ofNat, BitVec.toNat_ofNat]
  omega

end

/-- Settles O29: each clause is `entered_takeException` for its exception. -/
theorem exceptionEntry : Obligations.ExceptionEntry := by
  intro s code domain far h
  have hoff : s.debugOn = false := (noDebug_iff.1 h).1
  exact ⟨entered_takeException hoff .undefined 1#3 rfl (by decide), entered_takeException hoff .swi 2#3 rfl (by decide),
    entered_takeException hoff (.prefetchAbort code) 3#3 rfl (by decide),
    entered_takeException hoff (.dataAbort code domain far) 4#3 rfl (by decide),
    entered_takeException hoff (.impreciseAbort code) 4#3 rfl (by decide),
    entered_takeException hoff .irq 6#3 rfl (by decide), entered_takeException hoff .fiq 7#3 rfl (by decide)⟩

/-- Settles O30: the SWI leaves the CPSR in SPSR_svc and the address of the next instruction in R14_svc, from which
`completes_movs_pc_link` returns. -/
theorem entryThenReturn : Obligations.EntryThenReturn := by
  intro s imm24 h hm hthumb haligned
  have hexec : exec (.swi 14#4 imm24) s = softwareInterrupt s := when_pass (passes_always s) _
  refine (completes_swi h hexec).mono ?_
  rintro t ⟨hentered, -, -⟩
  have hlink : t.reg 14#4 = s.pc + 4#32 := by
    rw [hentered.reg_link, State.instrBytes, hthumb]
    rfl
  have hreturn := completes_movs_pc_link (hentered.spsrOf rfl) hm (by rw [hlink]; exact next_aligned haligned)
  obtain ⟨-, hregs, -, -, -, -, -, -, -, hbytes, -⟩ := hentered
  refine hreturn.mono ?_
  rintro u ⟨hcpsr, hpc, hkept, hsame⟩
  have hT : s.cpsr.getLsbD 5 = false := hthumb
  refine ⟨hcpsr, ?_, hbytes.trans hkept, fun i hi => ?_⟩
  · rw [hpc, hT, hlink]
    rfl
  · exact (hsame i fun r hr => absurd hr (List.not_mem_nil)).trans (hregs i hi)

end Sys2Proof.Machine

/-!
SUPPORT. The boundary before an instruction with debugging off: an imprecise abort that is due, then FIQ and IRQ, and
the wait of an interrupt (60_exceptions.md R863, R875, R880, R890, R891). Settles O54.
-/

namespace Sys2Proof.Machine

/-- What O54 asks of the state before the step: the core runs, with debugging, monitor and write buffer out of it. -/
structure State.AtBoundary (s : State) : Prop where
  schedule : s.schedule = []
  inReset : s.inReset = false
  power : s.power = .active
  resetTrap : s.dbgUnit.resetTrap = false
  debugOn : s.debugOn = false
  sds : s.dbgUnit.sds = false
  mode : s.mode ≠ .dbg
  bankHazard : s.bankHazard = false
  writeBuffer : s.writeBuffer = []
  pmuOff : s.pmu.pmnc.getLsbD 0 = false

/-- The state in which an event is taken or the instruction goes on: postponed breaks noted, the notes of the step
clear, a number of free values drawn, the wait as it is then. -/
def State.waited (s : State) (n : Nat) (w : Option Nat) : State :=
  { s.holdBreak with scratch := Scratch.clear, freeCtr := n, asyncWait := w }

/-- What O54 says of an interrupt that is taken. -/
def TakesInterrupt (s : State) (m : Mode) (vector : Word) (setF : Bool) : Prop :=
  ∃ t, step s = .next t ∧ t.asyncWait = none ∧
    Entered m vector (s.pc + 4#32) setF s { t with asyncWait := s.asyncWait } ∧ t.cp15 = s.cp15

section

variable {s t u : State} {m : Mode} {offset link : Word} {f : Bool} {code : BitVec 5} {w : Option Nat}

/-! ### From the state at the boundary to the state before the step -/

/-- The wait, the count of free values, the debug unit and the notes may have changed before the entry. -/
theorem Entered.of_waited {n : Nat} (h : Entered m offset link f (s.waited n w) t) :
    Entered m offset link f s { t with asyncWait := s.asyncWait } := by
  obtain ⟨hlink, hregs, hspsr, hmode, hthumb, hI, hF, hcpsr, hpc, hbytes, hrest⟩ := h
  refine ⟨hlink, hregs, hspsr, hmode, hthumb, hI, hF, hcpsr, hpc, hbytes, ?_⟩
  exact congrArg (fun x : State => { x with
    dbgUnit := s.dbgUnit, scratch := s.scratch, freeCtr := s.freeCtr, asyncWait := s.asyncWait }) hrest

/-- The abort that is taken waits no more. -/
theorem Entered.of_abortSeen {n : Nat}
    (h : Entered m offset link f { s.waited n s.asyncWait with pendingAbort := none } t) :
    Entered m offset link f s { t with pendingAbort := s.pendingAbort } := by
  obtain ⟨hlink, hregs, hspsr, hmode, hthumb, hI, hF, hcpsr, hpc, hbytes, hrest⟩ := h
  refine ⟨hlink, hregs, hspsr, hmode, hthumb, hI, hF, hcpsr, hpc, hbytes, ?_⟩
  exact congrArg (fun x : State => { x with
    dbgUnit := s.dbgUnit, scratch := s.scratch, freeCtr := s.freeCtr, pendingAbort := s.pendingAbort }) hrest

theorem Entered.bankHazard (h : Entered m offset link f s t) : t.bankHazard = s.bankHazard := by
  obtain ⟨-, -, -, -, -, -, -, -, -, -, hrest⟩ := h
  have hkept := congrArg State.bankHazard hrest
  exact hkept

/-! ### A step that takes an event -/

theorem exception_mode_ne_dbg (e : Exception) : e.mode ≠ .dbg := by
  cases e <;> exact Mode.noConfusion

/-- Nothing follows the entry of an event (`endStep_of_quiet`). -/
theorem step_of_event (h : s.AtBoundary) {e : Exception} (hu : u.debugOn = false) (hz : u.bankHazard = false)
    (hb : boundary s.beginStep = (takeException e u, true)) :
    step s = .next (takeException e u) := by
  have hentered := entered_takeException hu e e.vector rfl rfl
  have hhazard : ({ takeException e u with bankHazard := false } : State) = takeException e u := by
    rw [← hentered.bankHazard.trans hz]
  have hnotes : (takeException e u).scratch.dataBreak = false := by
    rw [takeException_of_debugOff hu]
    rfl
  have hmode : (takeException e u).mode ≠ .dbg := by
    obtain ⟨-, -, -, hmode, -⟩ := hentered
    rw [hmode]
    exact exception_mode_ne_dbg e
  have hrun : runCore s = endEntry s (.next (takeException e u)) := by
    rw [runCore, hb]
  rw [step_of_empty h.schedule, coreTurn_of_active h.inReset h.power, hrun, endEntry_next, hhazard,
    endStep_of_quiet false (tracing_of_debugOff h.debugOn) h.pmuOff hnotes h.mode hmode]

/-! ### An imprecise abort that is due (R875) -/

theorem boundary_of_abort (h : s.AtBoundary) (hp : s.pendingAbort = some { code := code, wait := 0 }) :
    boundary s.beginStep =
      (takeException (.impreciseAbort code) { s.waited s.freeCtr s.asyncWait with pendingAbort := none }, true) := by
  let held : State := State.holdBreak { s with scratch := Scratch.clear }
  have htrap : held.dbgUnit.resetTrap = false := h.resetTrap
  have hdue : held.abortDue = (some code, { held with pendingAbort := none }) := by
    unfold State.abortDue
    rw [show held.pendingAbort = some { code := code, wait := 0 } from hp]
    rfl
  have hsds : held.dbgUnit.sds = false := h.sds
  rw [beginStep_of_empty h.writeBuffer]
  unfold boundary
  simp only [show State.holdBreak { s with scratch := Scratch.clear } = held from rfl, htrap, hdue, hsds,
    Bool.false_eq_true, if_false]
  rfl

/-- The two fields of the FSR that hold the code (R871). -/
theorem faultStatus_code : ∀ (c : BitVec 5) (domain : BitVec 4),
    (faultStatus c domain).getLsbD 10 = c.getLsbD 4 ∧
      (faultStatus c domain).extractLsb' 0 4 = c.extractLsb' 0 4 := by decide

/-- The FSR of an exception without a valid domain and fault address. -/
theorem fsr_impreciseAbort (hu : u.debugOn = false) (code : BitVec 5) :
    ∃ domain, (takeException (.impreciseAbort code) u).cp15.fsr = faultStatus code domain :=
  ⟨_, congrArg (·.cp15.fsr) (takeException_of_debugOff hu _)⟩

theorem step_of_abort (h : s.AtBoundary) (hp : s.pendingAbort = some { code := code, wait := 0 }) :
    ∃ t, step s = .next t ∧ t.pendingAbort = none ∧
      Entered .abt 0x10#32 (s.pc + 4#32) false s { t with pendingAbort := s.pendingAbort } ∧
      t.cp15.fsr.getLsbD 10 = code.getLsbD 4 ∧ t.cp15.fsr.extractLsb' 0 4 = code.extractLsb' 0 4 := by
  let u : State := { s.waited s.freeCtr s.asyncWait with pendingAbort := none }
  have hu : u.debugOn = false := h.debugOn
  obtain ⟨domain, hfsr⟩ := fsr_impreciseAbort hu code
  have hentered := entered_takeException hu (.impreciseAbort code) 4#3 rfl (by decide : _ = 0x10#32)
  obtain ⟨hhigh, hlow⟩ := faultStatus_code code domain
  refine ⟨_, step_of_event h hu h.bankHazard (boundary_of_abort h hp), ?_, hentered.of_abortSeen, ?_, ?_⟩
  · rw [takeException_of_debugOff hu]
    rfl
  · rw [hfsr, hhigh]
  · rw [hfsr, hlow]

/-! ### FIQ and IRQ (R890, R891) -/

/-- With debugging off no external break is due. -/
theorem extDue_of_debugOff (h : s.debugOn = false) : s.extDue = false := by
  simp [State.extDue, h]

theorem takeAsync_of_debugOff (h : s.debugOn = false) :
    s.takeAsync = takeException (if s.fiqDue then .fiq else .irq) s := by
  rw [State.takeAsync, extDue_of_debugOff h, if_neg Bool.false_ne_true]
  split <;> rfl

variable (h : s.AtBoundary)
include h

theorem boundary_of_noAbort (hp : s.pendingAbort = none) :
    boundary s.beginStep = asyncEvents (s.waited s.freeCtr s.asyncWait) := by
  rw [beginStep_of_empty h.writeBuffer,
    boundary_of_none (by exact h.resetTrap) (by exact hp) (breakAtOnce_of_debugOff (by exact h.debugOn))]
  rfl

theorem fiqDue_waited (n : Nat) (w : Option Nat) : (s.waited n w).fiqDue = (s.fiqLevel && !s.maskF) := by
  have hsds : (s.waited n w).dbgUnit.sds = false := h.sds
  rw [State.fiqDue, hsds]
  exact Bool.and_true _

theorem irqDue_waited (n : Nat) (w : Option Nat) : (s.waited n w).irqDue = (s.irqLevel && !s.maskI) := by
  have hsds : (s.waited n w).dbgUnit.sds = false := h.sds
  rw [State.irqDue, hsds]
  exact Bool.and_true _

/-- An event is due where an interrupt is asserted and not masked. -/
theorem asyncDue_waited (n : Nat) (w : Option Nat) :
    (s.waited n w).asyncDue = (s.fiqLevel && !s.maskF || s.irqLevel && !s.maskI) := by
  have hoff : (s.waited n w).debugOn = false := h.debugOn
  rw [State.asyncDue, extDue_of_debugOff hoff, fiqDue_waited h, irqDue_waited h, Bool.false_or]

/-- An exception without a report, taken at the boundary. -/
theorem takesInterrupt {e : Exception} {n : Nat} {vector : BitVec 3} (hreport : ∀ u, e.report u = u)
    (hlink : ∀ pc thumb, e.link pc thumb = pc + 4#32) (hvector : e.vector = vector)
    (hoffset : 0#27 ++ vector ++ 0#2 = offset)
    (hb : boundary s.beginStep = (takeException e (s.waited n none), true)) :
    TakesInterrupt s e.mode offset (e == .fiq) := by
  have hoff : (s.waited n none).debugOn = false := h.debugOn
  have hentered := entered_takeException hoff e vector hvector hoffset
  rw [hlink] at hentered
  refine ⟨_, step_of_event h hoff h.bankHazard hb, ?_, hentered.of_waited, ?_⟩
  · rw [takeException_of_debugOff hoff, hreport]
    cases e <;> rfl
  · rw [takeException_of_debugOff hoff, hreport]
    cases e <;> rfl

/-- FIQ comes before IRQ (R863). -/
theorem takes_of_boundary {n : Nat} (hb : boundary s.beginStep = ((s.waited n none).takeAsync, true)) :
    if s.fiqLevel && !s.maskF then TakesInterrupt s .fiq 0x1C#32 true else TakesInterrupt s .irq 0x18#32 false := by
  have hoff : (s.waited n none).debugOn = false := h.debugOn
  rw [takeAsync_of_debugOff hoff, fiqDue_waited h] at hb
  split at hb
  next hfiq =>
    rw [if_pos hfiq]
    exact takesInterrupt h (e := .fiq) (fun _ => rfl) (fun _ _ => rfl) rfl (by decide) hb
  next hirq =>
    rw [if_neg hirq]
    exact takesInterrupt h (e := .irq) (fun _ => rfl) (fun _ _ => rfl) rfl (by decide) hb

end

/-- Settles O54: the abort by `step_of_abort`; without one the boundary is `asyncEvents`, by whether an event is due and
how long it still waits. -/
theorem boundaryEvents : Obligations.BoundaryEvents := by
  intro s code hschedule hreset hpower htrap hdebug hmode hhazard hbuffer hpmu fiq irq goesOn takes taken
  obtain ⟨hoff, hsds⟩ := noDebug_iff.1 hdebug
  have h : s.AtBoundary := ⟨hschedule, hreset, hpower, htrap, hoff, hsds, hmode, hhazard, hbuffer, hpmu⟩
  refine ⟨step_of_abort h, fun hp => ?_⟩
  have hboundary := boundary_of_noAbort h hp
  have hdue := asyncDue_waited h s.freeCtr s.asyncWait
  refine ⟨fun hfiq hirq => ⟨s.freeCtr, ?_⟩, fun hany => ?_⟩
  · have hnone : (s.waited s.freeCtr s.asyncWait).asyncDue = false := by
      rw [hdue, Bool.or_eq_false_iff]
      exact ⟨hfiq, hirq⟩
    exact hboundary.trans (asyncEvents_of_not_due hnone)
  · have hsome : (s.waited s.freeCtr s.asyncWait).asyncDue = true := by
      rw [hdue, Bool.or_eq_true]
      exact hany
    refine ⟨fun hw => ?_, fun n hw => ⟨s.freeCtr, ?_⟩, fun hw => ?_⟩
    · exact takes_of_boundary h (hboundary.trans (asyncEvents_of_ready hsome hw))
    · exact hboundary.trans (asyncEvents_of_wait hsome hw)
    · rcases asyncEvents_of_new hsome hw with hevent | ⟨n, hevent⟩
      · exact .inl (takes_of_boundary h (hboundary.trans hevent))
      · exact .inr ⟨n, _, hboundary.trans hevent⟩

end Sys2Proof.Machine

/-!
SUPPORT. The reset pin (70_reset_and_hazards.md R940 to R947; 48_debug_jtag.md R772, R830): the status register, the
bits of DCSR and DBG_REG, and the caches that a processor reset leaves. Settles O52.
-/

namespace Sys2Proof.Machine
section

variable {s : State}

/-! ### The status register (R941) -/

/-- The low byte of the CPSR after a reset: Supervisor mode, ARM state, both interrupts masked. -/
theorem getLsbD_resetCpsr (x : BitVec 24) {i : Nat} (hi : i < 8) :
    (x ++ 0xD3#8 : Word).getLsbD i = (0xD3#8).getLsbD i := by
  rw [BitVec.getLsbD_append, if_pos hi]

theorem processorReset_status (s : State) : s.processorReset.mode = .svc ∧ s.processorReset.thumb = false ∧
    s.processorReset.maskI = true ∧ s.processorReset.maskF = true := by
  have hmode : (s.cpsr.extractLsb' 8 24 ++ 0xD3#8 : Word).extractLsb' 0 5 = Mode.svc.code := by
    refine BitVec.eq_of_getLsbD_eq fun i hi => ?_
    rw [BitVec.getLsbD_extractLsb', Nat.zero_add, getLsbD_resetCpsr _ (by omega), decide_eq_true hi, Bool.true_and]
    revert i
    decide
  refine ⟨?_, getLsbD_resetCpsr _ (by decide), getLsbD_resetCpsr _ (by decide), getLsbD_resetCpsr _ (by decide)⟩
  change (modeOf ((s.cpsr.extractLsb' 8 24 ++ 0xD3#8 : Word).extractLsb' 0 5)).getD .usr = .svc
  rw [hmode, modeOf_code]
  rfl

/-! ### Registers of which a reset writes some bits -/

/-- A bit that a mask keeps. -/
theorem getLsbD_and_of_mask {n : Nat} (x : BitVec n) {keep : BitVec n} {i : Nat} (h : keep.getLsbD i = true) :
    (x &&& keep).getLsbD i = x.getLsbD i := by
  rw [BitVec.getLsbD_and, h, Bool.and_true]

/-- A bit that a mask clears. -/
theorem getLsbD_and_of_clear {n : Nat} (x : BitVec n) {keep : BitVec n} {i : Nat} (h : keep.getLsbD i = false) :
    (x &&& keep).getLsbD i = false := by
  rw [BitVec.getLsbD_and, h, Bool.and_false]

theorem reset_auxControl : State.reset.cp15.auxControl &&& 0x33#32 = 0#32 := by decide

/-- H and the trap bits of DCSR are the debugger's (48_debug_jtag.md R772). -/
theorem dcsrReset_kept (dcsr : Word) :
    ∀ i ∈ [16, 17, 18, 19, 20, 22, 23, 30], (dcsrReset dcsr).getLsbD i = dcsr.getLsbD i := by
  have hmask : ∀ i ∈ [16, 17, 18, 19, 20, 22, 23, 30], (0x40DF0000#32).getLsbD i = true := by decide
  exact fun i hi => getLsbD_and_of_mask dcsr (hmask i hi)

/-- DBG_REG[33:2] is free after a reset. -/
theorem dbgRegReset_kept (kept : BitVec 35) (free : Word) :
    ∀ i ∈ [0, 1, 34], (dbgRegReset kept free).getLsbD i = kept.getLsbD i := by
  simp only [List.forall_mem_cons, dbgRegReset, BitVec.getLsbD_append, BitVec.getLsbD_extractLsb']
  exact ⟨rfl, rfl, rfl, List.forall_mem_nil _⟩

/-! ### Instruction caches (R945; 48_debug_jtag.md R829, R830) -/

theorem processorReset_icache (h : s.ldicMode = false) : s.processorReset.icache = State.reset.icache := by
  simp only [State.processorReset, h, Bool.false_eq_true, if_false]
  rfl

theorem processorReset_icache_ldic (h : s.ldicMode = true) : s.processorReset.icache.lines = s.icache.lines :=
  if_pos h

theorem processorReset_miniIc (h : s.ldicMode = false) (hh : s.haltMode = false) :
    s.processorReset.miniIc = State.reset.miniIc := if_neg (by simp [h, hh])

theorem processorReset_miniIc_kept (h : s.ldicMode = true ∨ s.haltMode = true) :
    s.processorReset.miniIc = s.miniIc := if_pos (by simpa using h)

end

/-- Settles O52: the step is a processor reset (`outsideEvent_resetPin`), and most fields are as it writes them. -/
theorem processorReset : Obligations.ProcessorReset := by
  intro s rest hschedule hpower hfault
  let u : State := { s with schedule := rest, resetPin := true }
  obtain ⟨hmode, hthumb, hI, hF⟩ := processorReset_status u
  have hstep : step s = .next { u.processorReset with inReset := true } :=
    (step_of_outside hschedule).trans (outsideEvent_resetPin (s := { s with schedule := rest }) hpower hfault)
  refine ⟨_, hstep, rfl, rfl, rfl, rfl, hmode, hthumb, hI, hF, rfl, reset_auxControl, rfl, rfl, rfl, rfl,
    getLsbD_and_of_clear _ (by decide), getLsbD_and_of_clear _ (by decide), and_and_of_disjoint _ (by decide),
    and_and_of_disjoint _ (by decide), dcsrReset_kept _, rfl, rfl, rfl, rfl, rfl, rfl, rfl, rfl, rfl, rfl, rfl,
    fun _ => ⟨rfl, rfl⟩, fun h => ⟨processorReset_icache (s := u) h, processorReset_miniIc (s := u) h⟩,
    processorReset_icache_ldic (s := u), processorReset_miniIc_kept (s := u), rfl, rfl, rfl, rfl, rfl, rfl, rfl, rfl,
    rfl, dbgRegReset_kept _ _⟩

end Sys2Proof.Machine
